-- ==== Sys2Proof/Word.lean ====
section
/-! DEFINITION. Words, bytes, and the one sparse map from numbers to values. -/

namespace Sys2Proof

/-- A byte of scratch, vault memory or a wire. -/
abbrev Byte := BitVec 8

/-- A 32-bit register or descriptor word. -/
abbrev W32 := BitVec 32

/-- A 64-bit sequencer register value (R59). -/
abbrev W64 := BitVec 64

/-- A command word (R66). -/
abbrev CmdWord := BitVec 128

/-- A map from numbers to values in one canonical form: keys strictly rising, and no
entry equal to the value `d` that an unlisted key reads as. -/
abbrev Sparse (α : Type) := List (Nat × α)

/-- The value at key `k`; an unlisted key reads as `d`. -/
def Sparse.get {α : Type} (d : α) : Sparse α → Nat → α
  | [], _ => d
  | (k', v) :: m, k => if k' = k then v else Sparse.get d m k

/-- Put the entry of a key that a map does not list in its place. -/
def Sparse.put {α : Type} (k : Nat) (v : α) : Sparse α → Sparse α
  | [] => [(k, v)]
  | e :: m => if k < e.1 then (k, v) :: e :: m else e :: Sparse.put k v m

/-- Put `v` at `k`, keeping the canonical form: writing `d` removes the entry. -/
def Sparse.set {α : Type} [DecidableEq α] (d : α) (m : Sparse α) (k : Nat) (v : α) : Sparse α :=
  let rest := m.filter (fun e => decide (e.1 ≠ k))
  if v = d then rest else Sparse.put k v rest

/-- The keys of a map are strictly rising, all above `lo` where a lower bound is given. -/
def Sparse.rising {α : Type} : Option Nat → Sparse α → Bool
  | _, [] => true
  | lo, (k, _) :: m => (match lo with | none => true | some b => decide (b < k)) && Sparse.rising (some k) m

/-- The canonical form: rising keys and no entry equal to the default. -/
def Sparse.wf {α : Type} [DecidableEq α] (d : α) (m : Sparse α) : Bool :=
  Sparse.rising none m && m.all (fun e => decide (e.2 ≠ d))

/-- Memory: bytes by address; an unlisted byte reads as zero (R157, R162, R231). -/
abbrev Memory := Sparse Byte

/-- The canonical form of a memory. -/
abbrev Memory.wf (m : Memory) : Bool := Sparse.wf (0 : Byte) m

end Sys2Proof
end

