-- ==== Sys2Proof/Records.lean ====
section
/-! DEFINITION. The records that commands carry: command fields, frames, chunks, images. -/

namespace Sys2Proof

/-- A sequencer register number (R59). -/
abbrev Reg := Fin 16

/-- The common fields of an engine command word, bits [31:8] (R66). -/
structure Common where
  wen : Bool
  wsem : Fin 64
  sen : Bool
  ssem : Fin 64
  xen : Bool
  xreg : Reg
  xsh : Fin 32
  deriving DecidableEq, Repr

/-- The fields of a row command (R77). -/
structure RowFields where
  src : BitVec 16
  dst : BitVec 16
  param : BitVec 16
  sub : BitVec 8
  bank : Fin 2
  deriving DecidableEq, Repr

/-- The operands of a vault-class word (R79): its descriptor's unit, and DREG. -/
structure VaultFields where
  desc : BitVec 16
  dreg : Reg
  deriving DecidableEq, Repr

/-- The dispatch record (R297). -/
structure DispatchRec where
  stepSeq : BitVec 32
  bucket : Nat
  ntoken : Nat
  nbatch : Nat
  lclass : Nat
  deriving DecidableEq, Repr

/-- A resource of the fixed arbitration (R277) or an accumulator bank (R99, R282). -/
inductive Resource
  | scratchBank (core bank : Nat)
  | injection (core : Nat)
  | vaultPort (vault : Nat)
  | nmuPath (vault : Nat)
  | accBank (core bank : Nat)
  deriving DecidableEq, Repr

/-- Who holds a resource: an engine of a core, or a block that is no core's (R283). -/
inductive Holder
  | engine (core : Nat) (eng : Fin 6)
  | vaultTask (vault : Nat)
  | darning
  | reduction (pd : Fin 4) (gid blk : Nat)
  deriving DecidableEq, Repr

/-- What the decoder makes of the codeword read from the array (R199). -/
inductive DecodeOut
  | clean
  | corrected (bytes : BitVec 256)
  | uncorrectable
  deriving DecidableEq, Repr

/-- Where a register access comes from: BAR0, the active Lodestar with REG_WRITE and REG_READ (R409), or BAR2 (R459). -/
inductive View | host | priv | bar2
  deriving DecidableEq, Repr

/-- The header fields of a message item (R266) and its data. -/
structure Item where
  src : Nat
  dq : Nat
  epoch : BitVec 8
  tag : BitVec 16
  len : Nat
  data : List Byte
  deriving DecidableEq, Repr

/-- A sealed command (R402): its header, its length in bytes, and the header of its dual signature block (R393). The signatures and
the HPKE Open are standard algorithms, so whether they verify comes with the command (log 11). -/
structure Sealed where
  hdr : BitVec 1024
  len : Nat
  block : BitVec 128
  rsaOk : Bool
  slhOk : Bool
  openOk : Bool
  deriving DecidableEq, Repr

/-- The plaintext of KEY_INSTALL (R407). -/
structure KeyPayload where
  keyid : Nat
  pki : Nat
  hybrid : Bool
  reservedOk : Bool
  x25519 : BitVec 256
  mlkem : BitVec 512
  deriving DecidableEq, Repr

/-- A layer entry of a group (R347). -/
structure LayerEnt where
  firstBlk : Nat
  nBlk : Nat
  nCore : Nat
  deriving DecidableEq, Repr

/-- A roster entry of a group (R347). -/
structure RosterEnt where
  node : Nat
  slot : Nat
  addr : BitVec 128
  deriving DecidableEq, Repr

/-- The group record with its layer and roster entries (R347). -/
structure GroupRec where
  gid : Fin 16
  pat : Nat
  rmode : Bool
  rule : Nat
  beta : Nat
  lr : Nat
  lrsh : Nat
  dlLog2 : Nat
  mcLog2 : Nat
  mcCred : Nat
  ev : Int
  ew : Int
  tseg : Nat
  cseg : Nat
  sseg : Nat
  retype : Nat
  nelem : Nat
  tofs : Nat
  cofs : Nat
  sofs : Nat
  layers : List LayerEnt
  roster : List RosterEnt
  reservedOk : Bool
  deriving DecidableEq, Repr

/-- The payload of COLL_FORM (R347): the group record, the layer entries and the roster entries, as words. -/
structure GroupWords where
  head : BitVec 256
  layers : List (BitVec 64)
  roster : List (BitVec 256)
  deriving DecidableEq, Repr

/-- One group of 32 values with its exponent, as chunks carry it (R354). -/
structure Grp where
  v : List Int
  x : Int
  deriving DecidableEq, Repr

/-- A chunk: its header and its groups (R354). -/
structure Chunk where
  gid : Nat
  cstep : Nat
  blk : Nat
  rank : Nat
  ncount : Nat
  incomplete : Bool
  groups : List Grp
  deriving DecidableEq, Repr

/-- Queue declaration of a Pattern (R264). -/
structure QueueDecl where
  depth : Nat
  grant : Nat
  cmode : Bool
  thresh : Nat
  tsem : Fin 64
  reservedOk : Bool
  deriving DecidableEq, Repr

/-- Ring-table entry (R163). -/
structure RingDecl where
  base : Nat
  slotsz : Nat
  nslot : Nat
  prod : Nat
  cons : Nat
  uses : Nat
  reservedOk : Bool
  deriving DecidableEq, Repr

/-- Segment declaration (R254). -/
structure SegDecl where
  length : Nat
  rd : Bool
  wr : Bool
  pinned : Bool
  pinix : Nat
  reservedOk : Bool
  deriving DecidableEq, Repr

/-- Tensor declaration (R240). -/
structure TensorDecl where
  seg : Nat
  etype : Nat
  form : Nat
  ovl : Nat
  offset : Nat
  ext : List Nat
  pad : List Nat
  tm : List Nat
  alloc : Nat
  reservedOk : Bool
  deriving DecidableEq, Repr

/-- One core's part of a Pattern image (R253); its queue declarations, each with its queue's number, and its ring table are words
(R163, R264). -/
structure CoreImage where
  program : List CmdWord
  entry : Nat
  restart : Nat
  sems : List (Nat × BitVec 16)
  queueWords : List (Nat × BitVec 64)
  ringWords : List (BitVec 128)
  scratch : List (Nat × List Byte)
  deriving DecidableEq, Repr

/-- One region of a Pattern image: its size, its requested origin and its cores in row-major order (R253). -/
structure RegionImage where
  width : Nat
  height : Nat
  originX : Nat
  originY : Nat
  cores : List CoreImage
  deriving DecidableEq, Repr

/-- One entry of the part table (R424). -/
structure PartEnt where
  seg : Nat
  offset : Nat
  length : Nat
  hash : BitVec 384
  deriving DecidableEq, Repr

/-- The parameters of a Pattern (R253, R296). -/
structure PatParams where
  waitLog2 : Nat
  stepmask : BitVec 7
  bucketUnit : Nat
  dispatchAddr : Nat
  nlhg : Nat
  kvpitch : Nat
  inrow : Nat
  stepinSeg : Nat
  stepinOfs : Nat
  stepoutSeg : Nat
  stepoutOfs : Nat
  deriving DecidableEq, Repr

/-- A Pattern's manifest: part 0 of a load (R253, R424); its segment and tensor declarations are words (R240, R254). -/
structure Manifest where
  hash : BitVec 384
  params : PatParams
  buckets : List (List Nat)
  regions : List RegionImage
  segWords : List (BitVec 128)
  tensorWords : List (BitVec 512)
  parts : List PartEnt
  deriving DecidableEq, Repr

/-- The fields of a port record of the Chart and of the port address registers (R415, R476). -/
structure PortAddr where
  mac : BitVec 48
  vid : Nat
  vlanEn : Bool
  ipv4 : BitVec 32
  gw4 : BitVec 32
  ipv6 : BitVec 128
  gw6 : BitVec 128
  iid : BitVec 64
  pfx6 : Nat
  pfx4 : Nat
  mtu : Nat
  pfcEn : BitVec 8
  pauseEn : Bool
  dscp : BitVec 96
  deriving DecidableEq, Repr

/-- The device fields of the configuration record (R415). -/
structure ConfigRec where
  nodeId : Nat
  slot : Nat
  linkPrev : Bool
  place : Bool
  mend : Bool
  linkRev : Nat
  arithRev : Nat
  minep4 : Nat
  minep5 : Nat
  pcapDef : Nat
  rqLimit : Nat
  ingThresh : Nat
  resvTop : Nat
  sst : List Nat
  ports : List PortAddr
  reservedOk : Bool
  deriving DecidableEq, Repr

/-- What the standard algorithms say of an image (R394, R396, R414, R417, log 11): bit `i` of `certs` whether certificate `i` of CERTS
carries its issuer's hash and signature, the two parts of the header signature, bit STYPE − 1 of `hashes` whether that section has its
hash, and bit TARGET of `fwSigs` whether that firmware has its signature. -/
structure ImageTests where
  certs : BitVec 9
  headRsa : Bool
  headSlh : Bool
  hashes : BitVec 9
  fwSigs : BitVec 3
  deriving DecidableEq, Repr

/-- An entry of the Chart's section directory (R414). -/
structure SectEnt where
  stype : Nat
  offset : Nat
  length : Nat
  hash : BitVec 384
  reservedOk : Bool
  deriving DecidableEq, Repr

/-- A Chart as the device reads it out of a flash device (R413 to R416): the fields of its header, its configuration record, its repair
map, its Pattern hashes, its certificates, and the hashes and identities that follow from it. -/
structure ChartImage where
  family : Nat
  member : Nat
  gen : Nat
  totlen : Nat
  config : ConfigRec
  badSites : List Nat
  badFrames : List (Nat × Nat)
  patterns : List (BitVec 384)
  certs : List Byte
  signers : Nat
  chartHash : BitVec 384
  fwHash : BitVec 384
  devid : BitVec 384
  opid : BitVec 384
  deriving DecidableEq, Repr

/-- A received Ethernet frame, as far as the checks of R383 see it: the VLANs of its tags from the outside in, its EtherType, its IP
header's length in words, fragment mark, protocol or next header and destination, and its UDP port and length with the
request-protocol header behind them. Whether FCS, IP header and UDP checksum hold comes with the frame. -/
structure EthFrame where
  fcsOk : Bool
  len : Nat
  dstMac : BitVec 48
  tags : List Nat
  etype : BitVec 16
  ipOk : Bool
  ihl : Nat
  frag : Bool
  proto : Nat
  dstV4 : BitVec 32
  dstV6 : BitVec 128
  udpOk : Bool
  udpZero : Bool
  udpPort : Nat
  udpLen : Nat
  rqp : BitVec 256
  deriving DecidableEq, Repr

/-- A client's address of a connection: IP address, UDP port, device port, CONN (R369). -/
structure ConnKey where
  ip : BitVec 128
  udp : Nat
  port : Fin 8
  conn : BitVec 32
  deriving DecidableEq, Repr

/-- The request preamble, as carried by the FIRST segment (R370). -/
structure Preamble where
  hybrid : Bool
  keyid : Nat
  dslot : Nat
  fwd : Bool
  clen : Nat
  enc : BitVec 256
  ct : BitVec 8704
  ok : Bool
  deriving DecidableEq, Repr

/-- An RQ segment (R369 to R371): its client's address, its header and its payload. -/
structure RqSegment where
  key : ConnKey
  hdr : BitVec 256
  payload : List Byte
  deriving DecidableEq, Repr

/-- The inner header of an opened request (R379). -/
structure InnerHeader where
  pattern : BitVec 384
  plen : Nat
  limit : Nat
  sclass : Fin 16
  deriving DecidableEq, Repr

/-- The load header of an opened load request (R424). -/
structure LoadHeader where
  phash : BitVec 384
  part : Nat
  npart : Nat
  seg : Nat
  offset : Nat
  deriving DecidableEq, Repr

/-- The outcome of an HPKE Open (R377 to R379): a failure, or the plaintext. -/
inductive OpenResult
  | authFail
  | plain (bytes : List Byte)
  deriving DecidableEq, Repr

/-- The header of a received Nelzan frame (R338), and whether its tag verifies. -/
structure NzHeader where
  bits : BitVec 128
  tagOk : Bool
  deriving DecidableEq, Repr

/-- A received handshake payload (R342), and whether the peer's report verifies (R401). -/
structure Handshake where
  payload : BitVec 640
  reportOk : Bool
  deriving DecidableEq, Repr

/-- A Nelzan link: one of the eight direct links, or a routed link of a port die (R336, R346). -/
inductive LinkId
  | direct (l : Fin 8)
  | routed (pd : Fin 4) (node slot : Nat)
  deriving DecidableEq, Repr

/-- A sensor of R504. -/
inductive SensorId
  | dieJunction (die : Nat) (k : Fin 8)
  | layer (die : Nat) (k : Fin 16)
  | other (die : Nat) (k : Fin 2)
  | outlet
  deriving DecidableEq, Repr

/-- Why the reference handling acts (R30). -/
inductive ClockLoss | reference | port (k : Fin 4) | helm (k : Fin 2) | lodestar (k : Fin 2)
  deriving DecidableEq, Repr

/-- A wake trigger of R439. -/
inductive WakeCause | segment | collective | sealedCommand | load
  deriving DecidableEq, Repr

/-- The outcome of self-test: sites and dies that fail (R418, R419, R421). -/
structure SelfTest where
  badSites : List Nat
  badCompute : List Nat
  helmBad : Bool
  portBad : Bool
  deriving DecidableEq, Repr

end Sys2Proof
end

