-- ==== Sys2Proof/Syntax.lean ====
section
/-! DEFINITION. The commands of the block: one constructor per row of the table of operations and events. -/

namespace Sys2Proof

/-- The commands the block takes, in the order of the table. A `core` operand is a logical core number
(R20), a `vault` operand a vault number (R24), a `site` operand a site number (R19). -/
inductive Instr
  -- scalar class (R69, R70): the sequencer of `core` executes the word
  | set (core : Nat) (d : Reg) (imm : BitVec 64)
  | addi (core : Nat) (d a : Reg) (imm : BitVec 32)
  | add (core : Nat) (d a b : Reg)
  | sub (core : Nat) (d a b : Reg)
  | shl (core : Nat) (d a : Reg) (sh : Fin 64)
  | shr (core : Nat) (d a : Reg) (sh : Fin 64)
  | ld (core : Nat) (d a : Reg) (imm : BitVec 32)
  | st (core : Nat) (d a : Reg) (imm : BitVec 32)
  | getid (core : Nat) (d : Reg) (sel : Fin 16)
  -- flow class (R71 to R74)
  | loop (core : Nat) (count : BitVec 16) (creg : Reg) (csrc : Bool) (ireg : Reg) (ien : Bool) (last : Fin 2048)
  | lexit (core : Nat)
  | jmp (core : Nat) (target : Fin 2048)
  | brz (core : Nat) (a : Reg) (target : Fin 2048)
  | brnz (core : Nat) (a : Reg) (target : Fin 2048)
  | brlt (core : Nat) (a b : Reg) (target : Fin 2048)
  | halt (core : Nat)
  | trap (core : Nat) (code : BitVec 16)
  | nop (core : Nat)
  -- synchronisation class (R75)
  | semwait (core : Nat) (sem : Fin 64) (n : BitVec 16)
  | semsig (core : Nat) (sem : Fin 64) (n : BitVec 16)
  | semset (core : Nat) (sem : Fin 64) (n : BitVec 16)
  | fence (core : Nat) (mask : BitVec 5)
  | barrier (core : Nat) (bid : Fin 4) (fen : Bool)
  -- matrix class (R76)
  | tmul (core : Nat) (k : Common) (opset : BitVec 16) (shape acc : Fin 8) (bank : Fin 2) (eop red : Fin 4) (mod : Bool)
  | fchain (core : Nat) (k : Common) (chain : BitVec 16) (run : Bool) (bank : Fin 2)
  | accrd (core : Nat) (k : Common) (dst : BitVec 16) (bank : Fin 2)
  -- row class (R77)
  | rfunc (core : Nat) (k : Common) (f : RowFields)
  | rred (core : Nat) (k : Common) (f : RowFields)
  | ralu (core : Nat) (k : Common) (f : RowFields)
  | rrescale (core : Nat) (k : Common) (f : RowFields)
  | rtload (core : Nat) (k : Common) (f : RowFields)
  | rquant (core : Nat) (k : Common) (f : RowFields)
  -- stream class (R78)
  | copy (core : Nat) (k : Common) (desc list : BitVec 16)
  | streamGather (core : Nat) (k : Common) (desc list : BitVec 16)
  | scatter (core : Nat) (k : Common) (desc list : BitVec 16)
  | tcopy (core : Nat) (k : Common) (desc list : BitVec 16)
  -- vault class (R79)
  | vaultGather (core : Nat) (k : Common) (f : VaultFields)
  | scadd (core : Nat) (k : Common) (f : VaultFields)
  | merge (core : Nat) (k : Common) (f : VaultFields)
  | topk (core : Nat) (k : Common) (f : VaultFields)
  | vaultRred (core : Nat) (k : Common) (f : VaultFields)
  | fill (core : Nat) (k : Common) (f : VaultFields)
  | decomp (core : Nat) (k : Common) (f : VaultFields)
  | ctradd (core : Nat) (k : Common) (desc : BitVec 16) (dreg : Reg)
  | ctrsetInit (core : Nat) (k : Common) (f : VaultFields)
  | ctrsetDone (core : Nat) (k : Common) (f : VaultFields)
  | ctrsetRelease (core : Nat) (k : Common) (f : VaultFields)
  | lock (core : Nat) (k : Common) (desc : BitVec 16) (dreg : Reg)
  | lockRetry (core : Nat)
  | unlock (core : Nat) (k : Common) (f : VaultFields)
  -- message class (R80)
  | send (core : Nat) (k : Common) (dest : BitVec 13) (dq : Fin 8) (src : BitVec 16) (len : BitVec 13) (tag : BitVec 16)
  | recv (core : Nat) (k : Common) (q : Fin 8) (blk : Bool) (dsts : BitVec 16) (maxlen : BitVec 13) (lreg : Reg) (lenEn : Bool)
  | credit (core : Nat) (k : Common) (q : Fin 8) (n : BitVec 16)
  -- events of a core (R55 to R88)
  | registerResult (core : Nat) (reg : Reg)
  | semWaitGrant (core : Nat)
  | fenceEnd (core : Nat)
  | engineCommandStart (core : Nat) (eng : Fin 5)
  | engineCommandComplete (core : Nat) (eng : Fin 5) (idx : Nat)
  | haltDrainEnd (core : Nat)
  | barrierArrival (src : Nat) (bid : Fin 4) (phase : Bool)
  | barrierRelease (core : Nat) (bid : Fin 4) (phase : Bool)
  | dispatch (core : Nat) (rec : DispatchRec)
  | waitTimeout (core : Nat) (eng : Fin 6)
  | stepTimeout (core : Nat)
  | slotStall (core : Nat) (eng : Fin 5)
  | resourceHang (res : Resource) (holder : Holder)
  | preemption (res : Resource) (held waited progress : Nat)
  -- vaults, Darning, migration (R198 to R205, R311 to R334)
  | vaultReadRequest (vault offset : Nat) (issuer : Option (Nat × Fin 6)) (first retry : DecodeOut)
  | vaultWriteRequest (vault offset : Nat) (data : BitVec 256) (mask : BitVec 32) (issuer : Option (Nat × Fin 6)) (first retry : DecodeOut)
  | patrolRead (vault offset : Nat) (first retry : DecodeOut)
  | refreshOperation (vault : Nat) (bank : Fin 64)
  | darnRebuild (vault offset : Nat) (readable : Bool)
  | miscorrectionResolve (report : Nat)
  | migrationStart (pat seg page toVault waits : Nat)
  | migrationCopyEnd (pat seg page : Nat)
  | migrationEnd (pat seg page : Nat)
  | siteTestEnd (site : Nat) (pass : Bool)
  | computePllLoss (die : Nat)
  | refclkLoss (cause : ClockLoss)
  | regionStop (core : Nat)
  | stepCancel (pat : Nat) (stepSeq : BitVec 32)
  | cancel (core : Nat)
  | drained (core : Nat)
  | clear (core : Nat)
  | cancelTimeout (core : Nat)
  | regionReset (pat region : Nat)
  | coreReset (core : Nat)
  | lockRelease (core addr : Nat) (epoch : BitVec 16)
  | orphanNotice (vault core : Nat)
  | orphanNoticeAck (vault core : Nat)
  | stepReplay (pat : Nat) (stepSeq : BitVec 32)
  | stepForm (pat : Nat)
  | haltReport (core : Nat)
  | outputGate (pat : Nat) (stepSeq : BitVec 32)
  -- admission and streams (R285 to R308)
  | reqItem (helm : Fin 2) (pd : Fin 4) (ptrOk : Bool)
  | admissionCycle
  | streamRelease (slot : Nat)
  | zeroingComplete (sid : BitVec 32)
  -- messages (R264 to R275)
  | itemArrival (core : Nat) (item : Item) (ptrOk : Bool)
  | connect (core : Nat) (q : Fin 8) (producer : Nat) (epoch : Option (BitVec 8))
  | connectReply (producer dest : Nat) (q : Fin 8) (grant : Option Nat) (epoch : BitVec 8)
  | connectRetry (core : Nat)
  | disconnect (core : Nat) (q : Fin 8) (producer : Nat) (epoch : BitVec 8) (words : Nat)
  | creditReturn (producer core : Nat) (q : Fin 8) (epoch : BitVec 8) (words : Nat)
  | stale (producer core : Nat) (q : Fin 8)
  -- events and Lodestars (R29, R386 to R389, R482 to R484)
  | eventRecordArrival (block : Nat)
  | foldWindowEnd (block code : Nat)
  | heartbeat
  | lodestarTakeover (selfReport : Bool)
  | lodestarStandbyLost
  | lodestarSilence (pd : Fin 4)
  | challengeExpiry
  -- sealed commands (R402 to R408)
  | keyInstall (c : Sealed) (p : BitVec 896)
  | keyRemove (c : Sealed) (keyid : Nat)
  | regWrite (c : Sealed) (pairs : List (W32 × W32))
  | regRead (c : Sealed) (offsets : List W32)
  | collForm (c : Sealed) (g : GroupWords)
  | collDissolve (c : Sealed) (gid : Fin 16)
  | patternUnload (c : Sealed) (hash : BitVec 384)
  | unloadComplete (pat : Nat)
  | warmRestart (c : Sealed) (chartHash : BitVec 384)
  | lodestarSwitch (c : Sealed)
  | attestationRequest
  | attestationDone
  -- host interface (R443 to R464)
  | irqStatusClear (value : W32)
  | c64LoRead (view : View) (offset : W32)
  | bar0PrivAccess (offset : W32) (write : Bool)
  | stagedWrite (view : View) (offset value : W32)
  | registerWrite (view : View) (offset value : W32) (fullBytes : Bool)
  | blkSnap (block : Nat)
  | blockSnapArrival (block : Nat)
  | strobeTelemetry (view : View)
  | strobeSlotTable (view : View)
  | strobeIngThresh (view : View)
  | strobePortAddr (view : View) (port : Fin 8)
  | stagedApply (block group : Nat)
  | telEnableSet (value : W32)
  | telEnableClear (value : W32)
  | telTailWrite (value : W32)
  | parkSet (value : W32)
  | parkClear (value : W32)
  | lpmaxWrite (value : W32)
  | flashErase (dev : Fin 2)
  | flashProgram (dev : Fin 2)
  | flashOpEnd
  | flashOpTimeout
  -- Ethernet ports and the request protocol (R367 to R385, R435)
  | ethPortReset (port : Fin 8)
  | nzLinkReset (link : Fin 8)
  | ethSignalLoss (port : Fin 8)
  | ethFrameRx (port : Fin 8) (f : EthFrame)
  | arpRequest (port : Fin 8) (target : BitVec 32) (senderMac : BitVec 48) (senderIp : BitVec 32)
  | icmpEcho (port : Fin 8) (v6 : Bool) (dst src : BitVec 128) (payload : List Byte)
  | neighborSolicitation (port : Fin 8) (target src : BitVec 128)
  | pauseFrame (port : Fin 8) (pfc : Bool) (prios : BitVec 8)
  | rqSegment (seg : RqSegment)
  | requestOpen (pd : Fin 4) (rec : Nat) (result : OpenResult)
  | rsack (pd : Fin 4) (rec ack : Nat) (sack : BitVec 64)
  | rqpCancel (pd : Fin 4) (rec : Nat)
  | rqackTimer (pd : Fin 4) (rec : Nat)
  | rsRetransmit (pd : Fin 4) (rec seq : Nat)
  | requestTimeout (pd : Fin 4) (rec : Nat)
  | connRecordExpiry (pd : Fin 4) (rec : Nat)
  | forwardedRequest (link : Fin 8) (srcNodeSlot : Nat) (key : ConnKey) (pre : Preamble) (body : List Byte)
  | forwardedResponse (link : Fin 8) (key : ConnKey) (body : List Byte)
  | loadPart0 (m : Manifest) (h : LoadHeader)
  | loadPart (h : LoadHeader) (body : List Byte)
  | loadAbandoned
  -- Nelzan links (R336 to R346)
  | nzDataFrame (link : LinkId) (h : NzHeader)
  | nzAckFrame (link : LinkId) (h : NzHeader)
  | nzNakFrame (link : LinkId) (h : NzHeader)
  | nzCreditFrame (link : LinkId) (h : NzHeader)
  | handshake (link : LinkId) (h : Handshake)
  | laneTrainingEnd (link : LinkId)
  | linkBringupTimeout (link : LinkId)
  | linkRetry (link : LinkId)
  | linkSilence1ms (link : LinkId)
  | linkSilence10ms (link : LinkId)
  | retrainEnd (link : LinkId)
  | linkDown (link : LinkId)
  -- collectives (R347 to R365)
  | join (gid : Fin 16) (rank : Nat) (hash : BitVec 384) (arithRev : Nat)
  | joinWindowEnd (gid : Fin 16)
  | formed (gid : Fin 16) (ranks : List Nat)
  | groupNoleader (gid : Fin 16)
  | layerDoorbellComplete (gid : Fin 16) (layer : Nat)
  | contribChunk (c : Chunk)
  | partialChunk (c : Chunk) (node : Nat)
  | collDeadline (gid : Fin 16) (layer : Nat)
  | shardDone (gid : Fin 16) (rank : Nat) (incomplete : Bool)
  | leaderStepTimeout (gid : Fin 16)
  | collCommit (gid : Fin 16)
  | collAbort (gid : Fin 16)
  | groupLost (gid : Fin 16)
  | updateChunk (c : Chunk)
  | updateAck (gid : Fin 16) (blk rank : Nat)
  | mcDropped (gid : Fin 16) (rank : Nat)
  | dropped (gid : Fin 16) (owner : Nat)
  | pull (gid : Fin 16) (blk rank : Nat)
  | pullAnswer (c : Chunk)
  -- low power, resets and power (R427 to R442, R495 to R506)
  | blockL1Entry (block : Nat)
  | l2Entry
  | l3Entry
  | wakeTrigger (cause : WakeCause)
  | wakeEnd
  | powerUp
  | coldReset
  | powerDown
  | inputFaultShutdown (high : Bool)
  | rstInN (cycles : Nat)
  | perstN
  | flr
  | d3hotEntry
  | vinSample (tenths : Nat)
  | fastCurrentLimit
  | dutyPowerUpdate (meanWatts : Nat)
  | dutyThermalUpdate (die elapsedMs : Nat)
  | sensorSample (sensor : SensorId) (value : Int)
  -- start-up (R410 to R423)
  | romStageEnd (laOk lbOk refOk pllOk : Bool)
  | chartImageCheck (image : Fin 2) (tests : ImageTests) (keys : Bool × Bool)
  | flashReadTimeout (image : Fin 2)
  | pcieLinkUp (rate width : Nat) (flit : Bool)
  | selfTestEnd (t : SelfTest)
  | stackTestEnd (badVaults badStacks : List Nat)
  | linkStageEnd
  | startTimeout
  -- SMBus, PMBus, JTAG (R511 to R515)
  | smbGlbIdent
  | smbGlbStart
  | smbGlbHealth
  | smbGlbPwrState
  | smbGlbPin
  | smbGlbTherm
  | smbGlbEvnext
  | smbusClockTimeout
  | clearFaults
  | capability
  | statusByte
  | statusWord
  | statusInput
  | statusTemperature
  | statusCml
  | statusMfrSpecific
  | readVin
  | readIin
  | readPin
  | readTemperature1
  | readTemperature2
  | readTemperature3
  | pmbusRevision
  | mfrId
  | mfrModel
  | mfrReadDuty
  | mfrSensorFail
  | pmbusInvalidCommand
  | alertResponse
  | bypass
  | idcode
  | samplePreload (cells : Option (BitVec 64))
  | extest
  | testLogicReset
  -- ends of events above
  | txcntWrapHandshake (link : LinkId)
  | ethTrainingEnd (port : Fin 8)
  | rstInNRelease
  | perstNRelease
  | d3hotExit
  | pauseTimeExpiry (port : Fin 8) (prios : BitVec 8)
  | arpReply (port : Fin 8) (ip : BitVec 32) (mac : BitVec 48)
  | neighborAdvertisement (port : Fin 8) (ip : BitVec 128) (mac : BitVec 48)
  deriving DecidableEq, Repr

end Sys2Proof
end

