-- ==== Sys2Proof/Config.lean ====
section
/-! DEFINITION. What the spec leaves open: values without a body, and the fixed numbers of the device. -/

namespace Sys2Proof

/-- The 32 B random value of the n-th challenge drawn (R404): a free value (log 10). -/
opaque Config.challenge : Nat → BitVec 256

/-- SHA-384 of a byte string: a standard function whose values the spec does not state (log 11). -/
opaque Config.sha384 : List Byte → BitVec 384

/-- The private X25519 key and the random value of the n-th handshake that the device sends (R342): free values (log 11). -/
opaque Config.linkSecret : Nat → BitVec 256
opaque Config.linkNonce : Nat → BitVec 128

/-- X25519: the shared secret of a private and a public key (R343, log 11). -/
opaque Config.x25519 : BitVec 256 → BitVec 256 → BitVec 256

/-- HKDF-SHA256: 64 bytes from a secret, a salt and an info string (R343, log 11). -/
opaque Config.hkdf : BitVec 256 → List Byte → List Byte → BitVec 512

/-- The exported response key and nonce base of an opened request (R379, log 11). -/
opaque Config.responseKey : Nat → BitVec 352

/-- AES-256-GCM seal of message `n` under a response key (R381, log 11). -/
opaque Config.sealMsg : BitVec 352 → Nat → List Byte → List Byte

/-- The device KEM public keys, 32 B and 1,184 B, of the device secret record of the Chart with a hash (R391, R398, log 11). -/
opaque Config.deviceKem : BitVec 384 → BitVec 9728

/-- RSASSA-PSS by the device RSA key of the Chart with a hash, and SLH-DSA by a Lodestar's own key (R390, R391, R398, log 11). -/
opaque Config.reportRsa : BitVec 384 → List Byte → BitVec 3072
opaque Config.reportSlh : Nat → BitVec 384 → List Byte → BitVec 136704

/-- The X25519 public key of a private key (R399, log 11). -/
opaque Config.x25519Public : BitVec 256 → BitVec 256

/-- SHA-384 of the ML-KEM-768 encapsulation key of a seed (R399, log 11). -/
opaque Config.mlkemHash : BitVec 512 → BitVec 384

/-- A free byte by its draw: what a byte of a flash operation holds that a timeout or a reset cut short (R463, log 50), and the
exponent of an UPDATE that does not fit its 8 bits (log 46). -/
opaque Config.freeByte : Nat → Byte

/-- What a free-running cycle counter shows at its n-th reading (R27, R69): time is not modelled, so a free value (log 16). -/
opaque Config.cycles : Nat → W64

/-- A counter of clock cycles or of cache events, by its offset and draw: time and the die caches are not modelled, so a free
value (log 16). -/
opaque Config.timeCtr : Nat → Nat → W64

/-- S and E of the reciprocal of a zero entry, which R138 does not state (log 21). -/
opaque Config.recipOfZero : Nat → W64

/-- A value whose sum the spec's field cannot hold: a row sum beyond 48 bits (R218), a coordinate beyond 32 bits (R217),
by draw (log 23). -/
opaque Config.freeSum : Nat → W64

/-- A quantity in LINEAR11 (R512): which of the format's codings a value takes, and how it is rounded, is not stated (log 51).
The first argument is the unit, in thousandths. -/
opaque Config.linear11 : Nat → Int → BitVec 16

/-- The bus address straps ADDR0 to ADDR2 (R507), pins of the module (log 51). -/
opaque Config.straps : BitVec 3

/-- Measured values the spec leaves to the module (input current, internal numbers), by draw (log 13). -/
opaque Config.freeWord : Nat → W32

/-- Logical cores of the grid, 96 by 44 (R20). -/
def Config.nCores : Nat := 4224
/-- Sites, and so vaults, 96 by 48 (R19, R24). -/
def Config.nSites : Nat := 4608
/-- Bytes of one vault (R198). -/
def Config.vaultBytes : Nat := 1073741824
/-- First scratch byte of the reserved top (R156). -/
def Config.scratchTop : Nat := 0x2F0000
/-- First scratch unit of the reserved top (R156). -/
def Config.topUnit : Nat := 48128
/-- Frames of 64 KiB in a vault (R189). -/
def Config.framesPerVault : Nat := 16384

end Sys2Proof
end

