-- ==== Sys2Proof/Machine/Codes.lean ====
section
/-! DEFINITION. The codes of R486 and their values, and the kinds of report (R6, R482). -/

namespace Sys2Proof.Machine

/-- The kind of a report (R482). -/
inductive Kind | faulted | rejected | refused | event
  deriving DecidableEq, Repr

/-- The codes of R486, row by row of its table and in ascending value within each row. -/
inductive Code
  | chartFormat | chartFamily | chartCert | chartSigRsa | chartSigSlh | chartSigBoth | sectHash | fwSig | chartRange
  | pairMismatch | pufFail | flashRead
  | refclkLoss | helmTest | portTest | deviceFailed | resvShort | startTimeout
  | resourceHang | queuePtr | vaultUe | protect | kvUnmapped | patternTrap | waitTimeout | slotStall | semOverflow
  | msgTrunc | overflowUnresolved | scaleRange | sparseOrder | sparseExtent | cancelTimeout | stepTimeout | regionStop
  | zeroExtent | badCommand | indexRange | misalign | scratchRange | badHeader | oclassMismatch | typePair | outForm
  | badStride | colAlign | groupSplit | overlap | accState | wsUnpinned | rowForm | badTable | badChain | chainShape
  | bandSize | ringSpan | ringRole | msgLength | msgDest | badDesc | spaceOp | nibbleSplit | tcopyShape | listRank
  | listUnsorted | nmuType | nmuRange | decompScale | ctrLimit | ctrMode | ctrLink | lockOwner | lockLimit
  | patternLimit | patternParam | bucketTable | regionLimit | regionSpace | progSize | loopDepth | badBranch | semTable
  | queueCount | ringCount | ringLayout | scratchBudget | segTable | tensorDecl | padShort | allocSpan | sliceAlign
  | pinLimit | vaultSpace | loadUnlisted | loadResident | loadBusy | loadOrder | loadPartBad | loadAbandoned
  | refusedPattern | refusedLength | refusedCapacity | refusedAuth | refusedKey | refusedRoute | refusedRetry
  | refusedTimeout | endDone | endCancel | endFault | endLost | endUnload | loadPartOk | loadDone
  | scOk | scFormat | scDevid | scStale | scSigner | scSigRsa | scSigSlh | scSigBoth | scDecrypt | scNostandby
  | collBadcfg | keyExists | keyLimit | regDenied
  | vaultCeRow | vaultTestFail | darnRebuild | darnMiscorrect | streamReplay | siteSuspect | dieDegraded | dieRetired
  | patternFaulted | msgStale | respAbandoned | linkDown | linkAuth | linkWiring | linkRevMismatch | collRevExcluded
  | collCfgMismatch | groupNoleader | groupLost | stepIncomplete | collShardSkipped | collHang | mcDropped | mcSkew
  | lodestarTakeover | lodestarStandbyLost | sealedCmd | flashDeny | repairNew | repairMarkedPass | cfgRange
  deriving DecidableEq, Repr

/-- The rows of R486: the first value of each range and its codes in ascending value. -/
def codeRows : List (Nat × List Code) :=
  [ (0x0001, [.chartFormat, .chartFamily, .chartCert, .chartSigRsa, .chartSigSlh, .chartSigBoth, .sectHash, .fwSig,
      .chartRange, .pairMismatch, .pufFail, .flashRead]),
    (0x0010, [.refclkLoss, .helmTest, .portTest, .deviceFailed, .resvShort, .startTimeout]),
    (0x0101, [.resourceHang, .queuePtr, .vaultUe, .protect, .kvUnmapped, .patternTrap, .waitTimeout, .slotStall,
      .semOverflow, .msgTrunc, .overflowUnresolved, .scaleRange, .sparseOrder, .sparseExtent, .cancelTimeout,
      .stepTimeout, .regionStop]),
    (0x0201, [.zeroExtent, .badCommand, .indexRange, .misalign, .scratchRange, .badHeader, .oclassMismatch, .typePair,
      .outForm, .badStride, .colAlign, .groupSplit, .overlap, .accState, .wsUnpinned, .rowForm, .badTable, .badChain,
      .chainShape, .bandSize, .ringSpan, .ringRole, .msgLength, .msgDest, .badDesc, .spaceOp, .nibbleSplit,
      .tcopyShape, .listRank, .listUnsorted, .nmuType, .nmuRange, .decompScale, .ctrLimit, .ctrMode, .ctrLink,
      .lockOwner, .lockLimit]),
    (0x0301, [.patternLimit, .patternParam, .bucketTable, .regionLimit, .regionSpace, .progSize, .loopDepth, .badBranch,
      .semTable, .queueCount, .ringCount, .ringLayout, .scratchBudget, .segTable, .tensorDecl, .padShort, .allocSpan,
      .sliceAlign, .pinLimit, .vaultSpace, .loadUnlisted, .loadResident, .loadBusy, .loadOrder, .loadPartBad,
      .loadAbandoned]),
    (0x0401, [.refusedPattern, .refusedLength, .refusedCapacity, .refusedAuth, .refusedKey, .refusedRoute, .refusedRetry,
      .refusedTimeout, .endDone, .endCancel, .endFault, .endLost, .endUnload, .loadPartOk, .loadDone]),
    (0x0500, [.scOk, .scFormat, .scDevid, .scStale, .scSigner, .scSigRsa, .scSigSlh, .scSigBoth, .scDecrypt,
      .scNostandby, .collBadcfg, .keyExists, .keyLimit, .regDenied]),
    (0x0601, [.vaultCeRow, .vaultTestFail, .darnRebuild, .darnMiscorrect, .streamReplay, .siteSuspect, .dieDegraded,
      .dieRetired, .patternFaulted, .msgStale, .respAbandoned, .linkDown, .linkAuth, .linkWiring, .linkRevMismatch,
      .collRevExcluded, .collCfgMismatch, .groupNoleader, .groupLost, .stepIncomplete, .collShardSkipped, .collHang,
      .mcDropped, .mcSkew, .lodestarTakeover, .lodestarStandbyLost, .sealedCmd, .flashDeny, .repairNew,
      .repairMarkedPass, .cfgRange]) ]

/-- The place of `c` in a list of codes. -/
def codeIndex (c : Code) : List Code → Nat → Option Nat
  | [], _ => none
  | c' :: cs, n => if c' = c then some n else codeIndex c cs (n + 1)

/-- The 16-bit value of a code (R486): the first value of its row and its place in the row. -/
def codeValue (c : Code) : Nat :=
  codeRows.foldl (fun a r => match codeIndex c r.2 0 with | some n => r.1 + n | none => a) 0

/-- The class of a core fault for mending (R321, R487). -/
inductive FaultClass | site | data | pattern
  deriving DecidableEq, Repr

/-- R321: the codes of the site and data classes; every other fault and every rejection is Pattern-class. -/
def faultClass (k : Kind) (c : Code) : FaultClass :=
  if k = .rejected then .pattern else
  match c with
  | .resourceHang => .site
  | .queuePtr => .site
  | .vaultUe => .data
  | .pairMismatch => .data
  | _ => .pattern

/-- Encoding of KIND in the event record (R482). -/
def kindValue : Kind → Nat
  | .faulted => 0 | .rejected => 1 | .refused => 2 | .event => 3

end Sys2Proof.Machine
end

