-- ==== Sys2Proof/Machine/Types.lean ====
section
/-! DEFINITION. The parts of the machine's state: cores, Patterns, streams, ports, links, groups, power. -/

namespace Sys2Proof.Machine

/-! ### A core (R55 to R88) -/

/-- Core states (R57). -/
inductive CoreState | reset | idle | running | stopped
  deriving DecidableEq, Repr

/-- What the sequencer waits for (R62, R74, R75, R81, R82). -/
inductive SeqWait
  | none
  | reg (r : Reg)
  | queue (eng : Fin 5)
  | sem (sem : Fin 64) (n : BitVec 16)
  | fence (mask : BitVec 5)
  | barrierFence (bid : Fin 4)
  | barrier (bid : Fin 4) (phase : Bool)
  | halt
  deriving DecidableEq, Repr

/-- One entry of the loop stack (R71, R72). -/
structure LoopEnt where
  start : Nat
  last : Nat
  count : Nat
  iter : Nat
  ireg : Option Reg
  deriving DecidableEq, Repr

/-- How ACC acts in the current iteration (R76, R96). -/
inductive AccAct | start | cont | last | only
  deriving DecidableEq, Repr

/-- The operations of the vault class (R79). -/
inductive VaultOp | gather | scadd | merge | topk | rred | fill | decomp | ctradd | ctrset | lock | unlock
  deriving DecidableEq, Repr

/-- The operations of the stream class (R78). -/
inductive StreamOp | copy | gather | scatter | tcopy
  deriving DecidableEq, Repr

/-- The operations of the row class (R77). -/
inductive RowOp | rfunc | rred | ralu | rrescale | rtload | rquant
  deriving DecidableEq, Repr

/-- An engine command as issued: its indexed field formed (R67), its ACC resolved (R76). -/
inductive EngineOp
  | tmul (opset : Nat) (shape : Nat) (acc : AccAct) (bank : Fin 2) (eop red : Nat) (mod : Bool)
  | fchain (chain : Nat) (run : Bool) (bank : Fin 2)
  | accrd (dst : Nat) (bank : Fin 2)
  | row (op : RowOp) (src : Nat) (srcBank : Bool) (f : RowFields)
  | stream (op : StreamOp) (desc list : Nat)
  | vault (op : VaultOp) (desc : Nat) (dreg : Option Reg)
  | send (dest : Nat) (dq : Fin 8) (src len : Nat) (tag : BitVec 16)
  | recv (q : Fin 8) (blk : Bool) (dsts maxlen : Nat) (lreg : Option Reg)
  | credit (q : Fin 8) (n : Nat)
  deriving DecidableEq, Repr

/-- An entry of an issue queue (R62, R63), and the ring and slot at which it is stalled, if it is (R168). -/
structure QEntry where
  word : CmdWord
  pos : Nat
  wait : Option (Fin 64)
  granted : Bool
  signal : Option (Fin 64)
  stalled : Option (Nat × Nat)
  op : EngineOp
  deriving DecidableEq, Repr

/-- Where an FCHAIN stands (R147 to R151): its band or key block, whether product 1 and its row function are done, and its
running maximum and sum by row. -/
structure Chain where
  kb : Nat
  second : Bool
  m : List Int
  l : List Int
  deriving DecidableEq, Repr

/-- A command in progress (R63, R64): the ring slots it reads and writes, whether it is held (a SEND for
credits, a RECV for an item, a LOCK for its lock, a read at Darning), whether it has completed while an
earlier command of its engine has not, its result word, and an unfinished chain's place. `link` is the SEG address of the
claim entry of a linked SCADD (R224), or of the lock that a held LOCK waits for (R227). -/
structure InFlight where
  entry : QEntry
  reads : List (Nat × Nat)
  writes : List (Nat × Nat)
  held : Bool
  tries : Nat
  output : Option (Fin 2)
  link : Option Nat
  done : Bool
  result : Option (Reg × W64)
  chain : Option Chain
  deriving DecidableEq, Repr

/-- An engine's queues. -/
structure EngineQ where
  issue : List QEntry
  prog : List InFlight
  deriving DecidableEq, Repr

/-- Bank states (R95). -/
inductive BankState | empty | open | output
  deriving DecidableEq, Repr

/-- An accumulator bank (R95): row-major accumulators, exponent X, shape and overflow class. -/
structure Bank where
  st : BankState
  shape : Nat
  mod : Bool
  x : Int
  acc : List Int
  deriving DecidableEq, Repr

/-- The B hold (R110, R111): its tag and the B operand's scratch bytes as it was read. -/
structure BHold where
  bbase : Nat
  shape : Nat
  rate : Nat
  bytes : Memory
  deriving DecidableEq, Repr

/-- The loadable table (R139); none is the identity state (R141). -/
structure LTable where
  lo : Int
  step : Nat
  loMode : Bool
  hiMode : Bool
  oexp : Int
  endv : Int
  t : List Int
  deriving DecidableEq, Repr

/-- Slot states (R166). -/
inductive SlotState
  | empty
  | filling
  | filled (avail out : Nat)
  deriving DecidableEq, Repr

/-- A ring record (R163): its entry, the complement held with its BASE and its end, and its slots. -/
structure Ring where
  decl : RingDecl
  pairN : Nat
  slots : List SlotState
  deriving DecidableEq, Repr

/-- A receive queue (R264 to R274). `ptr` are its head and tail pointers in words, and `ptr2` their second copies, with which they
are compared at every use (R273). -/
structure RecvQ where
  depth : Nat
  grant : Nat
  cmode : Bool
  thresh : Nat
  tsem : Fin 64
  items : List Item
  pool : Nat
  epoch : BitVec 8
  ret : List (Nat × Nat)
  armed : Bool
  ptr : Nat × Nat
  ptr2 : Nat × Nat
  deriving DecidableEq, Repr

/-- An entry of the producer table (R268); the list is ordered from least to most recently used (R269). -/
structure ProdEnt where
  dest : Nat
  q : Fin 8
  epoch : BitVec 8
  credits : Nat
  grant : Nat
  deriving DecidableEq, Repr

/-- The fault record of R87, as captured in the reserved top. -/
structure FaultRec where
  core : Nat
  engine : Nat
  kind : Kind
  code : Code
  pos : Nat
  word : CmdWord
  regs : Vector W64 16
  sems : Vector (BitVec 16) 64
  extra : BitVec 256
  deriving DecidableEq, Repr

/-- The tag of a cached translation (R192): a segment's page, or a stream's page of a layer and head group. -/
inductive XlateTag
  | seg (seg page : Nat)
  | kv (slot lhg page : Nat)
  deriving DecidableEq, Repr

/-- One logical core. `xlate` are the translations cached by its Stream Engine (R192) and `nmuXlate` those cached by its home NMU
for it (R208), oldest first. -/
structure Core where
  st : CoreState
  pat : Option Nat
  region : Nat
  progLen : Nat
  store : Sparse CmdWord
  entry : Nat
  restart : Nat
  useRestart : Bool
  pos : Nat
  latch : Option DispatchRec
  regs : Vector W64 16
  sems : Vector (BitVec 16) 64
  pend : List (Reg × Option W64)
  loops : List LoopEnt
  wait : SeqWait
  queues : Vector EngineQ 5
  banks : Vector Bank 2
  bhold : Option BHold
  table : Option LTable
  scratch : Memory
  rings : List Ring
  xlate : List XlateTag
  nmuXlate : List XlateTag
  rq : Vector RecvQ 8
  prod : List ProdEnt
  connWait : Option (Nat × Fin 8)
  phase : Vector Bool 4
  locks : List (Nat × BitVec 16)
  fault : Option FaultRec
  cancelling : Bool
  cycles : W64
  deriving DecidableEq, Repr

/-! ### Patterns, streams and steps (R252 to R308) -/

/-- A segment as placed (R189, R315, R316): its rights, its page list as its pages' frames, its stripes' parity frames, and the
frames in which the page list lies, the first of them its root. `pairN` is the complement held with the length and the root. A frame
number is vault × 16,384 + frame. -/
structure Segment where
  length : Nat
  rd : Bool
  wr : Bool
  pinned : Bool
  pinix : Nat
  frames : List Nat
  parity : List Nat
  lists : List Nat
  pairN : Nat
  deriving DecidableEq, Repr

/-- A placed region: its image, its placed cores in row-major order, the cores whose arrivals its barrier root has
counted, by 2 × BID + phase (R82, R314), and whether it has been stopped and waits for its reset (R88). -/
structure Region where
  image : RegionImage
  cores : List Nat
  arrived : Sparse (List Nat)
  stopped : Bool
  deriving DecidableEq, Repr

/-- A resident Pattern, or one being loaded. -/
structure Pattern where
  manifest : Manifest
  resident : Bool
  helm : Fin 2
  regions : List Region
  segs : List Segment
  spills : List Nat
  ptr : Nat
  sst : List Nat
  nextSeq : BitVec 32
  faulted : Bool
  unloading : Bool
  partsDone : List Nat
  updateHold : List Nat
  deriving DecidableEq, Repr

/-- Stream states (R286). -/
inductive StreamState | free | ready | stepping | commit | ending | replay | parked
  deriving DecidableEq, Repr

/-- A stream-table entry or parked record (R286), with the last output body (R301). `keyN` is KEY_N. -/
structure Stream where
  sid : BitVec 32
  pat : Nat
  sclass : Fin 16
  st : StreamState
  pos : Nat
  plen : Nat
  limit : Nat
  port : Fin 8
  crec : Nat
  conn : BitVec 32
  ptVault : Nat
  ptFrame : Nat
  kdie : Fin 4
  pki : Nat
  rkh : Nat
  keyN : BitVec 64
  aseq : BitVec 32
  lzBase : Nat
  lzLen : Nat
  pages : List (Nat × Nat × Nat)
  lastOut : List Byte
  lost : List (Nat × Nat)
  endCode : Option Code
  slotWas : Option Nat
  deriving DecidableEq, Repr

/-- A batch-table entry (R297). -/
structure BatchEnt where
  slot : Nat
  ntok : Nat
  row0 : Nat
  pos0 : Nat
  deriving DecidableEq, Repr

/-- The phases of a step at its Helm. -/
inductive StepPhase | running | cancelling | committed | stopped | gated
  deriving DecidableEq, Repr

/-- A step in flight (R297 to R302, R329, R330), with the output rows a committed step took; `again` says that its collective
round was aborted, so that bit 1 of each flag word is set (R361). -/
structure Step where
  pat : Nat
  seq : BitVec 32
  drec : DispatchRec
  batch : List BatchEnt
  toHalt : List Nat
  toDrain : List Nat
  toClear : List Nat
  phase : StepPhase
  replays : Nat
  faults : List (Nat × Nat)
  taintAll : Bool
  taintSlots : List Nat
  commitReport : Nat
  again : Bool
  outputs : List (Nat × List Byte)
  deriving DecidableEq, Repr

/-- What an ended stream still owns until its last FILL completes (R306): its frames as (first, count), its landing-zone
space and its share of the KV reservation. -/
structure Zeroing where
  sid : BitVec 32
  ranges : List (Nat × Nat)
  lzBase : Nat
  lzLen : Nat
  kv : Nat
  deriving DecidableEq, Repr

/-- A REQ item of an ingress queue (R380), with its copy of the inner header. -/
structure ReqItem where
  crec : Nat
  pd : Fin 4
  port : Fin 8
  conn : BitVec 32
  lzBase : Nat
  lzLen : Nat
  pki : Nat
  head : BitVec 512
  bodyLen : Nat
  deriving DecidableEq, Repr

/-! ### Vaults, placement, Darning (R198 to R234, R309 to R334) -/

/-- A counter registered at an NMU (R222): its Pattern, its record's address and its claim bitmap's. -/
structure RegCtr where
  pat : Nat
  addr : Nat
  cmap : Nat
  claim : Bool
  limit : Nat
  notify : Option (Nat × Nat)
  deriving DecidableEq, Repr

/-- A vault: registered counters, corrections per row in the patrol pass, open rows, refresh rotation. -/
structure Vault where
  out : Bool
  ctrs : List RegCtr
  ceRows : Sparse Nat
  openRows : Sparse (Option Nat)
  refreshed : Nat
  deriving DecidableEq, Repr

/-- Where a logical core is held (R311, R332). -/
inductive Place | ident | at (site : Nat) | absent
  deriving DecidableEq, Repr

/-- Marks of a site (R312); an unmarked site is HOLDING or SPARE. -/
structure SiteMark where
  suspect : Bool
  retired : Bool
  strike : Bool
  deriving DecidableEq, Repr

/-- A migration in progress (R319); `halted` says that every region has halted a step dispatched after the copy, from STEPSEQ
`waitSeq` on. -/
structure Migration where
  pat : Nat
  seg : Nat
  page : Nat
  oldF : Nat
  newF : Nat
  copied : Bool
  waitSeq : BitVec 32
  halted : Bool
  deriving DecidableEq, Repr

/-- A word reported as corrected (R326), with the steps, by Pattern and STEPSEQ, that were dispatched and had not committed
when it was. -/
structure Report where
  num : Nat
  addr : Nat
  decoded : BitVec 256
  resolved : Bool
  steps : List (Nat × BitVec 32)
  deriving DecidableEq, Repr

/-- An uncorrectable word waiting at Darning (R325): whether a read waits for its data (R202), and the masked write that waits for
it, if its read was part of one (R203). -/
structure DarnWait where
  addr : Nat
  issuer : Option (Nat × Fin 6)
  reply : Bool
  write : Option (Nat × BitVec 256 × BitVec 32)
  deriving DecidableEq, Repr

/-! ### Events and the host interface (R443 to R464, R482 to R484) -/

/-- An event record (R482); `evseq` is filled in on arrival. -/
structure EventRec where
  evseq : BitVec 32
  code : Code
  kind : Kind
  block : Nat
  lost : Nat
  repeats : Nat
  core : Nat
  engine : Nat
  sid : BitVec 32
  stepSeq : BitVec 32
  pat : Nat
  detail : BitVec 256
  deriving DecidableEq, Repr

/-- A folding window of a code (R484): the occurrences held and the last of them. -/
structure FoldWin where
  count : Nat
  last : EventRec
  deriving DecidableEq, Repr

/-- A block's records awaiting delivery, the number lost, and its folding windows (R483, R484). -/
structure EvBuf where
  recs : List EventRec
  lost : Nat
  wins : Sparse (Option FoldWin)
  deriving DecidableEq, Repr

/-- Power request and state registers (R437). -/
structure PowerRegs where
  pcap : Nat
  lpmax : Nat
  park : Bool
  l2idle : Nat
  l3idle : Nat
  state : Nat
  entering : Bool
  waking : Bool
  l3parked : Nat
  autoEntry : Bool
  deriving DecidableEq, Repr

/-- The start-up registers (R423) and the progress of start-up. `kept` is the image, with its number, that a sealed warm restart
reuses (R430); `fast` selects the differences of R429; `heldReset` says that RST_IN_N is low. -/
structure StartUp where
  stage : Nat
  image : Nat
  fallback : Bool
  codeA : Nat
  codeB : Nat
  failcode : Nat
  triedA : Bool
  triedB : Bool
  romLA : Bool
  romLB : Bool
  selfTest : Option SelfTest
  fast : Bool
  linksDone : Bool
  repairDiff : Bool
  heldReset : Bool
  kept : Option (Nat × ChartImage)
  deriving DecidableEq, Repr

/-- A capability of the PCI Express function (R443). -/
inductive PciCap | powerManagement | pciExpress | msix (vectors : Nat) | aer | serialNumber | physical16 | physical32 | physical64
  deriving DecidableEq, Repr

/-- What the function's configuration space says of it (R443). -/
structure PciIdentity where
  vendor : BitVec 16
  device : BitVec 16
  revision : BitVec 8
  classCode : BitVec 24
  subsysVendor : BitVec 16
  subsysId : BitVec 16
  caps : List PciCap
  serial : BitVec 64
  deriving DecidableEq, Repr

/-- The host-interface block and BAR2 (R454 to R463, R472). -/
structure HostIf where
  linkUp : Bool
  rate : Nat
  width : Nat
  flit : Bool
  perst : Bool
  d3hot : Bool
  irqSeq : BitVec 16
  irqBits : BitVec 16
  msixTable : Sparse W32
  pba : BitVec 32
  telBaseLo : W32
  telBaseHi : W32
  telSize : Nat
  telEnable : Bool
  telThresh : Nat
  telHead : W32
  telTail : W32
  privDeny : W32
  badAccess : W32
  chalSeq : W32
  cmdLen : W32
  cmdBusy : Bool
  attBusy : Bool
  ignored : Bool
  rdata : Sparse W32
  result : List Byte
  report : List Byte
  progBuf : Memory
  cmdBuf : Memory
  flAddr : W32
  flBusy : Bool
  flDenied : Bool
  flTimeout : Bool
  deriving DecidableEq, Repr

/-- A flash operation in progress (R463). -/
structure FlashOp where
  dev : Fin 2
  erase : Bool
  addr : Nat
  data : Memory
  deriving DecidableEq, Repr

/-- A recipient key in its slot (R407). -/
structure RecipientKey where
  slot : Nat
  payload : KeyPayload
  deriving DecidableEq, Repr

/-- The Lodestar pair (R386 to R389, R404, R406). `bells` are the sealed commands in hand: the challenge
that was current when each one's doorbell rang, and whether the mailbox still holds it (R432). -/
structure Lodestar where
  active : Fin 2
  activeOk : Bool
  standbyOk : Bool
  challenge : BitVec 256
  rseq : BitVec 32
  beatEvseq : BitVec 32
  beatChallenge : BitVec 256
  committed : Nat
  beatCommitted : Nat
  silent : Vector Bool 4
  bells : List (BitVec 256 × Bool)
  deriving DecidableEq, Repr

/-! ### What the block emits -/

/-- What the IP packet of a sent message says beside its payload (R367, R368): the port, the destination, the next hop with its MAC
address where the port has learned it, DSCP, ECN and DF; its UDP checksum is always sent. -/
structure NetHeader where
  port : Fin 8
  v6 : Bool
  dst : BitVec 128
  udp : Nat
  hop : BitVec 128
  mac : Option (BitVec 48)
  dscp : Nat
  ecn : Nat
  df : Bool
  deriving DecidableEq, Repr

/-- Everything the block sends: messages between its own units, whose arrivals are commands of their own, and
frames, replies and messages to the outside. -/
inductive Emit
  | halted (core : Nat)
  | barrierArrival (core : Nat) (bid : Fin 4) (phase : Bool)
  | barrierRelease (core : Nat) (bid : Fin 4) (phase : Bool)
  | dispatch (core : Nat) (rec : DispatchRec)
  | cancel (core : Nat)
  | drained (core : Nat)
  | clear (core : Nat)
  | lockRelease (core addr : Nat) (epoch : BitVec 16)
  | orphanNotice (vault core : Nat)
  | orphanAck (vault core : Nat)
  | item (dest : Nat) (item : Item)
  | connect (core : Nat) (q : Fin 8) (producer : Nat) (epoch : Option (BitVec 8))
  | connectReply (producer core : Nat) (q : Fin 8) (grant : Option Nat) (epoch : BitVec 8)
  | disconnect (core : Nat) (q : Fin 8) (producer : Nat) (epoch : BitVec 8) (words : Nat)
  | creditReturn (producer core : Nat) (q : Fin 8) (epoch : BitVec 8) (words : Nat)
  | stale (producer core : Nat) (q : Fin 8)
  | regionReset (pat region : Nat)
  | doorbell (gid layer : Nat)
  | zeroing (sid : BitVec 32) (ranges : List (Nat × Nat))
  | activation (slot : Nat)
  | wipeKey (kdie : Fin 4) (slot : Nat)
  | ingressIrq (pd : Fin 4) (helm : Fin 2)
  | streamNotice (sid : BitVec 32) (code : Code)
  | msix (vector : Nat)
  | telRecord (addr : Nat) (bits : BitVec 512)
  | readData (value : Nat)
  | strobe (group : Nat)
  | snap (block : Nat)
  | heartbeat
  | rqack (net : NetHeader) (hdr : BitVec 256)
  | rs (net : NetHeader) (hdr : BitVec 256) (payload : List Byte)
  | forward (link : Fin 8) (key : ConnKey) (pre : Preamble) (base len : Nat)
  | forwardBack (link : Fin 8) (key : ConnKey) (body : List Byte)
  | forwardCancel (link : Fin 8) (key : ConnKey)
  | arp (port : Fin 8) (mac : BitVec 48) (ip : BitVec 32)
  | echo (net : NetHeader) (payload : List Byte)
  | neighbor (port : Fin 8) (target dst : BitVec 128)
  | nzFrame (link : LinkId) (hdr : BitVec 128) (nonce : BitVec 96) (net : Option NetHeader)
  | nzHandshake (link : LinkId) (hdr : BitVec 128) (payload : BitVec 640) (net : Option NetHeader)
  | nzDeliver (link : LinkId) (vc len : Nat)
  | nzRetrain (link : LinkId)
  | join (gid : Nat) (hash : BitVec 384) (arithRev : Nat)
  | formed (gid : Nat) (rank : Nat) (ranks : List Nat)
  | contrib (gid rank : Nat) (c : Chunk)
  | partialSum (gid rank : Nat) (c : Chunk)
  | shardDone (gid : Nat) (incomplete : Bool)
  | commit (gid rank : Nat)
  | abort (gid rank : Nat)
  | update (gid rank : Nat) (c : Chunk)
  | updateAck (gid rank blk : Nat)
  | dropped (gid rank : Nat)
  | pull (gid rank blk : Nat)
  | pullAnswer (gid rank : Nat) (c : Chunk)
  | smbus (bytes : List Byte)
  | smbusRelease
  | pmbus (bytes : List Byte)
  | tdo (value : Nat)
  | pcieTrain
  | loadStatus (hash : BitVec 384) (part : Nat) (code : Code) (sect entry : Nat)
  deriving DecidableEq, Repr

/-! ### Ports (R367 to R385) -/

/-- Phases of a connection record (R371 to R384). -/
inductive ConnPhase | receiving | whole | opened | forwarded | closing | kept
  deriving DecidableEq, Repr

/-- An RS segment not yet acknowledged (R375): its place in the series and in its message, its message's kind, its payload and how
often it has been sent again. -/
structure RsSeg where
  seq : Nat
  msg : Nat
  kind : Nat
  first : Bool
  last : Bool
  offset : Nat
  body : List Byte
  tries : Nat
  deriving DecidableEq, Repr

/-- A connection record (R372). `runs` are the parts of the message that have arrived; `via` is the link on which a forwarded
request came, and `sentTo` the link on which one went out and is not yet acknowledged (R382); `load` is the header of a
load request (R424); `sclass` is the service class, 0 before the request is opened (log 95). -/
structure Conn where
  key : ConnKey
  phase : ConnPhase
  pre : Preamble
  tlen : Nat
  got : Sparse Bool
  runs : List (Nat × Nat)
  ackNext : Nat
  unackedRq : Nat
  lzBase : Nat
  lzLen : Nat
  staging : Option (BitVec 352)
  stagingOk : Bool
  sealed : Bool
  sid : Option (BitVec 32)
  keyid : Nat
  sclass : Nat
  nextMsg : Nat
  nextRs : Nat
  unacked : List RsSeg
  backlog : List RsSeg
  statusSent : Option Nat
  via : Option (Fin 8)
  sentTo : Option (Fin 8)
  load : Option LoadHeader
  deriving DecidableEq, Repr

/-- An Ethernet port (R367, R435, R476). `txq` is what waits for the end of a pause. -/
structure EthPort where
  up : Bool
  training : Bool
  addr : PortAddr
  paused : BitVec 8
  pausedAll : Bool
  arp : List (BitVec 32 × BitVec 48)
  nbr : List (BitVec 128 × BitVec 48)
  txq : List Emit
  deriving DecidableEq, Repr

/-- An ingress queue (R275): its items, its epoch, its pointers in their two copies, as words taken and words stored, and the
credits that the port die, its single producer, holds. -/
structure Ingress where
  items : List ReqItem
  epoch : BitVec 8
  ptr : Nat × Nat
  ptr2 : Nat × Nat
  credits : Nat
  deriving DecidableEq, Repr

/-- A port die: connection records, ingress queues, active key slots, ingress thresholds. -/
structure PortDie where
  conns : Sparse (Option Conn)
  ingress : Vector Ingress 2
  slots : Sparse (Option (BitVec 352))
  threshA : Nat
  threshB : Nat
  closed : Bool
  deriving DecidableEq, Repr

/-! ### Nelzan links and collectives (R336 to R365) -/

/-- Link states (R341). A link that handshakes again without having gone down is rekeying (R339). -/
inductive LinkState | down | training | handshaking | up | retraining | rekeying
  deriving DecidableEq, Repr

/-- A frame to be sent (R338): its channel, its payload's length, and the message that is whole with it. -/
structure NzFrame where
  vc : Nat
  len : Nat
  msg : Option Emit
  deriving DecidableEq, Repr

/-- A Nelzan link (R338 to R344): `replay` are the frames not yet acknowledged, with their SEQ; `waiting` those that wait for credit
or for replay room; `owed` the credit to be returned, by channel; `mine` and `secret` the payload and the private key of the
handshake last sent; `low` says that this side comes first in the order of R343. -/
structure Link where
  st : LinkState
  txSeq : BitVec 16
  rxSeq : BitVec 16
  txcnt : BitVec 40
  replay : List (BitVec 16 × NzFrame)
  credits : Sparse Nat
  owed : Sparse Nat
  waiting : List NzFrame
  nakSeq : BitVec 16
  nakRun : Nat
  rev : Nat
  peerNode : Nat
  peerSlot : Nat
  peerArith : Nat
  keys : BitVec 512
  mine : BitVec 640
  secret : BitVec 256
  low : Bool
  heldDown : Bool
  deriving DecidableEq, Repr

/-- A sum being formed: its groups with exponents and the number of contributions (R355). -/
structure Sum where
  groups : List Grp
  n : Nat
  deriving DecidableEq, Repr

/-- Phases of a group on this module (R349, R360). -/
inductive GroupPhase | joining | formed | excluded
  deriving DecidableEq, Repr

/-- A multicast of one block in progress at its owner (R363). -/
structure Cast where
  blk : Nat
  cstep : Nat
  waiting : List Nat
  sent : List Nat
  groups : List Grp
  deriving DecidableEq, Repr

/-- A configured collective group (R347 to R365). `decided` says that its leader has sent this step's COMMIT or ABORT; `layersDue` are
complete layers whose contributions wait for the end of a catch-up (R364). -/
structure Group where
  cfg : GroupRec
  phase : GroupPhase
  hash : BitVec 384
  joins : List (Nat × Bool × Bool)
  members : List Nat
  rank : Nat
  cstep : Nat
  layersDone : List Nat
  deadlines : List Nat
  contribs : List (Nat × Nat × Sum)
  partials : List (Nat × Nat × Sum)
  summed : List Nat
  updated : List Nat
  shards : List (Nat × Bool)
  incomplete : Bool
  decided : Bool
  layersDue : List Nat
  casts : List Cast
  written : List (Nat × Nat)
  pulling : List (Nat × Nat)
  deriving DecidableEq, Repr

/-! ### Power, sensors, test port (R495 to R515) -/

/-- A sensor's filter (R504, R506). -/
structure Sensor where
  last : Option Int
  discards : Nat
  failed : Bool
  hot : Nat
  deriving DecidableEq, Repr

/-- Power and thermal state (R495 to R506, R512). -/
structure Power where
  pwrEn : Bool
  rails : Bool
  tripLatched : Bool
  inputFault : Bool
  dPwr : Nat
  dTh : Sparse Nat
  refresh16 : Sparse Bool
  sensors : Sparse Sensor
  vinWin : List Nat
  vin : Nat
  pin : Nat
  vinOvFault : Bool
  vinOvWarn : Bool
  vinUvWarn : Bool
  vinUvFault : Bool
  iinOcWarn : Bool
  otFault : Bool
  otWarn : Bool
  cmlInvalid : Bool
  cmlData : Bool
  cmlPec : Bool
  deriving DecidableEq, Repr

/-- Instructions of the test access port (R515). -/
inductive TapInstr | bypass | idcode | sample | extest
  deriving DecidableEq, Repr

/-- The test access port. -/
structure Tap where
  reset : Bool
  instr : TapInstr
  cells : BitVec 64
  driving : Bool
  deriving DecidableEq, Repr

end Sys2Proof.Machine
end

