-- ==== Sys2Proof/Machine/State.lean ====
section
/-! DEFINITION. The machine's state, its state after reset, and the reasons a command can stop. -/

namespace Sys2Proof.Machine

/-- Why a command faults the model: it names something the spec says does not exist. -/
inductive Fault
  /-- A core number of 4,224 or above (R20), raised by every command of a core. Safe: the machine stops. -/
  | noSuchCore
  /-- A vault or site number of 4,608 or above, or a byte beyond a vault's 1 GiB (R19, R24, R198), raised by the
  vault and site commands. Safe: the machine stops. -/
  | noSuchVault
  /-- A die, block or register block number the device does not have (R17, R465). Safe: the machine stops. -/
  | noSuchBlock
  deriving DecidableEq, Repr

/-- Why a command is turned away by the model. -/
inductive Refusal
  /-- No meaning for the row yet; raised by Dispatch only. Safe: the machine stops. -/
  | notModelled (mnemonic : String)
  deriving DecidableEq, Repr

/-- The Helm dies' shared state: Patterns, streams, steps, placement, Darning (R252 to R334). `parkHead` is the place of the parked
list's head in its area (R291); `acks` are the outstanding orphan notices as (vault, core, Pattern), and `frees` the outstanding
lock releases as (core, address, EPOCH, Pattern) (R225, R229). -/
structure HelmSt where
  pats : Sparse (Option Pattern)
  loads : Nat
  load : Option Nat
  streams : Sparse (Option Stream)
  parked : List Stream
  checked : List (ReqItem × Nat)
  nextAseq : BitVec 32
  nextSid : BitVec 32
  kvReserved : Nat
  steps : List Step
  zeroing : List Zeroing
  sst : Vector (List Nat) 2
  resume : List Stream
  frames : Sparse Bool
  ueWords : Sparse Nat
  places : Sparse Place
  marks : Sparse SiteMark
  absent : List Nat
  areaDies : List Nat
  areaMap : Sparse (Option Nat)
  diesOut : Sparse Bool
  diesLost : Sparse Bool
  migs : List Migration
  reports : List Report
  nextReport : Nat
  darn : List DarnWait
  admission : Bool
  pinned : Sparse (Option (Nat × Nat))
  acks : List (Nat × Nat × Nat)
  frees : List (Nat × Nat × BitVec 16 × Nat)
  parkHead : Nat
  clears : List Nat
  deriving DecidableEq, Repr

/-- Registers' shared machinery: counters, held copies, shadows, staged writes (R447 to R453, R468). Counters
are keyed by their register offset; `snapDraw` is the draw that a block's held copies of time counters stand for (log 16). -/
structure RegSt where
  ctrs : Sparse W64
  held : Sparse W64
  shadowHost : Sparse W32
  shadowPriv : Sparse W32
  snapSeq : Sparse W32
  staged : Sparse (Option W32)
  strobed : List (Nat × Nat × List (Nat × W32))
  snapDraw : Sparse Nat
  deriving DecidableEq, Repr

/-- The event log and what waits for it (R29, R464, R482 to R484). -/
structure LogSt where
  bufs : Sparse EvBuf
  log : Sparse (Option EventRec)
  evNext : BitVec 32
  deriving DecidableEq, Repr

/-- The whole block. `pending` is the queue of waiting commands, first in, first out; `out` is everything
emitted since reset, in order; `drawn` counts the free values drawn (`out` and `drawn` are the model's own). -/
structure State where
  pending : List Instr
  out : List Emit
  drawn : Nat
  cores : Sparse Core
  mem : Memory
  vaults : Sparse Vault
  helm : HelmSt
  reg : RegSt
  log : LogSt
  host : HostIf
  pwr : PowerRegs
  start : StartUp
  lode : Lodestar
  flashA : Sparse Byte
  flashB : Sparse Byte
  flashOp : Option FlashOp
  flashUsed : Bool
  chart : Option ChartImage
  keys : List RecipientKey
  ports : Vector EthPort 8
  pds : Vector PortDie 4
  lz : List (Nat × Nat)
  links : Vector Link 8
  routed : List (LinkId × Link)
  groups : Sparse (Option Group)
  power : Power
  tap : Tap
  preempted : List (Resource × Nat)
  refLost : Bool
  deriving DecidableEq, Repr

/-! ### Reset values -/

/-- An engine with nothing queued. -/
def EngineQ.reset : EngineQ := { issue := [], prog := [] }

/-- An EMPTY bank (R95). -/
def Bank.reset : Bank := { st := .empty, shape := 0, mod := false, x := 0, acc := [] }

/-- A disabled receive queue, epoch zero (R264, R274). -/
def RecvQ.reset : RecvQ :=
  { depth := 0, grant := 0, cmode := false, thresh := 0, tsem := 0, items := [], pool := 0, epoch := 0, ret := [],
    armed := true, ptr := (0, 0), ptr2 := (0, 0) }

/-- A core in RESET (R57, R427). -/
def Core.init : Core :=
  { st := .reset, pat := none, region := 0, progLen := 0, store := [], entry := 0, restart := 0, useRestart := false,
    pos := 0, latch := none, regs := Vector.replicate 16 0, sems := Vector.replicate 64 0, pend := [], loops := [],
    wait := .none, queues := Vector.replicate 5 EngineQ.reset, banks := Vector.replicate 2 Bank.reset, bhold := none,
    table := none, scratch := [], rings := [], xlate := [], nmuXlate := [], rq := Vector.replicate 8 RecvQ.reset, prod := [], connWait := none,
    phase := Vector.replicate 4 false, locks := [], fault := none, cancelling := false, cycles := 0 }

/-- A vault after reset: in use, nothing registered, no row open (log 14). -/
def Vault.init : Vault := { out := false, ctrs := [], ceRows := [], openRows := [], refreshed := 0 }

/-- A block's event buffer, empty. -/
def EvBuf.init : EvBuf := { recs := [], lost := 0, wins := [] }

/-- An unmarked site (R312). -/
def SiteMark.init : SiteMark := { suspect := false, retired := false, strike := false }

/-- A sensor that has read nothing (R504). -/
def Sensor.init : Sensor := { last := none, discards := 0, failed := false, hot := 0 }

/-- A port address set before the Chart is read: all zero (log 3). -/
def PortAddr.init : PortAddr :=
  { mac := 0, vid := 0, vlanEn := false, ipv4 := 0, gw4 := 0, ipv6 := 0, gw6 := 0, iid := 0, pfx6 := 0, pfx4 := 0,
    mtu := 0, pfcEn := 0, pauseEn := false, dscp := 0 }

/-- An Ethernet port before training. -/
def EthPort.init : EthPort :=
  { up := false, training := false, addr := PortAddr.init, paused := 0, pausedAll := false, arp := [], nbr := [], txq := [] }

/-- An ingress queue after reset: empty, every credit at its producer (R264, R275). -/
def Ingress.init : Ingress := { items := [], epoch := 0, ptr := (0, 0), ptr2 := (0, 0), credits := 1032 }

/-- A port die after reset. -/
def PortDie.init : PortDie :=
  { conns := [], ingress := Vector.replicate 2 Ingress.init, slots := [], threshA := 0, threshB := 0, closed := true }

/-- A Nelzan link that is down (R341). -/
def Link.init : Link :=
  { st := .down, txSeq := 0, rxSeq := 0, txcnt := 0, replay := [], credits := [], owed := [], waiting := [], nakSeq := 0,
    nakRun := 0, rev := 0, peerNode := 0, peerSlot := 0, peerArith := 0, keys := 0, mine := 0, secret := 0, low := false,
    heldDown := false }

/-- The host-interface block at its reset values (R456, R460, R463, R472). -/
def HostIf.init : HostIf :=
  { linkUp := false, rate := 0, width := 0, flit := false, perst := false, d3hot := false, irqSeq := 0, irqBits := 0,
    msixTable := [], pba := 0, telBaseLo := 0, telBaseHi := 0, telSize := 0x0C, telEnable := false, telThresh := 0,
    telHead := 0, telTail := 0, privDeny := 0, badAccess := 0, chalSeq := 0, cmdLen := 0,
    cmdBusy := false, attBusy := false, ignored := false, rdata := [], result := [], report := [], progBuf := [],
    cmdBuf := [], flAddr := 0, flBusy := false, flDenied := false, flTimeout := false }

/-- GLB_PWR_REQ and GLB_PWR_STATE at reset (R437); PCAP before the Chart is read is log 3. -/
def PowerRegs.init : PowerRegs :=
  { pcap := 0, lpmax := 2, park := false, l2idle := 0x0A, l3idle := 0x32, state := 0, entering := false,
    waking := false, l3parked := 0, autoEntry := false }

/-- GLB_START at reset: every field zero (R423). -/
def StartUp.init : StartUp :=
  { stage := 0, image := 0, fallback := false, codeA := 0, codeB := 0, failcode := 0, triedA := false,
    triedB := false, romLA := false, romLB := false, selfTest := none, fast := false, linksDone := false, repairDiff := false,
    heldReset := false, kept := none }

/-- The Lodestar pair after reset, with the first challenge drawn (R386, R404). -/
def Lodestar.init (n : Nat) : Lodestar :=
  { active := 0, activeOk := true, standbyOk := true, challenge := Config.challenge n, rseq := 0, beatEvseq := 0,
    beatChallenge := 0, committed := 0, beatCommitted := 0, silent := Vector.replicate 4 false,
    bells := [] }

/-- The Helm dies after a device-level reset (R424, R427). -/
def HelmSt.init : HelmSt :=
  { pats := [], loads := 0, load := none, streams := [], parked := [], checked := [], nextAseq := 0,
    nextSid := 0, kvReserved := 0, steps := [], zeroing := [], sst := Vector.replicate 2 [], resume := [], frames := [], ueWords := [],
    places := [], marks := [], absent := [], areaDies := [], areaMap := [], diesOut := [], diesLost := [], migs := [], reports := [],
    nextReport := 0, darn := [], admission := false, pinned := [], acks := [], frees := [], parkHead := 0, clears := [] }

/-- Counters, copies and staged writes after a device-level reset. -/
def RegSt.init : RegSt :=
  { ctrs := [], held := [], shadowHost := [], shadowPriv := [], snapSeq := [], staged := [], strobed := [], snapDraw := [] }

/-- Power and thermal state at power-good: rails on, both duty levels 16 (R500). -/
def Power.init : Power :=
  { pwrEn := true, rails := true, tripLatched := false, inputFault := false, dPwr := 16, dTh := [], refresh16 := [],
    sensors := [], vinWin := [], vin := 0, pin := 0, vinOvFault := false, vinOvWarn := false, vinUvWarn := false,
    vinUvFault := false, iinOcWarn := false, otFault := false, otWarn := false, cmlInvalid := false, cmlData := false,
    cmlPec := false }

/-- The test port in Test-Logic-Reset (R515), with IDCODE selected as IEEE 1149.1 has it; the cells' contents are log 3. -/
def Tap.init : Tap := { reset := true, instr := .idcode, cells := 0, driving := false }

/-- The machine right after a cold reset: nothing started, flash erased (log 4), no command waiting. -/
def State.reset : State :=
  { pending := [], out := [], drawn := 1, cores := [], mem := [], vaults := [], helm := HelmSt.init,
    reg := RegSt.init, log := { bufs := [], log := [], evNext := 0 }, host := HostIf.init, pwr := PowerRegs.init,
    start := StartUp.init, lode := Lodestar.init 0, flashA := [], flashB := [], flashOp := none, flashUsed := false,
    chart := none, keys := [], ports := Vector.replicate 8 EthPort.init, pds := Vector.replicate 4 PortDie.init,
    lz := [], links := Vector.replicate 8 Link.init, routed := [], groups := [], power := Power.init,
    tap := Tap.init, preempted := [], refLost := false }

end Sys2Proof.Machine
end

