-- ==== Sys2Proof/Machine/Ops.lean ====
section
/-! DEFINITION. Named operations over bits, memory, cores, counters, events, and the taking of a core fault. -/

namespace Sys2Proof.Machine

/-! ### Bits and integers (R7, R8) -/

/-- The `n` bits of `w` from bit `lo`. -/
def bitsOf (w lo n : Nat) : Nat := w / 2 ^ lo % 2 ^ n

/-- The low `n` bits of `w` as a two's-complement integer. -/
def signed (n w : Nat) : Int :=
  if w % 2 ^ n < 2 ^ (n - 1) then ((w % 2 ^ n : Nat) : Int) else ((w % 2 ^ n : Nat) : Int) - ((2 ^ n : Nat) : Int)

/-- The low `n` bits of an integer. -/
def lowBits (n : Nat) (v : Int) : Nat := (v % ((2 ^ n : Nat) : Int)).toNat

/-- Bit `i` of `w`. -/
def bitOf (w i : Nat) : Bool := w / 2 ^ i % 2 = 1

/-- Is `b` the exact complement of `a` over `n` bits? -/
def compl (n a b : Nat) : Bool := decide (a + b = 2 ^ n - 1)

/-- A Bool as a number. -/
def b2n (b : Bool) : Nat := if b then 1 else 0

/-- `a` divided by `b`, rounded up. -/
def ceilDiv (a b : Nat) : Nat := (a + b - 1) / b

/-- Rounding half to even (R42). -/
def rq (a k : Int) : Int :=
  if k ≤ 0 then a * ((2 ^ (-k).toNat : Nat) : Int) else
    let d : Int := ((2 ^ k.toNat : Nat) : Int)
    let q := a / d
    let r := a % d
    if 2 * r > d ∨ (2 * r = d ∧ q % 2 = 1) then q + 1 else q

/-- Does `v` fit `n` signed bits? -/
def fitsS (n : Nat) (v : Int) : Bool := decide (-(((2 ^ (n - 1) : Nat)) : Int) ≤ v ∧ v < ((2 ^ (n - 1) : Nat) : Int))

/-- `v` saturated to `n` signed bits. -/
def satS (n : Nat) (v : Int) : Int :=
  if v < -(((2 ^ (n - 1) : Nat)) : Int) then -(((2 ^ (n - 1) : Nat)) : Int)
  else if v ≥ ((2 ^ (n - 1) : Nat) : Int) then ((2 ^ (n - 1) : Nat) : Int) - 1 else v

/-! ### Bytes of a memory, little-endian (R8) -/

/-- The byte at `a`. -/
def rdByte (m : Memory) (a : Nat) : Byte := Sparse.get 0 m a

/-- The `n` bytes from `a`, lowest address first. -/
def rdBytes (m : Memory) (a : Nat) : Nat → List Byte
  | 0 => []
  | n + 1 => rdByte m a :: rdBytes m (a + 1) n

/-- The `n` bytes from `a` as one little-endian number. -/
def rdNat (m : Memory) (a : Nat) : Nat → Nat
  | 0 => 0
  | n + 1 => (rdByte m a).toNat + 256 * rdNat m (a + 1) n

/-- Write one byte. -/
def wrByte (m : Memory) (a : Nat) (b : Byte) : Memory := Sparse.set 0 m a b

/-- Write bytes from `a` upwards. -/
def wrBytes (m : Memory) (a : Nat) : List Byte → Memory
  | [] => m
  | b :: bs => wrBytes (wrByte m a b) (a + 1) bs

/-- Write the low `n` bytes of `v` from `a`, little-endian. -/
def wrNat (m : Memory) (a : Nat) : Nat → Nat → Memory
  | 0, _ => m
  | n + 1, v => wrNat (wrByte m a (BitVec.ofNat 8 v)) (a + 1) n (v / 256)

/-- Zero `n` bytes from `a`: the entries in the range are dropped. -/
def zeroRange (m : Memory) (a n : Nat) : Memory := m.filter (fun e => decide (e.1 < a ∨ a + n ≤ e.1))

/-- A number as `n` little-endian bytes. -/
def toBytes : Nat → Nat → List Byte
  | 0, _ => []
  | n + 1, v => BitVec.ofNat 8 v :: toBytes n (v / 256)

/-- Little-endian bytes as a number. -/
def ofBytes : List Byte → Nat
  | [] => 0
  | b :: bs => b.toNat + 256 * ofBytes bs

/-! ### The grids (R18 to R22) -/

/-- The compute die that presents logical core `c` (R20). -/
def dieOfCore (c : Nat) : Nat := c / 96 / 11 * 6 + c % 96 / 16

/-- The compute die of site (and vault) `t` (R19). -/
def dieOfSite (t : Nat) : Nat := t / 96 / 12 * 6 + t % 96 / 16

/-- The identity site of logical core `c` (R22). -/
def identSite (c : Nat) : Nat := (c / 96 / 11 * 12 + c / 96 % 11) * 96 + c % 96

/-- The site that holds logical core `c`, if any (R311, R332). -/
def siteOf (h : HelmSt) (c : Nat) : Option Nat :=
  match Sparse.get Place.ident h.places c with
  | .ident => some (identSite c)
  | .at t => some t
  | .absent => none

/-- Die-local logical index of a core (R478). -/
def coreIndex (c : Nat) : Nat := c / 96 % 11 * 16 + c % 96 % 16

/-- Die-local index of a site or vault (R478, R481). -/
def siteIndex (t : Nat) : Nat := t / 96 % 12 * 16 + t % 96 % 16

/-- The block number of compute die `n` among the register blocks: 0 global, 1 host interface, 2 and 3 Helm A and
B, 4 to 7 port dies, 8 to 31 compute dies (R465, R467). -/
def dieBlock (n : Nat) : Nat := 8 + n

/-- First offset of a register block (R465). -/
def blockBase (b : Nat) : Nat := if b < 8 then b * 0x100000 else 0x1000000 + (b - 8) * 0x200000

/-- Is `b` a register block? -/
def isBlock (b : Nat) : Bool := decide (b < 32)

/-! ### Cores -/

/-- Logical core `c`. -/
def State.core (s : State) (c : Nat) : Core := Sparse.get Core.init s.cores c

/-- Put a core back. -/
def State.setCore (s : State) (c : Nat) (k : Core) : State := { s with cores := Sparse.set Core.init s.cores c k }

/-- Send a message or reply. -/
def State.emit (s : State) (e : Emit) : State := { s with out := s.out ++ [e] }

/-- Send several messages in order. -/
def State.emits (s : State) (es : List Emit) : State := { s with out := s.out ++ es }

/-- A command of a core, or the fault of a core number the grid does not have (R20). -/
def onCore (s : State) (c : Nat) (f : Core → State) : Host.Outcome State Fault Refusal :=
  if c < Config.nCores then .next (f (s.core c)) else .fault .noSuchCore

/-- A command of a vault or site (R19, R24). -/
def onVault (v : Nat) (s : State) : Host.Outcome State Fault Refusal :=
  if v < Config.nSites then .next s else .fault .noSuchVault

/-- The vault state of vault `v`. -/
def State.vault (s : State) (v : Nat) : Vault := Sparse.get Vault.init s.vaults v

/-- Put a vault's state back. -/
def State.setVault (s : State) (v : Nat) (x : Vault) : State := { s with vaults := Sparse.set Vault.init s.vaults v x }

/-- Change every vault's state, in the canonical form. -/
def State.mapVaults (s : State) (f : Vault → Vault) : State :=
  { s with vaults := (s.vaults.map (fun e => (e.1, f e.2))).filter (fun e => decide (e.2 ≠ Vault.init)) }

/-! ### Counters (R468) -/

/-- The counter at an offset. -/
def State.ctr (s : State) (ofs : Nat) : W64 := Sparse.get 0 s.reg.ctrs ofs

/-- Set the counter at an offset. -/
def State.setCtr (s : State) (ofs : Nat) (v : W64) : State :=
  { s with reg := { s.reg with ctrs := Sparse.set 0 s.reg.ctrs ofs v } }

/-- Add to a 64-bit counter, modulo 2^64. -/
def State.bump (s : State) (ofs n : Nat) : State := s.setCtr ofs (s.ctr ofs + BitVec.ofNat 64 n)

/-- Add to a 32-bit counter of type RO, which saturates. -/
def State.bump32 (s : State) (ofs n : Nat) : State :=
  s.setCtr ofs (BitVec.ofNat 64 (min 0xFFFFFFFF ((s.ctr ofs).toNat + n)))

/-- Offset of a counter in the record of core `c` (R478, R479). -/
def coreCtr (c ofs : Nat) : Nat := blockBase (dieBlock (dieOfCore c)) + 0x1000 + 0x100 * coreIndex c + ofs

/-- Offset of a counter in the record of vault `v` (R478, R480). -/
def vaultCtr (v ofs : Nat) : Nat := blockBase (dieBlock (dieOfSite v)) + 0xC000 + 0x40 * siteIndex v + ofs

/-- Offset of a counter of a Helm block (R473). -/
def helmCtr (h ofs : Nat) : Nat := blockBase (2 + h) + ofs

/-- Offset of a counter of Ethernet port `p` (R475). -/
def portCtr (p ofs : Nat) : Nat := blockBase (4 + p / 2) + 0x1000 + 0x100 * (p % 2) + ofs

/-- Offset of a counter of direct Nelzan link `l` (R475). -/
def linkCtr (l ofs : Nat) : Nat := blockBase (4 + l / 2) + 0x1200 + 0x40 * (l % 2) + ofs

/-- Offset of a counter of port die `k` (R475). -/
def pdCtr (k ofs : Nat) : Nat := blockBase (4 + k) + ofs

/-- The per-core counters that a core reset clears: all but the scratchpad counters (R172, R428, R479). -/
def clearCoreCtrs (m : Sparse W64) (c : Nat) : Sparse W64 :=
  m.filter (fun e => decide (e.1 < coreCtr c 0 ∨ coreCtr c 0x100 ≤ e.1 ∨ (coreCtr c 0x38 ≤ e.1 ∧ e.1 ≤ coreCtr c 0x60)))

/-- The scratchpad counters of every core, cleared on entry to L3 (R172). -/
def clearSpCtrs (m : Sparse W64) (c : Nat) : Sparse W64 :=
  m.filter (fun e => decide (e.1 < coreCtr c 0x38 ∨ coreCtr c 0x60 < e.1))

/-! ### Event records (R482 to R484) -/

/-- A record before delivery, with nothing concerned. -/
def mkRec (block : Nat) (k : Kind) (c : Code) : EventRec :=
  { evseq := 0, code := c, kind := k, block := block, lost := 0, repeats := 0, core := 0x1FFF, engine := 7, sid := 0,
    stepSeq := 0, pat := 0xFF, detail := 0 }

/-- Drop the newest record of KIND EVENT, if there is one (R483). -/
def dropNewestEvent : List EventRec → Option (List EventRec)
  | [] => none
  | r :: rs =>
    match dropNewestEvent rs with
    | some rs' => some (r :: rs')
    | none => if r.kind = .event then some rs else none

/-- A block's buffer takes a record: at most 16 wait; a fault or rejection displaces the newest EVENT (R483). -/
def EvBuf.push (b : EvBuf) (r : EventRec) : EvBuf :=
  if b.recs.length < 16 then { b with recs := b.recs ++ [r] } else
  if r.kind = .faulted ∨ r.kind = .rejected then
    match dropNewestEvent b.recs with
    | some rs => { b with recs := rs ++ [r], lost := b.lost + 1 }
    | none => { b with lost := b.lost + 1 }
  else { b with lost := b.lost + 1 }

/-- An occurrence at a block: EVENT and REFUSED records are folded by window, others never (R484). -/
def EvBuf.occur (b : EvBuf) (r : EventRec) : EvBuf :=
  if r.kind = .faulted ∨ r.kind = .rejected then b.push r else
  match Sparse.get none b.wins (codeValue r.code) with
  | none => { b.push r with wins := Sparse.set none b.wins (codeValue r.code) (some { count := 0, last := r }) }
  | some w => { b with wins := Sparse.set none b.wins (codeValue r.code) (some { count := w.count + 1, last := r }) }

/-- The event buffer of a block. -/
def State.buf (s : State) (b : Nat) : EvBuf := Sparse.get EvBuf.init s.log.bufs b

/-- Put a block's event buffer back. -/
def State.setBuf (s : State) (b : Nat) (x : EvBuf) : State :=
  { s with log := { s.log with bufs := Sparse.set EvBuf.init s.log.bufs b x } }

/-- Record an occurrence at its block. -/
def State.logRec (s : State) (r : EventRec) : State := s.setBuf r.block ((s.buf r.block).occur r)

/-- Record an event with a detail field. -/
def State.event (s : State) (block : Nat) (c : Code) (detail : Nat) : State :=
  s.logRec { mkRec block .event c with detail := BitVec.ofNat 256 detail }

/-- Record a refusal with a detail field. -/
def State.refusal (s : State) (block : Nat) (c : Code) (detail : Nat) : State :=
  s.logRec { mkRec block .refused c with detail := BitVec.ofNat 256 detail }

/-! ### Semaphores (R60, R61) -/

/-- The value of semaphore `i`. -/
def Core.sem (k : Core) (i : Fin 64) : Nat := (k.sems.get i).toNat

/-- Set a semaphore. -/
def Core.setSem (k : Core) (i : Fin 64) (n : Nat) : Core := { k with sems := k.sems.set i.val (BitVec.ofNat 16 n) i.isLt }

/-- A register's value. -/
def Core.reg (k : Core) (r : Reg) : W64 := k.regs.get r

/-- Write a register. -/
def Core.setReg (k : Core) (r : Reg) (v : W64) : Core := { k with regs := k.regs.set r.val v r.isLt }

/-- The queues of engine `e + 1`. -/
def Core.queue (k : Core) (e : Fin 5) : EngineQ := k.queues.get e

/-- Put an engine's queues back. -/
def Core.setQueue (k : Core) (e : Fin 5) (q : EngineQ) : Core := { k with queues := k.queues.set e.val q e.isLt }

/-- A bank. -/
def Core.bank (k : Core) (b : Fin 2) : Bank := k.banks.get b

/-- Put a bank back. -/
def Core.setBank (k : Core) (b : Fin 2) (x : Bank) : Core := { k with banks := k.banks.set b.val x b.isLt }

/-- A receive queue. -/
def Core.recvq (k : Core) (q : Fin 8) : RecvQ := k.rq.get q

/-- Put a receive queue back. -/
def Core.setRecvq (k : Core) (q : Fin 8) (x : RecvQ) : Core := { k with rq := k.rq.set q.val x q.isLt }

/-! ### Critical values of streams and segments (R189, R286) -/

/-- Bits [191:128] of a stream-table entry, its stream keys (R286, R287). -/
def Stream.keyBits (x : Stream) : BitVec 64 :=
  BitVec.ofNat 64 (x.ptVault % 2 ^ 13 + x.ptFrame % 2 ^ 14 * 2 ^ 13 + x.kdie.val * 2 ^ 27 + x.pki % 2 ^ 16 * 2 ^ 32
    + x.rkh % 2 ^ 16 * 2 ^ 48)

/-- Does KEY_N agree with the stream keys (R287)? -/
def Stream.keyOk (x : Stream) : Bool := decide (x.keyN = ~~~x.keyBits)

/-- An entry whose stream keys were written: KEY_N follows. -/
def Stream.seal (x : Stream) : Stream := { x with keyN := ~~~x.keyBits }

/-- The code of a stream's STATE (R286). -/
def StreamState.code : StreamState → Nat
  | .free => 0 | .ready => 1 | .stepping => 2 | .commit => 3 | .ending => 4 | .replay => 5 | .parked => 6

/-- The 64 bytes of a stream-table entry or of a parked record, as one number (R286). -/
def Stream.bits (x : Stream) : Nat :=
  x.sid.toNat + x.pat % 2 ^ 6 * 2 ^ 32 + x.sclass.val * 2 ^ 40 + x.st.code * 2 ^ 44 + x.pos % 2 ^ 21 * 2 ^ 48
    + x.plen % 2 ^ 22 * 2 ^ 72 + x.limit % 2 ^ 22 * 2 ^ 96 + x.port.val * 2 ^ 118 + x.keyBits.toNat * 2 ^ 128
    + x.keyN.toNat * 2 ^ 192 + x.conn.toNat * 2 ^ 256 + x.aseq.toNat * 2 ^ 288 + x.lzBase % 2 ^ 23 * 2 ^ 320
    + x.lzLen % 2 ^ 15 * 2 ^ 352

/-- The critical values of a segment-table entry: its length and the root of its page list, by frame (R189). -/
def Segment.critical (g : Segment) : Nat := g.length % 2 ^ 64 + g.lists.headD 0 * 2 ^ 64

/-- Do both agree with their complements? -/
def Segment.pairOk (g : Segment) : Bool := compl 128 g.critical g.pairN

/-- An entry whose critical values were written: the complement follows. -/
def Segment.seal (g : Segment) : Segment := { g with pairN := 2 ^ 128 - 1 - g.critical }

/-! ### Taking a core fault (R87) -/

/-- The vaults whose NMUs hold a registered counter of Pattern `p`, which receive orphan notices (R225). -/
def noticeVaults (s : State) (p : Nat) : List Nat :=
  (s.vaults.filter (fun e => e.2.ctrs.any (fun r => decide (r.pat = p)))).map (·.1)

/-- Release a core's locks and send its orphan notices (R225, R229): one message for each lock in the table, which
is then emptied, and one notice for each NMU that holds a counter of the core's Pattern. Both are noted with that Pattern, which the
core may have left when they arrive. -/
def releaseCore (s : State) (c : Nat) : State :=
  let k := s.core c
  let pi := k.pat.getD 64
  let vs := match k.pat with | none => [] | some p => noticeVaults s p
  let s1 := s.setCore c { k with locks := [] }
  let s2 := s1.emits (k.locks.map (fun l => .lockRelease c l.1 l.2) ++ vs.map (fun v => .orphanNotice v c))
  { s2 with helm := { s2.helm with acks := s2.helm.acks ++ vs.map (fun v => (v, c, pi)),
                                   frees := s2.helm.frees ++ k.locks.map (fun l => (c, l.1, l.2, pi)) } }

/-- What each engine keeps when its core stops: nothing is queued or in progress, both banks are EMPTY, the
weight-stationary hold is invalid (R87, R111). -/
def Core.quiet (k : Core) : Core :=
  { k with queues := Vector.replicate 5 EngineQ.reset, banks := Vector.replicate 2 Bank.reset, bhold := none,
           wait := .none, connWait := none }

/-- The DETAIL field of a core's FAULTED or REJECTED record (R485). -/
def coreDetail (word : CmdWord) (pos ring slot x52 x56 : Nat) : BitVec 256 :=
  BitVec.ofNat 256 (word.toNat + pos % 65536 * 2 ^ 128 + ring % 256 * 2 ^ 144 + slot % 256 * 2 ^ 152
    + x52 % 65536 * 2 ^ 160 + x56 % 2 ^ 64 * 2 ^ 192)

/-- The event record of a core's fault (R482, R485). -/
def coreRec (k : Core) (c eng : Nat) (kind : Kind) (code : Code) (detail : BitVec 256) : EventRec :=
  { mkRec (dieBlock (dieOfCore c)) kind code with
    core := c, engine := eng, stepSeq := BitVec.ofNat 32 (k.reg 15).toNat,
    pat := match k.pat with | none => 0xFF | some p => p, detail := detail }

/-- A core is faulted, or stopped by a rejection (R87): its fault record is captured, it enters STOPPED, its engines
end, its translation caches are emptied (R192, R208), its locks are released and the record goes to the event log. A further fault before reset only adds one to
FAULT_LOST. -/
def coreFault (s : State) (c eng : Nat) (kind : Kind) (code : Code) (pos : Nat) (word : CmdWord) (detail : BitVec 256) :
    State :=
  let k := s.core c
  if k.st = .stopped then s.bump32 (coreCtr c 0xE8) 1 else
  let fr : FaultRec := { core := c, engine := eng, kind := kind, code := code, pos := pos, word := word, regs := k.regs,
                         sems := k.sems, extra := detail }
  let s1 := s.setCore c { k.quiet with st := .stopped, fault := some fr, xlate := [], nmuXlate := [] }
  (releaseCore s1 c).logRec (coreRec k c eng kind code detail)

/-- A fault or rejection of a command word at a position, with nothing more to say. -/
def cmdFault (s : State) (c eng : Nat) (kind : Kind) (code : Code) (pos : Nat) (word : CmdWord) : State :=
  coreFault s c eng kind code pos word (coreDetail word pos 0xFF 0xFF 0 0)

/-- An increment of a semaphore by an engine: past 65,535 it keeps its value and the core is faulted with
SEM_OVERFLOW (R60). -/
def raiseSem (s : State) (c eng : Nat) (i : Fin 64) (n pos : Nat) (word : CmdWord) : State :=
  let k := s.core c
  if k.sem i + n ≤ 65535 then s.setCore c (k.setSem i (k.sem i + n))
  else cmdFault s c eng .faulted .semOverflow pos word

end Sys2Proof.Machine
end

