-- ==== Sys2Proof/Machine/WireWords.lean ====
section
/-! DEFINITION. Headers and payloads as they lie on the wire, read and built field by field: the Nelzan frame header and handshake
(R338, R342), the request-protocol header and the request preamble (R369, R370), the headers of an opened request (R379, R424), and the
payloads of KEY_INSTALL and COLL_FORM (R347, R407). -/

namespace Sys2Proof

open Machine

/-! ### The Nelzan frame header (R338) -/

/-- Frame types. -/
def ftData : Nat := 0
def ftAck : Nat := 1
def ftNak : Nat := 2
def ftCredit : Nat := 3
def ftHandshake : Nat := 4

/-- A header of the fields given. -/
def nzBits (seq ack : BitVec 16) (vc ftype len cvc ccnt : Nat) (txcnt : BitVec 40) : BitVec 128 :=
  BitVec.ofNat 128 (seq.toNat + ack.toNat * 2 ^ 16 + vc % 32 * 2 ^ 32 + ftype % 16 * 2 ^ 40 + len % 2 ^ 13 * 2 ^ 48
    + cvc % 32 * 2 ^ 64 + ccnt % 2 ^ 12 * 2 ^ 72 + txcnt.toNat * 2 ^ 88)

/-- The fields of a received header. -/
def NzHeader.seq (h : NzHeader) : BitVec 16 := BitVec.ofNat 16 (bitsOf h.bits.toNat 0 16)
def NzHeader.ack (h : NzHeader) : BitVec 16 := BitVec.ofNat 16 (bitsOf h.bits.toNat 16 16)
def NzHeader.vc (h : NzHeader) : Nat := bitsOf h.bits.toNat 32 5
def NzHeader.ftype (h : NzHeader) : Nat := bitsOf h.bits.toNat 40 4
def NzHeader.len (h : NzHeader) : Nat := bitsOf h.bits.toNat 48 13
def NzHeader.cvc (h : NzHeader) : Nat := bitsOf h.bits.toNat 64 5
def NzHeader.ccnt (h : NzHeader) : Nat := bitsOf h.bits.toNat 72 12
def NzHeader.txcnt (h : NzHeader) : BitVec 40 := BitVec.ofNat 40 (bitsOf h.bits.toNat 88 40)

/-- Is a header one of type `ft`, with no reserved bit or encoding set and a length that a frame can have? -/
def NzHeader.fits (h : NzHeader) (ft : Nat) : Bool :=
  let n := h.bits.toNat
  decide (h.ftype = ft ∧ h.vc ≤ 17 ∧ h.cvc ≤ 17 ∧ h.len ≤ 4096)
    && decide (bitsOf n 37 3 = 0 ∧ bitsOf n 44 4 = 0 ∧ bitsOf n 61 3 = 0 ∧ bitsOf n 69 3 = 0 ∧ bitsOf n 84 4 = 0)

/-- The GCM nonce: a direction bit, then TXCNT, with zeros above (R339). -/
def nzNonce (dir : Bool) (txcnt : BitVec 40) : BitVec 96 := BitVec.ofNat 96 (b2n dir * 2 ^ 40 + txcnt.toNat)

/-! ### The handshake payload (R342) -/

/-- What a side says of itself in a handshake. -/
def shakeBits (rev : Nat) (prev : Bool) (arith node slot linkNo : Nat) (routed : Bool) (groups : Nat) (eph : BitVec 256)
    (nonce : BitVec 128) : BitVec 640 :=
  BitVec.ofNat 640 (0x4E5A4C4B + rev % 256 * 2 ^ 32 + b2n prev * 2 ^ 40 + arith % 256 * 2 ^ 48 + 0x9032 * 2 ^ 64
    + node % 2 ^ 32 * 2 ^ 96 + slot % 8 * 2 ^ 128 + linkNo % 8 * 2 ^ 131 + b2n routed * 2 ^ 134 + groups % 2 ^ 16 * 2 ^ 160
    + eph.toNat * 2 ^ 256 + nonce.toNat * 2 ^ 512)

/-- The fields of a received payload. -/
def Handshake.linkRev (h : Handshake) : Nat := bitsOf h.payload.toNat 32 8
def Handshake.linkPrev (h : Handshake) : Bool := bitOf h.payload.toNat 40
def Handshake.arithRev (h : Handshake) : Nat := bitsOf h.payload.toNat 48 8
def Handshake.node (h : Handshake) : Nat := bitsOf h.payload.toNat 96 32
def Handshake.slot (h : Handshake) : Nat := bitsOf h.payload.toNat 128 3
def Handshake.linkNo (h : Handshake) : Nat := bitsOf h.payload.toNat 131 3
def Handshake.routed (h : Handshake) : Bool := bitOf h.payload.toNat 134
def Handshake.groups (h : Handshake) : Nat := bitsOf h.payload.toNat 160 16
def Handshake.eph (h : Handshake) : BitVec 256 := BitVec.ofNat 256 (bitsOf h.payload.toNat 256 256)
def Handshake.nonce (h : Handshake) : BitVec 128 := BitVec.ofNat 128 (bitsOf h.payload.toNat 512 128)

/-- Are MAGIC and MEMBER as R342 gives them, and the reserved bits zero? -/
def Handshake.sound (h : Handshake) : Bool :=
  let n := h.payload.toNat
  decide (bitsOf n 0 32 = 0x4E5A4C4B ∧ bitsOf n 64 16 = 0x9032)
    && decide (bitsOf n 41 7 = 0 ∧ bitsOf n 56 8 = 0 ∧ bitsOf n 80 16 = 0 ∧ bitsOf n 135 25 = 0 ∧ bitsOf n 176 80 = 0)

/-! ### The request-protocol header (R369) -/

/-- Packet types. -/
def ptRq : Nat := 0
def ptRqack : Nat := 1
def ptRs : Nat := 2
def ptRsack : Nat := 3
def ptCancel : Nat := 4

/-- A header of the fields given, of version 1. -/
def rqpBits (ptype : Nat) (first last : Bool) (len : Nat) (conn : BitVec 32) (seq offset aux : Nat) (sack : BitVec 64) (win : Nat) :
    BitVec 256 :=
  BitVec.ofNat 256 (1 + ptype % 16 * 2 ^ 4 + b2n first * 2 ^ 8 + b2n last * 2 ^ 9 + len % 2 ^ 16 * 2 ^ 16 + conn.toNat * 2 ^ 32
    + seq % 2 ^ 32 * 2 ^ 64 + offset % 2 ^ 32 * 2 ^ 96 + aux % 2 ^ 32 * 2 ^ 128 + sack.toNat * 2 ^ 160 + win % 2 ^ 16 * 2 ^ 224)

/-- Does a client's header pass check 5 of R383, for a UDP length of `n` bytes? -/
def rqpFits (h : BitVec 256) (n : Nat) : Bool :=
  let b := h.toNat
  let pt := bitsOf b 4 4
  let len := bitsOf b 16 16
  decide (bitsOf b 0 4 = 1 ∧ (pt = ptRq ∨ pt = ptRsack ∨ pt = ptCancel) ∧ bitsOf b 10 6 = 0 ∧ bitsOf b 240 16 = 0)
    && decide (len + 40 = n ∧ len ≤ 8192 ∧ (len = 0 ∨ pt = ptRq))

/-- The fields of an RQ segment's header. -/
def RqSegment.seq (r : RqSegment) : Nat := bitsOf r.hdr.toNat 64 32
def RqSegment.offset (r : RqSegment) : Nat := bitsOf r.hdr.toNat 96 32
def RqSegment.first (r : RqSegment) : Bool := bitOf r.hdr.toNat 8
def RqSegment.last (r : RqSegment) : Bool := bitOf r.hdr.toNat 9

/-- Is a segment's header an RQ of its connection that passes check 5? -/
def RqSegment.fits (r : RqSegment) : Bool :=
  rqpFits r.hdr (r.payload.length + 40) && decide (bitsOf r.hdr.toNat 4 4 = ptRq ∧ bitsOf r.hdr.toNat 32 32 = r.key.conn.toNat)

/-! ### The request preamble (R370) -/

/-- The preamble at the front of a FIRST segment's payload; none where the payload does not hold it whole. -/
def preambleOf (b : List Byte) : Option Preamble :=
  let n := ofBytes (b.take 48)
  let mode := bitsOf n 0 8
  if b.length < 48 ∨ (mode = 1 ∧ b.length < 1136) then none else
  some { hybrid := decide (mode = 1), keyid := bitsOf n 16 16, dslot := bitsOf n 32 3, fwd := bitOf n 35, clen := bitsOf n 64 32,
         enc := BitVec.ofNat 256 (bitsOf n 128 256),
         ct := if mode = 1 then BitVec.ofNat 8704 (ofBytes ((b.drop 48).take 1088)) else 0,
         ok := decide (mode ≤ 1 ∧ bitsOf n 8 8 = 0 ∧ bitsOf n 36 28 = 0 ∧ bitsOf n 96 32 = 0) }

/-- The bytes of a preamble. -/
def Preamble.bytes (p : Preamble) : List Byte :=
  toBytes 48 (b2n p.hybrid + p.keyid % 2 ^ 16 * 2 ^ 16 + p.dslot % 8 * 2 ^ 32 + b2n p.fwd * 2 ^ 35 + p.clen % 2 ^ 32 * 2 ^ 64
    + p.enc.toNat * 2 ^ 128) ++ (if p.hybrid then toBytes 1088 p.ct.toNat else [])

/-! ### The header of an opened request (R379, R424) -/

/-- The first 64 B of a plaintext. -/
def plainHead (b : List Byte) : BitVec 512 := BitVec.ofNat 512 (ofBytes (b.take 64))

/-- The inner header of a stream's request (R379). -/
def innerOf (w : BitVec 512) : InnerHeader :=
  let n := w.toNat
  { pattern := BitVec.ofNat 384 (bitsOf n 0 384), plen := bitsOf n 384 32, limit := bitsOf n 416 32,
    sclass := ⟨bitsOf n 448 4 % 16, Nat.mod_lt _ (by decide)⟩ }

/-- The inner header that a REQ item carries. -/
def Machine.ReqItem.inner (i : ReqItem) : InnerHeader := innerOf i.head

/-- The load header of a load request (R424). -/
def loadHeadOf (w : BitVec 512) : LoadHeader :=
  let n := w.toNat
  { phash := BitVec.ofNat 384 (bitsOf n 0 384), part := bitsOf n 384 16, npart := bitsOf n 400 16, seg := bitsOf n 416 8,
    offset := bitsOf n 448 64 }

/-! ### Payloads of sealed commands (R347, R407) -/

/-- The plaintext of KEY_INSTALL (R407). -/
def keyPayloadOf (w : BitVec 896) : KeyPayload :=
  let n := w.toNat
  { keyid := bitsOf n 0 16, pki := bitsOf n 16 16, hybrid := bitOf n 32, reservedOk := decide (bitsOf n 33 95 = 0),
    x25519 := BitVec.ofNat 256 (bitsOf n 128 256), mlkem := BitVec.ofNat 512 (bitsOf n 384 512) }

/-- A layer entry and a roster entry (R347). -/
def layerEntOf (w : BitVec 64) : LayerEnt :=
  { firstBlk := bitsOf w.toNat 0 20, nBlk := bitsOf w.toNat 20 20, nCore := bitsOf w.toNat 40 13 }
def rosterEntOf (w : BitVec 256) : RosterEnt :=
  { node := bitsOf w.toNat 0 32, slot := bitsOf w.toNat 32 3, addr := BitVec.ofNat 128 (bitsOf w.toNat 128 128) }

/-- Are the reserved bits of a group record and of its entries zero (R347)? -/
def GroupWords.reservedOk (g : GroupWords) : Bool :=
  let n := g.head.toNat
  decide (bitsOf n 13 3 = 0 ∧ bitsOf n 29 3 = 0 ∧ bitsOf n 70 2 = 0 ∧ bitsOf n 77 3 = 0 ∧ bitsOf n 85 3 = 0 ∧ bitsOf n 140 4 = 0
      ∧ bitsOf n 232 24 = 0)
    && g.layers.all (fun w => decide (bitsOf w.toNat 53 11 = 0)) && g.roster.all (fun w => decide (bitsOf w.toNat 35 93 = 0))

/-- The group that the payload of COLL_FORM describes (R347). -/
def groupRecOf (g : GroupWords) : GroupRec :=
  let n := g.head.toNat
  { gid := ⟨bitsOf n 0 4 % 16, Nat.mod_lt _ (by decide)⟩, pat := bitsOf n 4 6, rmode := bitOf n 10, rule := bitsOf n 11 2,
    beta := bitsOf n 32 16, lr := bitsOf n 48 16, lrsh := bitsOf n 64 6, dlLog2 := bitsOf n 72 5, mcLog2 := bitsOf n 80 5,
    mcCred := bitsOf n 88 8, ev := signed 8 (bitsOf n 96 8), ew := signed 8 (bitsOf n 104 8), tseg := bitsOf n 112 8,
    cseg := bitsOf n 120 8, sseg := bitsOf n 128 8, retype := bitsOf n 136 4, nelem := bitsOf n 144 32, tofs := bitsOf n 176 16,
    cofs := bitsOf n 192 16, sofs := bitsOf n 208 16, layers := g.layers.map layerEntOf, roster := g.roster.map rosterEntOf,
    reservedOk := g.reservedOk }

end Sys2Proof
end

