-- ==== Sys2Proof/Machine/LinkOps.lean ====
section
/-! DEFINITION. Transmission through an Ethernet port (R367, R368), Nelzan links by name, their counters, and the sending of frames
(R336, R338 to R340, R342, R345, R346, R366). -/

namespace Sys2Proof.Machine

/-- The port die of an Ethernet port or of a direct link (R336). -/
def pdOf (port : Fin 8) : Fin 4 := ⟨port.val / 2, by omega⟩

/-! ### Links by name -/

/-- A link of this module, direct or routed. -/
def State.link (s : State) (i : LinkId) : Option Link :=
  match i with
  | .direct l => some (s.links.get l)
  | _ => (s.routed.find? (fun e => decide (e.1 = i))).map (·.2)

/-- Put a link back. -/
def State.setLink (s : State) (i : LinkId) (x : Link) : State :=
  match i with
  | .direct l => { s with links := s.links.set l.val x l.isLt }
  | _ => { s with routed := if s.routed.any (fun e => decide (e.1 = i)) then
             s.routed.map (fun e => if e.1 = i then (i, x) else e) else s.routed ++ [(i, x)] }

/-- The port die that serves a link (R336, R346). -/
def pdOfLink : LinkId → Fin 4
  | .direct l => pdOf l
  | .routed k _ _ => k

/-- The counters of a link (R366, R475): frames sent, NAKs received, retrains. -/
def txCtr : LinkId → Nat
  | .direct l => linkCtr l.val 0
  | .routed k _ _ => pdCtr k.val 0x1280
def nakCtr : LinkId → Nat
  | .direct l => linkCtr l.val 8
  | .routed k _ _ => pdCtr k.val 0x1288
def retrainCtr : LinkId → Nat
  | .direct l => linkCtr l.val 0x10
  | .routed k _ _ => pdCtr k.val 0x1290

/-- Is a link the routed kind? -/
def isRouted : LinkId → Bool
  | .direct _ => false
  | .routed _ _ _ => true

/-- The DETAIL of a link or collective event (R485). -/
def linkDetail (i : LinkId) (node slot rev arith gid cstep : Nat) : Nat :=
  (match i with | .direct l => l.val | .routed _ _ _ => 8) + node % 2 ^ 32 * 2 ^ 32 + slot % 256 * 2 ^ 64 + rev % 256 * 2 ^ 72
    + arith % 256 * 2 ^ 80 + gid % 256 * 2 ^ 96 + cstep % 2 ^ 32 * 2 ^ 128

/-! ### Ethernet ports (R367, R368) -/

/-- Is an Ethernet port up? -/
def State.ethUp (s : State) (p : Fin 8) : Bool := (s.ports.get p).up

/-- Put a port back. -/
def State.setPort (s : State) (p : Fin 8) (x : EthPort) : State := { s with ports := s.ports.set p.val x p.isLt }

/-- Does a PAUSE, or a PFC pause of the priority of the frames sent, hold a port's transmission (R367)? They go out on priority 0
(log 95). -/
def EthPort.held (x : EthPort) : Bool := x.pausedAll || x.paused.getLsbD 0

/-- Send through a port: held while it is paused, lost while it is down (R367, R384). -/
def State.transmit (s : State) (p : Fin 8) (e : Emit) : State :=
  let x := s.ports.get p
  if x.up = false then s else if x.held then s.setPort p { x with txq := x.txq ++ [e] } else s.emit e

/-- Send several, in order. -/
def State.transmits (s : State) (p : Fin 8) (es : List Emit) : State := es.foldl (fun s e => s.transmit p e) s

/-- Is a destination on the port's own link: within the prefix of its address, or link-local (R368)? -/
def onLink (a : PortAddr) (v6 : Bool) (d : BitVec 128) : Bool :=
  if v6 then decide (d.toNat / 2 ^ (128 - a.pfx6) = a.ipv6.toNat / 2 ^ (128 - a.pfx6) ∨ d.toNat / 2 ^ 118 = 0x3FA)
  else decide (d.toNat / 2 ^ (32 - a.pfx4) = a.ipv4.toNat / 2 ^ (32 - a.pfx4))

/-- The IP packet in which a message of service class `cls` goes to an address and a UDP port (R368): a value below 2^32 is an IPv4
address. -/
def State.netTo (s : State) (p : Fin 8) (d : BitVec 128) (udp cls : Nat) : NetHeader :=
  let x := s.ports.get p
  let v6 := decide (2 ^ 32 ≤ d.toNat)
  let hop := if onLink x.addr v6 d then d else if v6 then x.addr.gw6 else x.addr.gw4.setWidth 128
  { port := p, v6 := v6, dst := d, udp := udp, hop := hop,
    mac := if v6 then (x.nbr.find? (fun e => decide (e.1 = hop))).map (·.2)
      else (x.arp.find? (fun e => decide (e.1 = hop.setWidth 32))).map (·.2),
    dscp := bitsOf x.addr.dscp.toNat (6 * cls) 6, ecn := 0, df := !v6 }

/-- The configuration record in force. -/
def State.config (s : State) : Option ConfigRec := s.chart.map (·.config)

/-- Own node and slot (R342). -/
def State.node (s : State) : Nat := match s.config with | none => 0 | some c => c.nodeId
def State.slotNo (s : State) : Nat := match s.config with | none => 0 | some c => c.slot

/-! ### Building frames (R338, R339, R346) -/

/-- The address of a module in the rosters of the groups configured (R347). -/
def State.rosterAddr (s : State) (node slot : Nat) : Option (BitVec 128) :=
  s.groups.findSome? (fun e => e.2.bind (fun g =>
    (g.cfg.roster.find? (fun m => decide (m.node = node ∧ m.slot = slot))).map (·.addr)))

/-- The Ethernet port that carries a port die's routed links (R346, log 95). -/
def routedPort (k : Fin 4) : Fin 8 := ⟨2 * k.val, by omega⟩

/-- The datagram of a routed link's frame: UDP port 47,302 at the roster's address (R346, R367). -/
def linkNet (s : State) : LinkId → Option NetHeader
  | .direct _ => none
  | .routed k node slot => some (s.netTo (routedPort k) ((s.rosterAddr node slot).getD 0) 47302 0)

/-- Put frames, and the messages that are whole with them, on the wire of a link. -/
def wireOut (s : State) (i : LinkId) (es : List Emit) : State :=
  match i with
  | .direct _ => s.emits es
  | .routed k _ _ => s.transmits (routedPort k) es

/-- The credit that the next frame returns: its channel and its words (R340). -/
def Link.giving (x : Link) : Nat × Nat := match x.owed with | [] => (0, 0) | e :: _ => (e.1, min 4095 e.2)

/-- The header of the next frame (R338). -/
def Link.header (x : Link) (seq : BitVec 16) (vc ftype len : Nat) : BitVec 128 :=
  nzBits seq x.rxSeq vc ftype len x.giving.1 x.giving.2 x.txcnt

/-- The link once that frame has gone: TXCNT has risen, and the credit has been returned. -/
def Link.spent (x : Link) : Link :=
  { x with txcnt := x.txcnt + 1, owed := Sparse.set 0 x.owed x.giving.1 (Sparse.get 0 x.owed x.giving.1 - x.giving.2) }

/-- Send a frame with the header that is due: it is counted, TXCNT rises, and its payload's messages follow it. -/
def nzOut (s : State) (i : LinkId) (x : Link) (seq : BitVec 16) (vc ftype len : Nat) (msg : Option Emit) : State :=
  wireOut ((s.setLink i x.spent).bump (txCtr i) 1) i
    (.nzFrame i (x.header seq vc ftype len) (nzNonce (!x.low) x.txcnt) (linkNet s i) :: msg.toList)

/-- Send a frame that carries no data, under the SEQ that the next DATA frame will have (log 40): an ACK, a NAK or a CREDIT. -/
def sendControl (s : State) (i : LinkId) (x : Link) (ftype : Nat) : State := nzOut s i x x.txSeq 0 ftype 0 none

/-! ### Sending (R339, R340) -/

/-- Credit words of a payload. -/
def frameWords (len : Nat) : Nat := ceilDiv len 64

/-- Credit of a channel: 512 words are its buffer of 32 KiB; the map holds what has been spent. -/
def Link.credit (x : Link) (vc : Nat) : Nat := 512 - Sparse.get 0 x.credits vc

/-- Bytes that a frame takes of the replay buffer: header, payload and trailer (R338). -/
def frameSize (len : Nat) : Nat := len + 32

/-- Bytes in the replay buffer. -/
def Link.held (x : Link) : Nat := (x.replay.map (fun f => frameSize f.2.len)).foldl (· + ·) 0

/-- May a frame be sent now: is there credit on its channel, and room in the 256 KiB replay buffer? -/
def Link.canSend (x : Link) (f : NzFrame) : Bool :=
  decide (frameWords f.len ≤ x.credit f.vc) && decide (x.held + frameSize f.len ≤ 262144)

/-- The first waiting frame that may be sent: on each channel only the oldest, and a full channel does not block another (R345). -/
def Link.nextFrame (x : Link) : List Nat → List NzFrame → Option NzFrame
  | _, [] => none
  | full, f :: l =>
    if f.vc ∈ full then x.nextFrame full l
    else if x.canSend f then some f else x.nextFrame (f.vc :: full) l

/-- Send a DATA frame. -/
def sendFrame (s : State) (i : LinkId) (x : Link) (f : NzFrame) : State :=
  let x' := { x with txSeq := x.txSeq + 1, replay := x.replay ++ [(x.txSeq, f)],
                     credits := Sparse.set 0 x.credits f.vc (Sparse.get 0 x.credits f.vc + frameWords f.len) }
  nzOut s i x' x.txSeq f.vc ftData f.len f.msg

/-- Send the waiting frames that may be sent, in order. -/
def pump (i : LinkId) : Nat → State → State
  | 0, s => s
  | n + 1, s =>
    match s.link i with
    | none => s
    | some x =>
      if x.st ≠ .up then s else
      match x.nextFrame [] x.waiting with
      | none => s
      | some f => pump i n (sendFrame s i { x with waiting := x.waiting.erase f } f)

/-- Send as much of a link's waiting frames as possible. -/
def pumpAll (s : State) (i : LinkId) : State :=
  match s.link i with
  | none => s
  | some x => pump i x.waiting.length s

/-- The frames of a message of `n` bytes on a channel, of at most 4,096 B each; it is whole with the last. -/
def framesOf (vc n : Nat) (e : Emit) : List NzFrame :=
  let k := ceilDiv n 4096
  (List.range k).map (fun j => { vc := vc, len := min 4096 (n - 4096 * j), msg := if j + 1 = k then some e else none })

/-- Send a message of `n` bytes on a channel of a link. -/
def sendBytes (s : State) (i : LinkId) (vc n : Nat) (e : Emit) : State :=
  match s.link i with
  | none => s
  | some x => pumpAll (s.setLink i { x with waiting := x.waiting ++ framesOf vc n e }) i

/-- Send a HANDSHAKE, with a report that the active Lodestar signs for it (R342, R398, R400), and wait for the peer's in state `st`. -/
def sendHandshake (s : State) (i : LinkId) (st : LinkState) : State :=
  match s.link i, s.config with
  | some x, some c =>
    let sec := Config.linkSecret s.drawn
    let no := match i with | .direct l => l.val | .routed _ _ _ => 0
    let groups := (s.groups.map (fun e => 2 ^ e.1)).foldl (· + ·) 0
    let pay := shakeBits c.linkRev c.linkPrev c.arithRev c.nodeId c.slot no (isRouted i) groups (Config.x25519Public sec)
      (Config.linkNonce s.drawn)
    let y := { x with st := st, mine := pay, secret := sec }
    let s1 := { s with drawn := s.drawn + 1, lode := { s.lode with rseq := s.lode.rseq + 1 } }
    wireOut ((s1.setLink i y.spent).bump (txCtr i) 1) i [.nzHandshake i (y.header y.txSeq 0 ftHandshake 80) pay (linkNet s i)]
  | _, _ => s

end Sys2Proof.Machine
end

