-- ==== Sys2Proof/Machine/Status.lean ====
section
/-! DEFINITION. Sensors' maxima, the status words of the global block, and interrupts (R423, R437, R454, R455, R469, R470,
R500, R504). -/

namespace Sys2Proof.Machine

/-! ### Sensors (R469, R504) -/

/-- The number under which a sensor is kept. -/
def sensorKey : SensorId → Nat
  | .dieJunction d k => d * 8 + k.val
  | .layer d k => 192 + d * 16 + k.val
  | .other d k => 576 + d * 2 + k.val
  | .outlet => 592

/-- A sensor. -/
def State.sensor (s : State) (i : SensorId) : Sensor := Sparse.get Sensor.init s.power.sensors (sensorKey i)

/-- The last accepted readings of those of some sensors that have not failed. -/
def readings (s : State) (l : List SensorId) : List Int :=
  l.filterMap (fun i => if (s.sensor i).failed then none else (s.sensor i).last)

/-- The greatest of some readings. -/
def hottest : List Int → Option Int
  | [] => none
  | a :: l => match hottest l with | none => some a | some b => some (max a b)

/-- Numbers 0 to `n` − 1 as `Fin`s. -/
def fins (n : Nat) : List (Fin n) := List.finRange n

/-- The junction sensors of a compute die, and the layer sensors of its stack. -/
def junctionsOf (d : Nat) : List SensorId := (fins 8).map (SensorId.dieJunction d)
def layersOf (d : Nat) : List SensorId := (fins 16).map (SensorId.layer d)

/-- The junction sensors of the port, Helm and Lodestar dies. -/
def otherJunctions : List SensorId := (List.range 8).flatMap (fun d => (fins 2).map (SensorId.other d))

/-- TJ_MAX and TDRAM_MAX; zero before any reading. -/
def State.tjMax (s : State) : Int := (hottest (readings s ((List.range 24).flatMap junctionsOf ++ otherJunctions))).getD 0
def State.tdramMax (s : State) : Int := (hottest (readings s ((List.range 24).flatMap layersOf))).getD 0

/-- D_th of a compute die (R500). -/
def State.dTh (s : State) (d : Nat) : Nat := Sparse.get 16 s.power.dTh d

/-- THR_PWR, THR_THERM and REFRESH2X (R205, R500). -/
def State.thrPwr (s : State) : Bool := decide (s.power.dPwr < 16)
def State.thrTherm (s : State) : Bool := (List.range 24).any (fun d => decide (s.dTh d < 16))
def State.refresh2x (s : State) : Bool := s.power.refresh16.any (·.2)

/-! ### Status words -/

/-- Is a direct Nelzan link up? One that retrains or handshakes again has not gone down (R339, R341). -/
def State.nzUp (s : State) (l : Fin 8) : Bool :=
  let x := s.links.get l
  decide (x.st = .up ∨ x.st = .retraining ∨ x.st = .rekeying)

/-- GLB_HEALTH (R470). -/
def State.glbHealth (s : State) : Nat :=
  let out := ((List.range 24).filter (fun d => Sparse.get false s.helm.diesOut d)).length
  let down := (fins 8).any (fun p => !s.ethUp p || !s.nzUp p)
  b2n (!s.helm.absent.isEmpty) + b2n s.start.repairDiff * 2 + b2n (!(s.lode.activeOk && s.lode.standbyOk)) * 4
    + s.lode.active.val * 8 + b2n (decide (0 < out)) * 16 + b2n (s.thrPwr || s.thrTherm) * 32
    + b2n (s.start.linksDone && down) * 64 + b2n (decide (s.start.stage = 7 ∨ s.start.stage = 8)) * 128 + out * 2 ^ 16

/-- GLB_START (R423). -/
def State.glbStart (s : State) : Nat :=
  s.start.stage % 16 + s.start.image % 2 * 16 + b2n s.start.fallback * 32 + s.start.codeA % 256 * 2 ^ 8
    + s.start.codeB % 256 * 2 ^ 16 + s.start.failcode % 256 * 2 ^ 24

/-- GLB_PWR_STATE (R437). -/
def State.glbPwrState (s : State) : Nat :=
  s.pwr.state % 4 + b2n s.pwr.entering * 4 + b2n s.pwr.waking * 8 + s.pwr.l3parked % 2 ^ 19 * 2 ^ 8

/-- GLB_PWR_REQ (R437). -/
def State.glbPwrReq (s : State) : Nat :=
  s.pwr.pcap % 2 ^ 12 + s.pwr.lpmax % 4 * 2 ^ 12 + b2n s.pwr.park * 2 ^ 14 + s.pwr.l2idle % 256 * 2 ^ 16
    + s.pwr.l3idle % 256 * 2 ^ 24

/-- GLB_PIN (R469). -/
def State.glbPin (s : State) : Nat := s.power.vin % 2 ^ 10 + s.power.pin % 2 ^ 12 * 2 ^ 16

/-- GLB_THERM (R469). -/
def State.glbTherm (s : State) : Nat :=
  lowBits 8 s.tjMax + lowBits 8 s.tdramMax * 2 ^ 8 + b2n s.thrTherm * 2 ^ 16 + b2n s.thrPwr * 2 ^ 17 + b2n s.refresh2x * 2 ^ 18

/-- GLB_SITES (R469). -/
def State.glbSites (s : State) : Nat :=
  (s.helm.marks.filter (fun e => e.2.retired)).length
    + (s.helm.marks.filter (fun e => e.2.suspect && !e.2.retired)).length * 2 ^ 16

/-! ### Interrupts (R447, R454, R455) -/

/-- Is an MSI-X vector masked? The table holds the mask bits inverted, so that a reset table is masked (log 34). -/
def State.masked (s : State) (n : Nat) : Bool := !(Sparse.get 0 s.host.msixTable (4 * n + 3)).getLsbD 0

/-- May the function send a message now (R444)? -/
def State.mayMsi (s : State) (n : Nat) : Bool := !s.masked n && s.host.linkUp && !s.host.d3hot && !s.host.perst

/-- An event sets status bit `n`: SEQ rises by one; a bit that rises is signalled, or its pending bit is set (R455). -/
def raiseIrq (s : State) (n : Nat) : State :=
  let h := s.host
  let s1 := { s with host := { h with irqSeq := h.irqSeq + 1, irqBits := h.irqBits ||| BitVec.ofNat 16 (2 ^ n) } }
  if h.irqBits.getLsbD n then s1
  else if s.mayMsi n then s1.emit (.msix n)
  else { s1 with host := { s1.host with pba := s1.host.pba ||| BitVec.ofNat 32 (2 ^ n) } }

/-- Did Ethernet port or Nelzan link `p` go up or down? -/
def portChanged (s s' : State) (p : Fin 8) : Bool := s.ethUp p != s'.ethUp p || s.nzUp p != s'.nzUp p

/-- The interrupts that the changes from `s` to `s'` raise: HEALTH, STAGE, PWR_STATE and the ports (R454, R470). -/
def note (s s' : State) : State :=
  let s1 := if s.glbHealth = s'.glbHealth then s' else raiseIrq s' 4
  let s2 := if s.start.stage = s'.start.stage then s1 else raiseIrq s1 5
  let s3 := if s.glbPwrState = s'.glbPwrState then s2 else raiseIrq s2 6
  (fins 8).foldl (fun t p => if portChanged s s' p then raiseIrq t (8 + p.val) else t) s3

/-- A command's effect with the interrupts of what it changes. -/
def noted (s : State) (r : Host.Outcome State Fault Refusal) : Host.Outcome State Fault Refusal :=
  match r with
  | .next s' => .next (note s s')
  | .fault f => .fault f
  | .refused x => .refused x

end Sys2Proof.Machine
end

