-- ==== Sys2Proof/Machine/ImageWords.lean ====
section
/-! DEFINITION. The declarations of a Pattern image as the image holds them: the words of R163, R240, R254 and R264, read field by
field. -/

namespace Sys2Proof

open Machine

/-- The 16 B entry of a ring table (R163). -/
def ringDeclOf (w : BitVec 128) : RingDecl :=
  let n := w.toNat
  { base := bitsOf n 0 16, slotsz := bitsOf n 16 10, nslot := bitsOf n 32 7, prod := bitsOf n 40 3, cons := bitsOf n 44 3,
    uses := bitsOf n 48 8,
    reservedOk := decide (bitsOf n 26 6 = 0 ∧ bitsOf n 39 1 = 0 ∧ bitsOf n 43 1 = 0 ∧ bitsOf n 47 1 = 0 ∧ bitsOf n 56 72 = 0) }

/-- The 8 B declaration of a receive queue (R264). -/
def queueDeclOf (w : BitVec 64) : QueueDecl :=
  let n := w.toNat
  { depth := bitsOf n 0 11, grant := bitsOf n 16 11, cmode := bitOf n 27, thresh := bitsOf n 32 11,
    tsem := ⟨bitsOf n 44 6 % 64, Nat.mod_lt _ (by decide)⟩,
    reservedOk := decide (bitsOf n 11 5 = 0 ∧ bitsOf n 28 4 = 0 ∧ bitsOf n 43 1 = 0 ∧ bitsOf n 50 14 = 0) }

/-- The 16 B declaration of a segment (R254). -/
def segDeclOf (w : BitVec 128) : SegDecl :=
  let n := w.toNat
  { length := bitsOf n 0 40, rd := bitOf n 40, wr := bitOf n 41, pinned := bitOf n 42, pinix := bitsOf n 48 6,
    reservedOk := decide (bitsOf n 43 5 = 0 ∧ bitsOf n 54 74 = 0) }

/-- The 64 B declaration of a tensor (R240); a field of a dimension at or above the rank is reserved. -/
def tensorDeclOf (w : BitVec 512) : TensorDecl :=
  let n := w.toNat
  let rank := bitsOf n 24 2 + 1
  let dims (first width : Nat) : List Nat := (List.range rank).map (fun i => bitsOf n (first + width * i) width)
  let above : Bool := (List.range 4).all (fun i => decide (i < rank)
    || decide (bitsOf n (128 + 32 * i) 32 = 0 ∧ bitsOf n (256 + 32 * i) 32 = 0 ∧ bitsOf n (384 + 16 * i) 16 = 0))
  { seg := bitsOf n 0 8, etype := bitsOf n 16 4, form := bitsOf n 20 3, ovl := bitsOf n 32 16, offset := bitsOf n 64 64,
    ext := dims 128 32, pad := dims 256 32, tm := dims 384 16, alloc := bitsOf n 448 64,
    reservedOk := above && decide (bitsOf n 8 8 = 0 ∧ bitsOf n 23 1 = 0 ∧ bitsOf n 26 6 = 0 ∧ bitsOf n 48 16 = 0) }

/-- The declarations that a core's part of an image holds. -/
def CoreImage.rings (c : CoreImage) : List RingDecl := c.ringWords.map ringDeclOf
def CoreImage.queues (c : CoreImage) : List (Nat × QueueDecl) := c.queueWords.map (fun e => (e.1, queueDeclOf e.2))

/-- The declarations that a manifest holds. -/
def Manifest.segments (m : Manifest) : List SegDecl := m.segWords.map segDeclOf
def Manifest.tensors (m : Manifest) : List TensorDecl := m.tensorWords.map tensorDeclOf

/-- The first unit of the dispatch area (R253). -/
def PatParams.dispatchUnit (p : PatParams) : Nat := p.dispatchAddr / 64

end Sys2Proof
end

