-- ==== Sys2Proof/Machine/Queues.lean ====
section
/-! DEFINITION. Issue queues and semaphore waits (R61 to R64), and what the sequencer does next (R56, R71 to R73). -/

namespace Sys2Proof.Machine

/-! ### Engine queues (R62 to R64) -/

/-- The commands of an engine that have started and not completed. -/
def EngineQ.active (q : EngineQ) : Nat := (q.prog.filter (fun p => !p.done)).length

/-- Has engine `e + 1` a free place for its next command (R63)? The Matrix Engine's commands whose bank is in its
output stage leave it free for a command of the other bank (R99). -/
def Core.room (k : Core) (e : Fin 5) : Bool :=
  match e with
  | 0 => (k.queue 0).prog.all (fun p => p.done || p.output.isSome)
  | 1 => decide ((k.queue 1).active = 0)
  | 2 => decide ((k.queue 2).active < 4)
  | 3 => decide ((k.queue 3).active < 4)
  | _ => decide ((k.queue 4).active = 0)

/-- Has every command issued to engine `e + 1` completed? -/
def Core.drainedEng (k : Core) (e : Fin 5) : Bool := (k.queue e).issue.isEmpty && (k.queue e).prog.isEmpty

/-- Has every command issued to each engine selected by a FENCE mask completed (R75)? -/
def Core.drained (k : Core) (mask : BitVec 5) : Bool :=
  [0, 1, 2, 3, 4].all (fun e : Fin 5 => !mask.getLsbD e.val || k.drainedEng e)

/-- One try of the semaphore wait of the command at the head of engine `e + 1`'s queue (R61, R63): it is granted if
the engine has a place and the semaphore holds a count, which is subtracted at once. -/
def Core.grantHead (k : Core) (e : Fin 5) : Core :=
  match (k.queue e).issue with
  | [] => k
  | h :: t =>
    match h.wait with
    | none => k
    | some i =>
      if h.granted = false ∧ k.room e = true ∧ 1 ≤ k.sem i then
        (k.setSem i (k.sem i - 1)).setQueue e { k.queue e with issue := { h with granted := true } :: t }
      else k

/-- The engines' waits of one core cycle, in ascending engine number (R61). -/
def Core.grantEngines (k : Core) : Core := ((((k.grantHead 0).grantHead 1).grantHead 2).grantHead 3).grantHead 4

/-! ### The program position (R56, R71 to R73) -/

/-- Go to position `p` under the open loops, innermost first: the position just past the innermost body acts as
reaching its end (R72). If iterations remain the loop returns to its top and its index register rises by one, at once even where that
register is pending: R81 stalls a command that writes a pending register, and the return to a loop's top is no command (the model's
choice: log 100). -/
def Core.gotoIn (k : Core) : List LoopEnt → Nat → Core
  | [], p => { k with loops := [], pos := p }
  | e :: es, p =>
    if p = e.last + 1 then
      if e.iter + 1 < e.count then
        let k' := { k with loops := { e with iter := e.iter + 1 } :: es, pos := e.start }
        match e.ireg with
        | none => k'
        | some r => k'.setReg r (k'.reg r + 1)
      else k.gotoIn es p
    else { k with loops := e :: es, pos := p }

/-- The sequencer continues at `p`. Reaching the program length faults the core with PATTERN_TRAP, a command word of
zero and a TRAP code of zero (R56). -/
def seqGoto (s : State) (c : Nat) (k : Core) (p : Nat) : State :=
  let k' := { k.gotoIn k.loops p with wait := .none }
  if k'.progLen ≤ k'.pos then cmdFault (s.setCore c k') c 0 .faulted .patternTrap k'.pos 0 else s.setCore c k'

/-- Is the sequencer at a command boundary, so that it takes its next word? It is not while it waits, and not once a
CANCEL has reached the core (R57, R74, R75, R82, R248). A stall (R62, R81) presents the same word again. -/
def Core.atBoundary (k : Core) : Bool :=
  decide (k.st = .running) && !k.cancelling &&
    (match k.wait with | .none => true | .reg _ => true | .queue _ => true | _ => false)

/-- Is register `r` pending (R81)? -/
def Core.pending (k : Core) (r : Reg) : Bool := k.pend.any (fun p => decide (p.1 = r))

/-- The sequencer of core `c` takes a word that reads or writes the registers `regs`: nothing happens where it is not
at a command boundary, it stalls on the first pending register, and otherwise `f` is the word's effect. -/
def seqTake (c : Nat) (regs : List Reg) (s : State) (f : Core → State) : Host.Outcome State Fault Refusal :=
  onCore s c (fun k =>
    if k.atBoundary = false then s else
    match regs.find? k.pending with
    | some r => s.setCore c { k with wait := .reg r }
    | none => f { k with wait := .none })

/-- The sequencer's own semaphore wait, the last of the cycle (R61, R75). -/
def seqGrant (s : State) (c : Nat) (k : Core) : State :=
  match k.wait with
  | .sem i n => if n.toNat ≤ k.sem i then seqGoto s c (k.setSem i (k.sem i - n.toNat)) (k.pos + 1) else s.setCore c k
  | _ => s.setCore c k

/-- All waits of one core cycle: the engines' in ascending number, then the sequencer's (R61). -/
def semRound (s : State) (c : Nat) (k : Core) : State := seqGrant s c k.grantEngines

/-- The arrival of R82: it is sent with the barrier's phase bit, which alternates, and the sequencer waits for the
release. -/
def sendArrival (s : State) (c : Nat) (k : Core) (bid : Fin 4) : State :=
  let ph := k.phase.get bid
  (s.setCore c { k with phase := k.phase.set bid.val (!ph) bid.isLt, wait := .barrier bid ph }).emit
    (.barrierArrival c bid ph)

/-! ### The Pattern of a core -/

/-- Pattern `p`. -/
def State.pat (s : State) (p : Nat) : Option Pattern := Sparse.get none s.helm.pats p

/-- Put a Pattern back. -/
def State.setPat (s : State) (p : Nat) (x : Pattern) : State :=
  { s with helm := { s.helm with pats := Sparse.set none s.helm.pats p (some x) } }

/-- Replace region `r` of a Pattern. -/
def Pattern.setRegion (p : Pattern) (r : Nat) (x : Region) : Pattern := { p with regions := p.regions.set r x }

/-- The Pattern that is resident on a core. -/
def State.corePat (s : State) (k : Core) : Option Pattern :=
  match k.pat with | none => none | some p => s.pat p

/-- The region of its Pattern in which a core lies. -/
def State.coreRegion (s : State) (k : Core) : Option Region :=
  match s.corePat k with | none => none | some p => p.regions[k.region]?

/-- The Pattern-coordinate number of the `i`-th core of a region (R20, R314). -/
def regionCoord (r : RegionImage) (i : Nat) : Nat := (r.originY + i / r.width) * 96 + r.originX + i % r.width

/-- The place of `c` in a list of cores. -/
def indexIn (c : Nat) (l : List Nat) : Nat := l.findIdx (fun x => decide (x = c))

/-- The placed core that a Pattern-coordinate number names: the relocation table of R314. -/
def Pattern.placed (p : Pattern) (d : Nat) : Option Nat :=
  p.regions.findSome? (fun r =>
    (List.range r.cores.length).findSome? (fun i => if regionCoord r.image i = d then r.cores[i]? else none))

/-- The Pattern-coordinate number of a placed core (R314). -/
def Pattern.coordOf (p : Pattern) (c : Nat) : Option Nat :=
  p.regions.findSome? (fun r => if c ∈ r.cores then some (regionCoord r.image (indexIn c r.cores)) else none)

end Sys2Proof.Machine
end

