-- ==== Sys2Proof/Machine/CoreEvents.lean ====
section
/-! DEFINITION. Events of a core that end its waits, dispatch it and time it out (R58, R61, R74, R75, R81 to R84, R168). -/

namespace Sys2Proof.Machine

/-- REGISTER_RESULT (R81): the pending register's value arrives, and a sequencer stalled on it continues with the same
word. Nothing happens while no value has come, and a STOPPED core keeps its registers (R87, R88). -/
def execRegisterResult (c : Nat) (r : Reg) (s : State) : Host.Outcome State Fault Refusal :=
  onCore s c (fun k =>
    if k.st = .stopped then s else
    match k.pend.find? (fun p => decide (p.1 = r)) with
    | some (_, some v) =>
      let k' := { k with pend := k.pend.filter (fun p => !decide (p.1 = r)) }
      s.setCore c { k'.setReg r v with wait := if k.wait = .reg r then .none else k.wait }
    | _ => s)

/-- SEM_WAIT_GRANT (R61): the waits of one core cycle are tried, the engines' in ascending number and the sequencer's
last. -/
def execSemWaitGrant (c : Nat) (s : State) : Host.Outcome State Fault Refusal :=
  onCore s c (fun k => if k.st = .running then semRound s c k else s)

/-- FENCE_END (R75, R82): the commands a FENCE waits on have completed; a BARRIER with FEN then sends its arrival. -/
def execFenceEnd (c : Nat) (s : State) : Host.Outcome State Fault Refusal :=
  onCore s c (fun k =>
    match k.wait with
    | .fence mask => if k.drained mask then seqGoto s c k (k.pos + 1) else s
    | .barrierFence bid => if k.drained 31 then sendArrival s c k bid else s
    | _ => s)

/-- The sequencer takes the record in the latch (R58, R250): the position, S13 to S15, and RUNNING; the translation caches are
emptied (R192, R208). S0 to S12 and the semaphores keep their values. -/
def takeDispatch (s : State) (c : Nat) (k : Core) (d : DispatchRec) : State :=
  let area := match s.corePat k with | none => 0 | some p => p.manifest.params.dispatchUnit * 64
  let k1 := ((k.setReg 15 (d.stepSeq.setWidth 64)).setReg 14 (BitVec.ofNat 64 d.bucket)).setReg 13 (BitVec.ofNat 64 area)
  seqGoto s c { k1 with latch := none, st := .running, useRestart := false, loops := [], xlate := [], nmuXlate := [] }
    (if k.useRestart then k.restart else k.entry)

/-- A core enters IDLE and takes a record waiting in its latch (R58). -/
def enterIdle (s : State) (c : Nat) (k : Core) : State :=
  let k' := { k with st := .idle, wait := .none }
  match k'.latch with
  | none => s.setCore c k'
  | some d => takeDispatch s c k' d

/-- HALT_DRAIN_END (R74): everything issued has completed; the loop stack is cleared, the weight-stationary hold is
invalidated (R111), completion is reported to the Helm, and the core enters IDLE. -/
def execHaltDrainEnd (c : Nat) (s : State) : Host.Outcome State Fault Refusal :=
  onCore s c (fun k =>
    if k.st = .running ∧ k.wait = .halt ∧ k.drained 31 = true then
      enterIdle (s.emit (.halted c)) c { k with loops := [], bhold := none }
    else s)

/-- The number under which the barrier root counts arrivals of a BID and phase. -/
def arrivalKey (bid : Fin 4) (phase : Bool) : Nat := 2 * bid.val + b2n phase

/-- BARRIER_ARRIVAL (R82, R83): the root counts an arrival of a BID and phase. When every core of the region has
arrived and none is stopped, the release goes to all of them. -/
def execBarrierArrival (src : Nat) (bid : Fin 4) (phase : Bool) (s : State) : Host.Outcome State Fault Refusal :=
  onCore s src (fun k =>
    match k.pat, s.corePat k, s.coreRegion k with
    | some pi, some p, some r =>
      let key := arrivalKey bid phase
      let l := Sparse.get [] r.arrived key
      let l' := if src ∈ l then l else l ++ [src]
      let all := r.cores.all (fun c => decide (c ∈ l') && !decide ((s.core c).st = .stopped))
      let r' := { r with arrived := Sparse.set [] r.arrived key (if all then [] else l') }
      let s1 := s.setPat pi (p.setRegion k.region r')
      if all then s1.emits (r.cores.map (fun c => .barrierRelease c bid phase)) else s1
    | _, _, _ => s)

/-- BARRIER_RELEASE (R82): the waiting sequencer continues. -/
def execBarrierRelease (c : Nat) (bid : Fin 4) (phase : Bool) (s : State) : Host.Outcome State Fault Refusal :=
  onCore s c (fun k => if k.st = .running ∧ k.wait = .barrier bid phase then seqGoto s c k (k.pos + 1) else s)

/-- DISPATCH (R58): the record enters the latch of a RUNNING core, and an IDLE core takes it at once. The Helm sends
none to a core whose latch is full, or that is in RESET or STOPPED; one that arrives there is not taken. -/
def execDispatch (c : Nat) (d : DispatchRec) (s : State) : Host.Outcome State Fault Refusal :=
  onCore s c (fun k =>
    match k.latch with
    | some _ => s
    | none =>
      if k.st = .running then s.setCore c { k with latch := some d }
      else if k.st = .idle then takeDispatch s c k d
      else s)

/-- The word that the command store holds at the program position (R485). -/
def Core.wordAt (k : Core) : CmdWord := Sparse.get 0 k.store k.pos

/-- Does the sequencer stand at a wait that R84 times? -/
def Core.timedWait (k : Core) : Bool :=
  match k.wait with
  | .sem _ _ => true | .fence _ => true | .barrierFence _ => true | .barrier _ _ => true | _ => false

/-- The command of engine `e + 1` at a wait that R84 times: a held SEND or a RECV with BLK set, or the head of the
queue before its semaphore wait is granted. -/
def Core.timedEngine (k : Core) (e : Fin 5) : Option QEntry :=
  match (k.queue e).prog.find? (fun p => p.held && decide (e = 4)) with
  | some p => some p.entry
  | none =>
    match (k.queue e).issue with
    | [] => none
    | h :: _ => if h.wait.isSome ∧ h.granted = false ∧ k.room e = true then some h else none

/-- WAIT_TIMEOUT (R84): a wait that the Pattern causes reaches 2^WAIT_LOG2 core cycles. HALT's wait and an IDLE core's
are not timed. -/
def execWaitTimeout (c : Nat) (eng : Fin 6) (s : State) : Host.Outcome State Fault Refusal :=
  onCore s c (fun k =>
    if k.st ≠ .running then s else
    if eng.val = 0 then
      if k.timedWait then cmdFault s c 0 .faulted .waitTimeout k.pos k.wordAt else s
    else
      match k.timedEngine ⟨eng.val - 1, by omega⟩ with
      | some q => cmdFault s c eng .faulted .waitTimeout q.pos q.word
      | none => s)

/-- STEP_TIMEOUT (R490): a core has been RUNNING for 2^32 core cycles in one step. -/
def execStepTimeout (c : Nat) (s : State) : Host.Outcome State Fault Refusal :=
  onCore s c (fun k => if k.st = .running then cmdFault s c 0 .faulted .stepTimeout k.pos k.wordAt else s)

/-- The command of engine `e + 1` that is stalled at a slot: an unfinished chain, or the head of the queue. -/
def Core.stalledAt (k : Core) (e : Fin 5) : Option QEntry :=
  match (k.queue e).prog.find? (fun p => p.chain.isSome && p.entry.stalled.isSome) with
  | some p => some p.entry
  | none => (k.queue e).issue.head?

/-- SLOT_STALL (R168): a slot stall reaches 65,536 core cycles; the record names the ring and slot. -/
def execSlotStall (c : Nat) (eng : Fin 5) (s : State) : Host.Outcome State Fault Refusal :=
  onCore s c (fun k =>
    match k.stalledAt eng with
    | none => s
    | some h =>
      match h.stalled with
      | none => s
      | some (r, sl) =>
        coreFault s c (eng.val + 1) .faulted .slotStall h.pos h.word (coreDetail h.word h.pos r sl 0 0))

end Sys2Proof.Machine
end

