-- ==== Sys2Proof/Machine/Formats.lean ====
section
/-! DEFINITION. Integer formats, tensor headers, operands of a product and requantisation (R33 to R51, R100 to R104). -/

namespace Sys2Proof.Machine

/-! ### Element types and headers (R33 to R41) -/

/-- Width of an element in bits, by ETYPE (R33). -/
def etBits (t : Nat) : Nat := if t = 0 then 4 else if t = 1 then 8 else if t = 2 then 16 else 32

/-- The tensor header word H (R38). -/
structure Hdr where
  etype : Nat
  form : Nat
  modular : Bool
  nmsel : Nat
  uniform : Bool
  mult : Nat
  ebias : Int
  scaleOfs : Nat
  indexOfs : Nat
  deriving DecidableEq, Repr

/-- The fields of a header word (R38). -/
def hdrOf (w : Nat) : Hdr :=
  { etype := bitsOf w 0 4, form := bitsOf w 4 3, modular := bitOf w 7, nmsel := bitsOf w 8 2, uniform := bitOf w 10,
    mult := bitsOf w 16 16, ebias := signed 8 (bitsOf w 32 8), scaleOfs := bitsOf w 64 32, indexOfs := bitsOf w 96 32 }

/-- The header word at a base byte address. -/
def hdrWord (m : Memory) (base : Nat) : Nat := rdNat m base 16

/-- Do the header's halves agree (R39)? -/
def hdrPair (m : Memory) (base : Nat) : Bool := compl 128 (hdrWord m base) (rdNat m (base + 16) 16)

/-- Is the header valid under R40 and R41? Its reserved fields lie in the word and in bytes 32 to 63. -/
def hdrValid (m : Memory) (base : Nat) : Bool :=
  let w := hdrWord m base
  let h := hdrOf w
  decide (h.etype ≤ 3) && decide (h.form ≤ 3) && decide (h.nmsel ≤ 2) && decide (bitsOf w 11 5 = 0)
    && decide (bitsOf w 40 24 = 0) && decide (rdNat m (base + 32) 32 = 0)
    && (decide (h.form = 3) || decide (h.nmsel = 0)) && (decide (h.etype < 3) || decide (h.form = 0))
    && decide (h.mult ≠ 0)
    && (if h.uniform then decide (h.scaleOfs = 0) else decide (h.scaleOfs ≠ 0))
    && (if h.form = 0 then decide (h.indexOfs = 0) else decide (h.indexOfs ≠ 0))
    && (!h.modular || (decide (h.etype = 3) && decide (h.form = 0) && h.uniform && decide (h.mult = 0x8000)
        && decide (h.ebias = 0)))

/-- Row length of a DENSE tensor's scale plane, from its row stride in bytes (R36). -/
def denseC (rstr et : Nat) : Nat := ceilDiv (rstr * 8 / etBits et) 32 * 32

/-- N and M of an NM pattern and the bits of one position (R51). -/
def nmN (sel : Nat) : Nat := if sel = 2 then 4 else 2
def nmM (sel : Nat) : Nat := if sel = 0 then 4 else 8
def nmBits (sel : Nat) : Nat := if sel = 0 then 2 else 3

/-- The element of `bits` bits at bit `k` of a run that starts at byte `a`, signed (R34). -/
def rdElem (m : Memory) (a bits k : Nat) : Int :=
  if bits = 4 then signed 4 (bitsOf (rdByte m (a + k / 8)).toNat (k % 8) 4)
  else signed bits (rdNat m (a + k / 8) (bits / 8))

/-- Write element `v` of `bits` bits at bit `k` of a run that starts at byte `a` (R34). -/
def wrElem (m : Memory) (a bits k : Nat) (v : Int) : Memory :=
  if bits = 4 then
    let b := (rdByte m (a + k / 8)).toNat
    wrByte m (a + k / 8) (BitVec.ofNat 8
      (if k % 8 = 0 then b / 16 * 16 + lowBits 4 v else b % 16 + 16 * lowBits 4 v))
  else wrNat m (a + k / 8) (bits / 8) (lowBits bits v)

/-! ### Operands of a product (R36, R45 to R51, R102, R104) -/

/-- An operand: where its bytes are read, its base, its header, its row stride in bytes, its rows and its columns. -/
structure Opnd where
  mem : Memory
  base : Nat
  h : Hdr
  rstr : Nat
  rows : Nat
  cols : Nat
  deriving DecidableEq, Repr

def Opnd.payload (o : Opnd) : Nat := o.base + 64
def Opnd.scale (o : Opnd) : Nat := o.base + o.h.scaleOfs * 64
def Opnd.index (o : Opnd) : Nat := o.base + o.h.indexOfs * 64
def Opnd.bits (o : Opnd) : Nat := etBits o.h.etype

/-- Length in bytes of a BMP64 record with a mask (R46). -/
def recLen (mask bits : Nat) : Nat :=
  8 + ceilDiv (((List.range 64).filter (fun j => bitOf mask j)).length * bits) 64 * 8

/-- Skip `n` BMP64 records from byte `a`. -/
def skipRecs (m : Memory) (bits : Nat) : Nat → Nat → Nat
  | a, 0 => a
  | a, n + 1 => skipRecs m bits (a + recLen (rdNat m a 8) bits) n

/-- Entry `p` of the table of 32-bit words at the index area. -/
def Opnd.tab (o : Opnd) (p : Nat) : Nat := rdNat o.mem (o.index + 4 * p) 4

/-- Byte address of the BMP64 record of row `r` and segment `g` (R46, R47). -/
def Opnd.bmpRec (o : Opnd) (r g : Nat) : Nat :=
  skipRecs o.mem o.bits (o.payload + o.tab (r / 16) * 64) (r % 16 * (o.cols / 64) + g)

/-- Start of the BLK16 block-column list (R50). -/
def Opnd.blkCols (o : Opnd) : Nat := o.index + ceilDiv ((o.rows / 16 + 1) * 4) 64 * 64

/-- Block column of the block with ordinal `b` (R50). -/
def Opnd.blkCol (o : Opnd) (b : Nat) : Nat := rdNat o.mem (o.blkCols + 2 * b) 2

/-- The ordinal of the block at block row `br` and block column `kb`, if it is present (R50, R102). -/
def Opnd.blkFind (o : Opnd) (br kb : Nat) : Option Nat :=
  ((List.range (o.tab (br + 1) - o.tab br)).map (· + o.tab br)).find? (fun b => decide (o.blkCol b = kb))

/-- Bits in one row's NM index stream, as a whole number of bytes (R51). -/
def Opnd.nmRow (o : Opnd) : Nat := ceilDiv (o.cols / nmM o.h.nmsel * nmN o.h.nmsel * nmBits o.h.nmsel) 64 * 8

/-- Position `q` of the NM index stream of row `r` (R51). -/
def Opnd.nmPos (o : Opnd) (r q : Nat) : Nat :=
  let b := nmBits o.h.nmsel
  bitsOf (rdNat o.mem (o.index + r * o.nmRow + q * b / 8) 2) (q * b % 8) b

/-- Position of bit `j` among the set bits of a mask. -/
def rankIn (mask j : Nat) : Nat := ((List.range j).filter (fun i => bitOf mask i)).length

/-- The elements of row `r` in K-block `kb`: none where the K-block is absent (R102), and otherwise the 16 positions,
each with its element where it is present (R104). -/
def Opnd.block (o : Opnd) (r kb : Nat) : Option (List (Option Int)) :=
  match o.h.form with
  | 0 => some ((List.range 16).map (fun i => some (rdElem o.mem (o.payload + r * o.rstr) o.bits ((16 * kb + i) * o.bits))))
  | 1 =>
    let a := o.bmpRec r (kb / 4)
    let mask := rdNat o.mem a 8
    if bitsOf mask (16 * (kb % 4)) 16 = 0 then none else
    some ((List.range 16).map (fun i =>
      let j := 16 * (kb % 4) + i
      if bitOf mask j then some (rdElem o.mem (a + 8) o.bits (rankIn mask j * o.bits)) else none))
  | 2 =>
    match o.blkFind (r / 16) kb with
    | none => none
    | some b => some ((List.range 16).map (fun i =>
        some (rdElem o.mem (o.payload + b * (32 * o.bits)) o.bits ((r % 16 * 16 + i) * o.bits))))
  | _ =>
    let n := nmN o.h.nmsel
    let m := nmM o.h.nmsel
    some ((List.range 16).map (fun i =>
      let g := (16 * kb + i) / m
      match (List.range n).find? (fun t => decide (o.nmPos r (g * n + t) = i % m)) with
      | none => none
      | some t => some (rdElem o.mem (o.payload + r * o.rstr) o.bits ((g * n + t) * o.bits))))

/-- Byte offset of the group exponent of row `r` and column `c` in the scale plane (R36). -/
def Opnd.scaleAt (o : Opnd) (r c : Nat) : Nat :=
  match o.h.form with
  | 0 => r * (denseC o.rstr o.h.etype / 32) + c / 32
  | 1 => (r * (o.cols / 64) + c / 64) * 2 + c % 64 / 32
  | 2 => (match o.blkFind (r / 16) (c / 16) with | none => 0 | some b => b) * 8 + r % 16 / 2
  | _ => r * (o.cols / 32) + c / 32

/-- The group exponent plus EBIAS of row `r` at column `c`; under UNIFORM the group exponent is zero (R35, R37). -/
def Opnd.exp (o : Opnd) (r c : Nat) : Int :=
  (if o.h.uniform then 0 else signed 8 (rdByte o.mem (o.scale + o.scaleAt r c)).toNat) + o.h.ebias

/-- An element of a DENSE operand. -/
def Opnd.elem (o : Opnd) (r c : Nat) : Int := rdElem o.mem (o.payload + r * o.rstr) o.bits (c * o.bits)

/-- Bytes of a DENSE operand's packed row (R45), or of an NM operand's row of values (R51). -/
def Opnd.packed (o : Opnd) : Nat :=
  if o.h.form = 3 then o.cols * nmN o.h.nmsel / nmM o.h.nmsel * o.bits / 8 else o.cols * o.bits / 8

/-- The parts of an operand, as (first byte, bytes): header, payload, scale plane, index area (R165). -/
def Opnd.parts (o : Opnd) : List (Nat × Nat) :=
  let blocks := o.tab (o.rows / 16)
  let pay := match o.h.form with
    | 0 => (o.rows - 1) * o.rstr + o.packed
    | 1 => o.tab (ceilDiv o.rows 16) * 64
    | 2 => blocks * 32 * o.bits
    | _ => (o.rows - 1) * o.rstr + o.packed
  let sc := if o.h.uniform then 0 else match o.h.form with
    | 0 => (o.rows - 1) * (denseC o.rstr o.h.etype / 32) + o.cols / 32
    | 1 => o.rows * (o.cols / 32)
    | 2 => blocks * 8
    | _ => o.rows * (o.cols / 32)
  let ix := match o.h.form with
    | 0 => 0
    | 1 => (ceilDiv o.rows 16 + 1) * 4
    | 2 => ceilDiv ((o.rows / 16 + 1) * 4) 64 * 64 + blocks * 2
    | _ => o.rows * o.nmRow
  [(o.base, 64), (o.payload, pay), (o.scale, sc), (o.index, ix)].filter (fun p => decide (p.2 ≠ 0))

/-! ### Errors of a sparse walk (R48, R50, R51, R121) -/

/-- An error met by a walk: the K-block and row at which it is met, and its code. -/
abbrev WalkErr := Nat × Nat × Code

/-- Errors of row `r` of a BLK16 operand's walk: each list entry is looked at from the K-block after the one before it. A
block's values are read in the K-blocks that `need` names. -/
def blkRowErrs (top : Nat) (need : Nat → Bool) (o : Opnd) (r : Nat) : List Nat → Nat → List WalkErr
  | [], _ => []
  | b :: bs, at' =>
    let a := o.blkCols + 2 * b
    let c := o.blkCol b
    if top < a + 2 then [(at', r, .scratchRange)]
    else if c < at' then [(at', r, .sparseOrder)]
    else if o.cols / 16 ≤ c then [(at', r, .sparseExtent)]
    else if need c = true ∧ (top < o.payload + (b + 1) * (32 * o.bits) ∨
      (o.h.uniform = false ∧ top < o.scale + (b + 1) * 8)) then [(c, r, .scratchRange)]
    else blkRowErrs top need o r bs (c + 1)

/-- Every error of a walk (R48, R50, R51) that reads the values in the rows and K-blocks of `rows` and `kbs`, and every reach past
byte `top` of its memory. The whole offset or block-row table is checked; the masks or index list of a panel or block row that
holds a row of `rows`; the positions of an NM row in K-blocks of `kbs`. A DENSE operand has none. -/
def Opnd.errsFor (top : Nat) (rows kbs : Nat → Bool) (o : Opnd) : List WalkErr :=
  let walked (p : Nat) : Bool := (List.range 16).any (fun i => rows (16 * p + i))
  match o.h.form with
  | 0 => []
  | 1 =>
    let segs := o.cols / 64
    (List.range (o.rows / 16)).flatMap (fun p =>
      let start := o.payload + o.tab p * 64
      let past := skipRecs o.mem o.bits start (16 * segs)
      if top < o.index + 4 * (p + 2) then [(0, 16 * p, Code.scratchRange)]
      else if (p = 0 ∧ o.tab 0 ≠ 0) ∨ o.tab (p + 1) ≤ o.tab p then [(0, 16 * p, .sparseExtent)]
      else if walked p = false then []
      else
        ((List.range (16 * segs)).filterMap (fun n =>
          let a := skipRecs o.mem o.bits start n
          let r := 16 * p + n / segs
          if top < a + 8 ∨ (rows r = true ∧ (List.range 4).any (fun q => kbs (4 * (n % segs) + q)) = true ∧
            (top < a + recLen (rdNat o.mem a 8) o.bits ∨
              (o.h.uniform = false ∧ top < o.scale + (r * segs + n % segs + 1) * 2))) then
            some (4 * (n % segs), r, Code.scratchRange) else none))
        ++ (if ceilDiv (past - start) 64 ≠ o.tab (p + 1) - o.tab p then
              [(o.cols / 16 - 1, 16 * p + 15, Code.sparseExtent)] else []))
  | 2 =>
    (List.range (o.rows / 16)).flatMap (fun br =>
      if top < o.index + 4 * (br + 2) then [(0, 16 * br, Code.scratchRange)]
      else if (br = 0 ∧ o.tab 0 ≠ 0) ∨ o.tab (br + 1) < o.tab br then [(0, 16 * br, .sparseExtent)]
      else if walked br = false then []
      else blkRowErrs top kbs o (16 * br) ((List.range (min (o.tab (br + 1) - o.tab br) (o.cols / 16 + 1))).map (· + o.tab br)) 0)
  | _ =>
    let n := nmN o.h.nmsel
    let m := nmM o.h.nmsel
    ((List.range o.rows).filter rows).flatMap (fun r => ((List.range (o.cols / 16)).filter kbs).filterMap (fun kb =>
      if top < o.payload + r * o.rstr + ((16 * kb + 16) / m * n * o.bits) / 8 ∨
         top < o.index + r * o.nmRow + ((16 * kb + 16) / m * n * nmBits o.h.nmsel) / 8 ∨
         (o.h.uniform = false ∧ top < o.scale + o.scaleAt r (16 * kb) + 1) then
        some (kb, r, Code.scratchRange)
      else if (List.range (16 / m)).all (fun g => (List.range (n - 1)).all (fun t =>
          decide (o.nmPos r ((16 * kb / m + g) * n + t) < o.nmPos r ((16 * kb / m + g) * n + t + 1)))) then none
      else some (kb, r, Code.sparseOrder)))

/-- The errors of a walk in scratch, where no reach past unit 48,127 is allowed (R121). -/
def Opnd.errs (o : Opnd) : List WalkErr := o.errsFor Config.scratchTop (fun _ => true) (fun _ => true)

/-- The first error in walk order: the lower K-block, then the lower row; the earlier of equals stays. -/
def firstErr (l : List WalkErr) : Option WalkErr :=
  l.foldl (fun a e => match a with
    | none => some e
    | some b => if e.1 < b.1 ∨ (e.1 = b.1 ∧ e.2.1 < b.2.1) then some e else some b) none

/-- The first error of the two walks: at equal K-blocks A's is reported (R121). -/
def walkErr (a b : Opnd) : Option Code :=
  match firstErr a.errs, firstErr b.errs with
  | none, none => none
  | some e, none => some e.2.2
  | none, some e => some e.2.2
  | some e, some f => if f.1 < e.1 then some f.2.2 else some e.2.2

/-! ### Requantisation (R42 to R44) -/

/-- The smallest shift from `e` on for which every rounded value fits `bits` bits, looking at most `n` further (R43). -/
def shiftFor (bits : Nat) (vs : List Int) : Nat → Nat → Nat
  | 0, e => e
  | n + 1, e => if vs.all (fun v => fitsS bits (rq v e)) then e else shiftFor bits vs n (e + 1)

/-- A requantised group: its stored values, its exponent byte where there is one, and its saturated elements. -/
structure GroupOut where
  vals : List Int
  g : Option Int
  sat : Nat
  deriving DecidableEq, Repr

/-- Requantise one group with exponent `x` under an output header (R43, R44); none is SCALE_RANGE. -/
def requant (h : Hdr) (x : Int) (vs : List Int) : Option GroupOut :=
  let bits := etBits h.etype
  if h.uniform then
    let k := h.ebias - x
    some { vals := vs.map (fun v => satS bits (rq v k)), g := none,
           sat := (vs.filter (fun v => !fitsS bits (rq v k))).length }
  else
    let e := if h.etype = 3 then 0 else shiftFor bits vs 32 0
    let g := x + e - h.ebias
    if -128 ≤ g ∧ g ≤ 127 then some { vals := vs.map (fun v => rq v e), g := some g, sat := 0 } else none

/-- Two's-complement wrap to 32 bits. -/
def wrap32 (v : Int) : Int := signed 32 (lowBits 32 v)

/-- `l` in runs of `n`, at most `fuel` of them. -/
def runsOf {α : Type} (n : Nat) : Nat → List α → List (List α)
  | 0, _ => []
  | f + 1, l => if l.isEmpty then [] else l.take n :: runsOf n f (l.drop n)

/-- Write one row of a DENSE output (R36, R45): the values from column `c0` on, and one exponent byte for each group
that has one. -/
def wrRow (m : Memory) (base : Nat) (h : Hdr) (rstr row c0 : Nat) (gs : List GroupOut) : Memory :=
  let bits := etBits h.etype
  let vals := gs.flatMap (·.vals)
  let m1 := (List.range vals.length).foldl (fun m i =>
    wrElem m (base + 64 + row * rstr) bits ((c0 + i) * bits) (vals.getD i 0)) m
  (List.range gs.length).foldl (fun m i =>
    match gs[i]?.bind (·.g) with
    | some g =>
      wrByte m (base + h.scaleOfs * 64 + row * (denseC rstr h.etype / 32) + c0 / 32 + i) (BitVec.ofNat 8 (lowBits 8 g))
    | none => m) m1

end Sys2Proof.Machine
end

