-- ==== Sys2Proof/Machine/Rings.lean ====
section
/-! DEFINITION. Ring buffers: membership, spans, slot states and stalls (R163 to R169), and how an engine's start ends. -/

namespace Sys2Proof.Machine

/-- Why a command stops: fault or rejection, its code, what its record's detail names (R485), and the stream-table slot
whose key pair disagreed, if one did (R287). -/
structure Stop where
  kind : Kind
  code : Code
  ring : Nat := 0xFF
  slot : Nat := 0xFF
  x56 : Nat := 0
  key : Option Nat := none
  deriving DecidableEq, Repr

/-- A rejection. -/
def rejectS (c : Code) : Stop := { kind := .rejected, code := c }

/-- A fault of a command. -/
def faultS (c : Code) : Stop := { kind := .faulted, code := c }

/-- The first of some checks that fails. -/
def firstStop : List (Bool × Stop) → Option Stop
  | [] => none
  | (b, st) :: l => if b then some st else firstStop l

/-- The parts of an operand: runs of bytes as (first byte, bytes). -/
abbrev Span := List (Nat × Nat)

/-- BASE and the end of a ring, in units of 64 B, as one value (R163, R164). -/
def ringEnds (d : RingDecl) : Nat := (d.base % 2 ^ 16) + (d.base + d.nslot * d.slotsz * 64) % 2 ^ 16 * 2 ^ 16

/-- A ring record as the loader writes it: its pair complete, every slot EMPTY (R163, R170). -/
def Ring.ofDecl (d : RingDecl) : Ring :=
  { decl := d, pairN := 2 ^ 32 - 1 - ringEnds d, slots := List.replicate d.nslot .empty }

/-- Do BASE and the ring's end agree with their complements (R163)? -/
def Ring.pairOk (r : Ring) : Bool := compl 32 (ringEnds r.decl) r.pairN

/-- Do two runs of bytes meet? -/
def runsMeet (a b : Nat × Nat) : Bool := decide (a.2 ≠ 0 ∧ b.2 ≠ 0 ∧ a.1 < b.1 + b.2 ∧ b.1 < a.1 + a.2)

/-- Does any run of `p` meet any run of `q`? -/
def spansMeet (p q : Span) : Bool := p.any (fun a => q.any (fun b => runsMeet a b))

/-- The last byte of any run lies beyond the Pattern's scratch (R156, R161). -/
def pastTop (p : Span) : Bool := p.any (fun a => decide (a.2 ≠ 0 ∧ Config.scratchTop < a.1 + a.2))

/-- First byte of a ring, bytes of a slot, and bytes of the ring (R164). -/
def ringStart (d : RingDecl) : Nat := d.base * 64
def ringSlot (d : RingDecl) : Nat := d.slotsz * 4096
def ringBytes (d : RingDecl) : Nat := ringSlot d * d.nslot

/-- Does an operand lie in a ring, in that its range meets it (R165)? -/
def inRing (d : RingDecl) (p : Span) : Bool := spansMeet p [(ringStart d, ringBytes d)]

/-- The slot that holds byte `a` of a ring. -/
def slotAt (d : RingDecl) (a : Nat) : Nat := (a - ringStart d) / ringSlot d

/-- Do all the parts of an operand lie wholly inside one slot (R165)? -/
def oneSlot (d : RingDecl) (p : Span) : Bool :=
  match p with
  | [] => true
  | (a, _) :: _ =>
    let s := ringStart d + slotAt d a * ringSlot d
    decide (ringStart d ≤ a) && p.all (fun x => decide (s ≤ x.1 ∧ x.1 + x.2 ≤ s + ringSlot d))

/-- A ring an operand of engine `eng`'s command uses, as a member of it (R165): its number and slot, or the check that
fails. An operand outside every ring, or of an engine that is no member, uses none (R162). -/
def ringOf (eng : Nat) (writes : Bool) (p : Span) : List Ring → Nat → Except Stop (Option (Nat × Nat))
  | [], _ => .ok none
  | r :: rs, n =>
    let d := r.decl
    if (d.prod = eng ∨ d.cons = eng) ∧ inRing d p = true then
      let sl := match p with | [] => 0xFF | (a, _) :: _ => if ringStart d ≤ a then slotAt d a else 0xFF
      if r.pairOk = false then .error (faultS .pairMismatch)
      else if oneSlot d p = false then .error { rejectS .ringSpan with ring := n, slot := sl }
      else if (d.prod = eng ∧ writes = false) ∨ (d.cons = eng ∧ writes = true) then
        .error { rejectS .ringRole with ring := n, slot := sl }
      else .ok (some (n, sl))
    else ringOf eng writes p rs (n + 1)

/-- The slots that several operands use, each named once (R167). -/
def ringsOf (eng : Nat) (writes : Bool) (rings : List Ring) : List Span → Except Stop (List (Nat × Nat))
  | [] => .ok []
  | p :: ps =>
    match ringOf eng writes p rings 0, ringsOf eng writes rings ps with
    | .error e, _ => .error e
    | _, .error e => .error e
    | .ok none, .ok l => .ok l
    | .ok (some x), .ok l => .ok (if x ∈ l then l else x :: l)

/-- State of a slot; a ring or slot that does not exist reads as EMPTY. -/
def slotState (rings : List Ring) (x : Nat × Nat) : SlotState :=
  match rings[x.1]? with
  | none => .empty
  | some r => (r.slots[x.2]?).getD .empty

/-- Set the state of a slot. -/
def setSlot (rings : List Ring) (x : Nat × Nat) (st : SlotState) : List Ring :=
  match rings[x.1]? with
  | none => rings
  | some r => rings.set x.1 { r with slots := r.slots.set x.2 st }

/-- May a consumer read a slot: FILLED with AVAIL above zero (R167)? -/
def readable (st : SlotState) : Bool := match st with | .filled a _ => decide (0 < a) | _ => false

/-- The first slot whose state keeps a command from starting (R167, R168). -/
def slotBlocked (rings : List Ring) (rs ws : List (Nat × Nat)) : Option (Nat × Nat) :=
  match rs.find? (fun x => !readable (slotState rings x)) with
  | some x => some x
  | none => ws.find? (fun x => decide (slotState rings x ≠ .empty))

/-- The changes at a start (R167, events 1 and 3). -/
def slotsStart (rings : List Ring) (rs ws : List (Nat × Nat)) : List Ring :=
  let r1 := rs.foldl (fun r x => match slotState r x with
    | .filled a o => setSlot r x (.filled (a - 1) (o + 1))
    | _ => r) rings
  ws.foldl (fun r x => setSlot r x .filling) r1

/-- USES of a ring. -/
def usesOf (rings : List Ring) (n : Nat) : Nat := match rings[n]? with | none => 0 | some r => r.decl.uses

/-- The changes at a completion (R167, events 2 and 4). -/
def slotsEnd (rings : List Ring) (rs ws : List (Nat × Nat)) : List Ring :=
  let r1 := rs.foldl (fun r x => match slotState r x with
    | .filled a o => setSlot r x (if a = 0 ∧ o ≤ 1 then .empty else .filled a (o - 1))
    | _ => r) rings
  ws.foldl (fun r x => setSlot r x (.filled (usesOf r x.1) 0)) r1

/-- What an engine finds that looks up the slot of a byte it is about to read: the ring's pair disagrees (R163), or the
slot may not be read yet. -/
inductive SlotHold
  | stop (st : Stop)
  | stall (ring slot : Nat)

/-- The slot of a ring that engine `eng` consumes and that holds byte `a`, if the ring's pair disagrees or the slot may not
be read yet: the engine stalls before its command makes any access to it (R163, R168). -/
def slotWait (eng : Nat) (rings : List Ring) (a : Nat) : Option SlotHold :=
  (List.range rings.length).findSome? (fun n =>
    match rings[n]? with
    | none => none
    | some r =>
      if r.decl.cons ≠ eng ∨ inRing r.decl [(a, 1)] = false then none
      else if r.pairOk = false then some (.stop (faultS .pairMismatch))
      else if readable (slotState rings (n, slotAt r.decl a)) = false then some (.stall n (slotAt r.decl a))
      else none)

/-- The first of several bytes that holds an engine up, or the first slot whose state does: a command makes no access before
every slot that it is seen to use may be read (R168). -/
def slotsWait (eng : Nat) (rings : List Ring) (as : List Nat) : Option SlotHold := as.findSome? (slotWait eng rings)

/-- How an attempt to start the command at the head of an engine's queue ends: it waits, it stalls at a slot, the core
is stopped (with what has been done so far), or it starts, with its effect on everything else. -/
inductive StartOut
  | wait
  | stall (ring slot : Nat)
  | stop (s : State) (st : Stop)
  | go (s : State) (fl : InFlight)

/-- How a start ends that is held up at a slot. -/
def SlotHold.out (s : State) : SlotHold → StartOut
  | .stop st => .stop s st
  | .stall r sl => .stall r sl

/-- A command just started. -/
def inFlight (e : QEntry) (rs ws : List (Nat × Nat)) : InFlight :=
  { entry := e, reads := rs, writes := ws, held := false, tries := 0, output := none, link := none, done := false,
    result := none, chain := none }

end Sys2Proof.Machine
end

