-- ==== Sys2Proof/Machine/Product.lean ====
section
/-! DEFINITION. One tile product: the operand set, its checks, the exact sums, guarded replay and the output stage
(R89 to R121). -/

namespace Sys2Proof.Machine

/-- The operand-set record (R93). -/
structure OpSet where
  aBase : Nat
  bBase : Nat
  eBase : Nat
  oBase : Nat
  pBase : Nat
  rBase : Nat
  aRstr : Nat
  bRstr : Nat
  eRstr : Nat
  oRstr : Nat
  oRow0 : Nat
  oCol0 : Nat
  xacc : Int
  osh : Int
  omul : Nat
  emul : Nat
  ws : Bool
  pload : Bool
  ronly : Bool
  pin : Nat
  nbase : Nat
  deriving DecidableEq, Repr

/-- The 512 bits of scratch unit `u`. -/
def unitBits (m : Memory) (u : Nat) : Nat := rdNat m (u * 64) 64

/-- The fields of an operand-set record (R93). -/
def opSetOf (w : Nat) : OpSet :=
  { aBase := bitsOf w 0 16, bBase := bitsOf w 16 16, eBase := bitsOf w 32 16, oBase := bitsOf w 48 16,
    pBase := bitsOf w 64 16, rBase := bitsOf w 80 16, aRstr := bitsOf w 96 16, bRstr := bitsOf w 112 16,
    eRstr := bitsOf w 128 16, oRstr := bitsOf w 144 16, oRow0 := bitsOf w 160 16, oCol0 := bitsOf w 176 16,
    xacc := signed 16 (bitsOf w 192 16), osh := signed 8 (bitsOf w 208 8), omul := bitsOf w 216 16,
    emul := bitsOf w 232 16, ws := bitOf w 248, pload := bitOf w 249, ronly := bitOf w 250, pin := bitsOf w 256 6,
    nbase := bitsOf w 288 32 }

/-- Does BASES_N complement the six bases (R94)? -/
def opSetPair (w : Nat) : Bool := compl 96 (bitsOf w 0 96) (bitsOf w 384 96)

/-- M and N of a SHAPE (R76). -/
def shapeM (s : Nat) : Nat := if s = 0 then 64 else if s = 1 then 128 else if s = 2 then 32 else if s = 3 then 16 else 256
def shapeN (s : Nat) : Nat := if s = 0 then 64 else if s = 1 then 32 else if s = 2 then 128 else if s = 3 then 256 else 16

/-- Rate class of a pair of element types (R90): 0 for I4, 1 for I8, 2 for I16. -/
def rateClass (a b : Nat) : Nat := if a = 0 ∧ b = 0 then 0 else if a ≤ 1 ∧ b ≤ 1 then 1 else 2

/-- Reduction chunk and slot capacity of a rate class (R90). -/
def chunkK (r : Nat) : Nat := if r = 0 then 512 else if r = 1 then 256 else 128
def slotCap (r : Nat) : Nat := if r = 0 then 32 else if r = 1 then 16 else 4

/-- What a TMUL does with its bank and its stages: the command's fields, its ACC as it acts (R76, R96). -/
structure Tmul where
  shape : Nat
  acc : AccAct
  bank : Fin 2
  eop : Nat
  red : Nat
  mod : Bool
  deriving DecidableEq, Repr

/-- Does the command begin a bank; does it end one (R96)? -/
def Tmul.begins (t : Tmul) : Bool := decide (t.acc = .start) || decide (t.acc = .only)
def Tmul.ends (t : Tmul) : Bool := decide (t.acc = .last) || decide (t.acc = .only)

/-- EOP, RED and PLOAD as they apply in this iteration (R96, R97, R121). -/
def Tmul.eopNow (t : Tmul) : Nat := if t.ends then t.eop else 0
def Tmul.redNow (t : Tmul) : Nat := if t.ends then t.red else 0
def Tmul.ploadNow (t : Tmul) (o : OpSet) : Bool := o.pload && t.begins

/-- Whether B comes from the weight-stationary hold: WS is set and the hold's tag matches B_BASE, SHAPE and the rate
class that A's type and the held B give (R111). -/
def useHold (k : Core) (o : OpSet) (shape : Nat) : Bool :=
  match k.bhold with
  | none => false
  | some h => o.ws && decide (h.bbase = o.bBase) && decide (h.shape = shape)
      && decide (h.rate = rateClass (hdrOf (hdrWord k.scratch (o.aBase * 64))).etype
          (hdrOf (hdrWord h.bytes (o.bBase * 64))).etype)

/-- The bytes that B is read from: the hold's or scratch (R111). -/
def bMem (k : Core) (o : OpSet) (shape : Nat) : Memory :=
  match k.bhold with
  | none => k.scratch
  | some h => if useHold k o shape then h.bytes else k.scratch

/-- A of a product (R91). -/
def opndA (k : Core) (o : OpSet) (shape : Nat) : Opnd :=
  let ha := hdrOf (hdrWord k.scratch (o.aBase * 64))
  let hb := hdrOf (hdrWord (bMem k o shape) (o.bBase * 64))
  { mem := k.scratch, base := o.aBase * 64, h := ha, rstr := o.aRstr * 64, rows := shapeM shape,
    cols := chunkK (rateClass ha.etype hb.etype) }
/-- B of a product (R91). A matching command strides the held bytes by its own B_RSTR, which the tag of R111 does not hold (the
model's choice: log 79). -/
def opndB (k : Core) (o : OpSet) (shape : Nat) : Opnd :=
  let ha := hdrOf (hdrWord k.scratch (o.aBase * 64))
  let hb := hdrOf (hdrWord (bMem k o shape) (o.bBase * 64))
  { mem := bMem k o shape, base := o.bBase * 64, h := hb, rstr := o.bRstr * 64, rows := shapeN shape,
    cols := chunkK (rateClass ha.etype hb.etype) }
/-- E of a product (R91). -/
def opndE (k : Core) (o : OpSet) (shape : Nat) : Opnd :=
  { mem := k.scratch, base := o.eBase * 64, h := hdrOf (hdrWord k.scratch (o.eBase * 64)), rstr := o.eRstr * 64,
    rows := shapeM shape, cols := shapeN shape }

/-- Header of the output tensor. -/
def outHdr (k : Core) (o : OpSet) : Hdr := hdrOf (hdrWord k.scratch (o.oBase * 64))

/-- The bytes of a tile of a DENSE tensor: its payload rows and its scale-plane bytes (R119). -/
def tileSpan (base : Nat) (h : Hdr) (rstr row0 col0 rows cols : Nat) : Span :=
  let bits := etBits h.etype
  (List.range rows).flatMap (fun r =>
    [(base + 64 + (row0 + r) * rstr + col0 * bits / 8, cols * bits / 8)] ++
    (if h.uniform then [] else
      [(base + h.scaleOfs * 64 + (row0 + r) * (denseC rstr h.etype / 32) + col0 / 32,
        (col0 + cols - 1) / 32 - col0 / 32 + 1)]))

/-- The output tile of a TMUL. -/
def outSpan (k : Core) (o : OpSet) (shape : Nat) : Span :=
  tileSpan (o.oBase * 64) (outHdr k o) (o.oRstr * 64) o.oRow0 o.oCol0 (shapeM shape) (shapeN shape)

/-- The accumulator image (R98) and the reduction entries (R118). -/
def imageSpan (unit : Nat) : Span := [(unit * 64, 64 + 16384)]
def entrySpan (o : OpSet) (shape : Nat) : Span := [(o.rBase * 64, 16 * shapeM shape)]

/-- X, SHAPE and MOD of an image header (R98). -/
def imageX (m : Memory) (unit : Nat) : Int := signed 16 (rdNat m (unit * 64) 2)
def imageShape (m : Memory) (unit : Nat) : Nat := bitsOf (rdNat m (unit * 64) 4) 16 3
def imageMod (m : Memory) (unit : Nat) : Bool := bitOf (rdNat m (unit * 64) 4) 19
/-- The accumulators of an image (R98). -/
def imageAcc (m : Memory) (unit : Nat) : List Int :=
  (List.range 4096).map (fun i => signed 32 (rdNat m (unit * 64 + 64 + 4 * i) 4))

/-- Is a row stride shorter than the operand's packed row, in DENSE or NM form (R121 row 8)? -/
def shortStride (o : Opnd) : Bool := (decide (o.h.form = 0) || decide (o.h.form = 3)) && decide (o.rstr < o.packed)

/-- Rows 1 to 11 of R121 for a product of `a` and `b`. `ownA` is clear where A is a chain's row band in place of A_BASE, and
`withOut` is clear for a chain's product that writes no output (R147). An extent is looked at only where its header's halves
agree (R39, log 77). RONLY leaves the checks on the output tensor in force: it skips the checks of the output stage (the model's
reading of R118: log 80). `seen` says which units hold a header that can be read: every unit for an engine, those of the
image for the loader, which makes of each check what it can without the others (log 43). -/
def setChecks (k : Core) (w : Nat) (t : Tmul) (unit : Nat) (a b : Opnd) (ownA withOut : Bool) (seen : Nat → Bool) : Option Stop :=
  let o := opSetOf w
  let e := opndE k o t.shape
  let oh := outHdr k o
  let useE := withOut && decide (t.eopNow ≠ 0)
  let useR := withOut && decide (t.redNow ≠ 0)
  let useP := t.ploadNow o
  let sA := seen (a.base / 64)
  let sB := seen o.bBase
  let sE := seen o.eBase
  let sO := seen o.oBase
  let dense (known : Bool) (x : Opnd) : Span := if known && x.h.form = 0 && hdrPair x.mem x.base then x.parts else []
  let hdrs : List (Memory × Nat) := (if sA then [(a.mem, a.base)] else []) ++ (if sB then [(b.mem, o.bBase * 64)] else [])
    ++ (if useE && sE then [(k.scratch, o.eBase * 64)] else []) ++ (if withOut && sO then [(k.scratch, o.oBase * 64)] else [])
  let bases := (if ownA then [o.aBase] else []) ++ [o.bBase] ++ (if useE then [o.eBase] else []) ++ (if withOut then [o.oBase] else [])
    ++ (if useP then [o.pBase] else []) ++ (if useR then [o.rBase] else [])
  let inputs : Span := (if sA && sB then a.parts ++ b.parts else [(a.base, 64), (o.bBase * 64, 64)])
    ++ (if useE && sE then e.parts else []) ++ [(unit * 64, 64)] ++ (if useP then imageSpan o.pBase else [])
  let outs : Span := (if withOut && sO && hdrPair k.scratch (o.oBase * 64) then outSpan k o t.shape else [])
    ++ (if useR then entrySpan o t.shape else [])
  firstStop
    [ (!opSetPair w, faultS .pairMismatch),
      (bases.any (fun x => decide (Config.topUnit ≤ x)) || (ownA && pastTop (dense (sA && sB) a))
        || pastTop (dense (sA && sB) b) || (useE && pastTop (dense sE e)) || (useP && pastTop (imageSpan o.pBase)) || pastTop outs, rejectS .scratchRange),
      (hdrs.any (fun x => !hdrPair x.1 x.2), faultS .pairMismatch),
      (hdrs.any (fun x => !hdrValid x.1 x.2), rejectS .badHeader),
      ((sA && decide (a.h.etype = 3)) || (sB && decide (b.h.etype = 3)), rejectS .typePair),
      ((withOut && sO && decide (oh.form ≠ 0)) || (useE && sE && decide (e.h.form ≠ 0)), rejectS .outForm),
      (withOut && ((sO && decide (t.mod ≠ oh.modular)) || (useE && sE && t.mod && !e.h.modular)), rejectS .oclassMismatch),
      ((sA && sB && ((ownA && shortStride a) || shortStride b)) || (useE && sE && shortStride e)
        || (withOut && sO && decide (o.oRstr * 64 < ceilDiv ((o.oCol0 + shapeN t.shape) * etBits oh.etype) 8)), rejectS .badStride),
      (withOut && decide (o.oCol0 % (if t.shape = 4 then 16 else 32) ≠ 0), rejectS .colAlign),
      (withOut && sO && decide (t.shape = 4) && !oh.uniform && decide (oh.etype ≠ 3), rejectS .groupSplit),
      (spansMeet outs inputs, rejectS .overlap) ]

/-- Is `p` the PINIX of a segment of the core's Pattern that the loader granted as pinned (R112, R254)? -/
def pinned (p : Option Pattern) (pin : Nat) : Bool :=
  match p with | none => false | some p => p.segs.any (fun g => g.pinned && decide (g.pinix = pin))

/-- All of R121 for a TMUL; a MODULAR command ignores XACC (R115). CONT or LAST on a bank in OUTPUT is rejected at once with
ACC_STATE, as the table of R96 has it (log 81). -/
def tmulChecks (p : Option Pattern) (k : Core) (w : Nat) (t : Tmul) (unit : Nat) : Option Stop :=
  let o := opSetOf w
  let bk := k.bank t.bank
  match setChecks k w t unit (opndA k o t.shape) (opndB k o t.shape) true true (fun _ => true) with
  | some st => some st
  | none => firstStop
    [ ((!t.begins && (decide (bk.st ≠ .open) || decide (bk.shape ≠ t.shape) || decide (bk.mod ≠ t.mod)))
        || (t.ploadNow o && (decide (imageShape k.scratch o.pBase ≠ t.shape)
            || decide (imageMod k.scratch o.pBase ≠ t.mod))), rejectS .accState),
      (!t.mod && decide (o.xacc < -1024 ∨ 1023 < o.xacc), rejectS .scaleRange),
      (o.ws && !pinned p o.pin, rejectS .wsUnpinned) ]

/-! ### The sums (R100, R104, R105) -/

/-- A K-block of one row: its 16 positions and its exponent, where it is present. -/
abbrev KB := Option (List (Option Int) × Int)

/-- The K-blocks of a row. -/
def Opnd.rowBlocks (o : Opnd) (r : Nat) : List KB :=
  (List.range (o.cols / 16)).map (fun kb => (o.block r kb).map (fun v => (v, o.exp r (16 * kb))))

/-- The matched products of two K-blocks (R104). -/
def matched (u v : List (Option Int)) : List Int :=
  (List.zipWith (fun a b => match a, b with | some a, some b => some (a * b) | _, _ => none) u v).filterMap id

/-- One K-block's part of s in R100: p aligned to the bank exponent, or p itself under MODULAR (R115). -/
def kbTerm (mod : Bool) (x : Int) (u v : KB) : Int :=
  match u, v with
  | some (a, ea), some (b, eb) =>
    let p := (matched a b).foldl (· + ·) 0
    if mod then p else rq p (x - ea - eb)
  | _, _ => 0

/-- The contributions s(i, j) of a product, row-major (R100). -/
def productSums (mod : Bool) (x : Int) (a b : List (List KB)) : List Int :=
  a.flatMap (fun ra => b.map (fun rb => (List.zipWith (kbTerm mod x) ra rb).foldl (· + ·) 0))

/-- The rows of an operand as K-blocks. -/
def Opnd.allBlocks (o : Opnd) : List (List KB) := (List.range o.rows).map o.rowBlocks

/-- Candidates, matched positions and slots of a product (R103 to R105). -/
def productCounts (cap : Nat) (a b : List (List KB)) : Nat × Nat × Nat :=
  a.foldl (fun acc ra => b.foldl (fun acc rb =>
    let cs := List.zipWith (fun u v => match u, v with
      | some (p, _), some (q, _) => some (matched p q).length | _, _ => none) ra rb
    let ms := (cs.filterMap id).foldl (· + ·) 0
    (acc.1 + (cs.filterMap id).length, acc.2.1 + ms, acc.2.2 + ceilDiv ms cap)) acc) (0, 0, 0)

/-! ### Guarded replay (R113, R114) and the output stage (R117 to R120) -/

/-- How a run of a command over its bank ends: its accumulators, exponent and replays and what its output stage made,
or the code it is faulted with and the replays made. -/
inductive RunOut (α : Type)
  | done (acc : List Int) (x : Int) (replays : Nat) (out : α)
  | fail (c : Code) (replays : Nat)

/-- Run a GUARDED command from an entry image, with `n` replays left (R113, R114). `post` is the first pass of the
output stage, none on overflow. -/
def guarded {α : Type} (a b : List (List KB)) (post : List Int → Int → Option α) : Nat → Nat → List Int → Int → RunOut α
  | n, used, entry, x =>
    let acc := List.zipWith (· + ·) entry (productSums false x a b)
    match (if acc.all (fitsS 32) then post acc x else none) with
    | some out => .done acc x used out
    | none =>
      match n with
      | 0 => .fail .overflowUnresolved used
      | n + 1 =>
        if 1023 < x + 2 then .fail .scaleRange used
        else guarded a b post n (used + 1) (entry.map (fun v => rq v 2)) (x + 2)

/-- The E operation on one accumulator (R115, R117). -/
def eopOne (mod : Bool) (eop emul : Nat) (x : Int) (q ee acc : Int) : Int :=
  if mod then (if eop = 1 then wrap32 (acc + q) else wrap32 (acc * q))
  else if eop = 1 then acc + rq (q * emul) (15 + x - ee) else rq (acc * q * emul) (15 - ee)

/-- First pass of the output stage (R117): E applied, and the scaled values of R119 where the tile is written; none on
overflow. -/
def outFirst (mod : Bool) (eop red : Nat) (o : OpSet) (e : Opnd) (n : Nat) (acc : List Int) (x : Int) :
    Option (List Int × List Int) :=
  let acc1 := if eop = 0 then acc else
    (List.range acc.length).map (fun i =>
      eopOne mod eop o.emul x (e.elem (i / n) (i % n)) (e.exp (i / n) (i % n)) (acc.getD i 0))
  let only := o.ronly && decide (red ≠ 0)
  let sc := if mod || only then acc1 else acc1.map (fun v => rq (v * o.omul) 15)
  if mod || (acc1.all (fitsS 32) && sc.all (fitsS 32)) then some (acc1, sc) else none

/-- The winning column and value of a row (R118): the lowest column wins a tie. -/
def rowBest (red : Nat) (row : List Int) : Nat × Int :=
  (List.range row.length).foldl (fun b j =>
    let v := row.getD j 0
    if (red = 1 ∧ b.2 < v) ∨ (red = 2 ∧ v < b.2) then (j, v) else b) (0, row.getD 0 0)

/-- Write the reduction entries (R118). -/
def wrEntries (m : Memory) (red : Nat) (o : OpSet) (n : Nat) (acc : List Int) (x : Int) : Memory :=
  let rows := runsOf n 256 acc
  (List.range rows.length).foldl (fun m i =>
    let b := rowBest red (rows.getD i [])
    let w := lowBits 32 b.2 + (o.nbase + b.1) % 2 ^ 32 * 2 ^ 32 + lowBits 16 x * 2 ^ 64
    wrNat m (o.rBase * 64 + 16 * i) 16 w) m

/-- Requantise every row of a tile in groups of 32 columns (R119); none is SCALE_RANGE. -/
def requantRows (h : Hdr) (x : Int) (rows : List (List Int)) : Option (List (List GroupOut)) :=
  rows.mapM (fun r => (runsOf 32 64 r).mapM (requant h x))

/-- Write the rows of a tile (R119). -/
def wrTile (m : Memory) (base : Nat) (h : Hdr) (rstr row0 col0 : Nat) (rows : List (List GroupOut)) : Memory :=
  (List.range rows.length).foldl (fun m r => wrRow m base h rstr (row0 + r) col0 (rows.getD r [])) m

/-- Second pass of the output stage: reduction entries, payload and scale plane, and the elements saturated; none is
SCALE_RANGE, found before a byte is written (log 18). -/
def outSecond (m : Memory) (mod : Bool) (red : Nat) (o : OpSet) (oh : Hdr) (n : Nat) (x : Int) (acc sc : List Int) :
    Option (Memory × Nat) :=
  let m1 := if red = 0 then m else wrEntries m red o n acc x
  if o.ronly && decide (red ≠ 0) then some (m1, 0) else
  let rows := runsOf n 256 sc
  let qs := if mod then some (rows.map (fun r => [GroupOut.mk r none 0])) else requantRows oh (x + o.osh) rows
  match qs with
  | none => none
  | some qs => some (wrTile m1 (o.oBase * 64) oh (o.oRstr * 64) o.oRow0 o.oCol0 qs,
      (qs.flatMap (fun r => r.map (·.sat))).foldl (· + ·) 0)

/-- The image that ACCRD writes (R98). -/
def wrImage (m : Memory) (unit : Nat) (b : Bank) : Memory :=
  let m1 := wrNat m (unit * 64) 64 (lowBits 16 b.x + b.shape % 8 * 2 ^ 16 + b2n b.mod * 2 ^ 19)
  (List.range b.acc.length).foldl (fun m i => wrNat m (unit * 64 + 64 + 4 * i) 4 (lowBits 32 (b.acc.getD i 0))) m1

end Sys2Proof.Machine
end

