-- ==== Sys2Proof/Machine/RowFn.lean ====
section
/-! DEFINITION. Row values, row-scalar entries, the interpolating tables and the row functions (R126 to R140). -/

namespace Sys2Proof.Machine

/-! ### Tables (R134, R136) -/

/-- Rounded half to even: `a ÷ b`. -/
def divRound (a b : Nat) : Nat :=
  let q := a / b
  let r := a % b
  if b < 2 * r ∨ (2 * r = b ∧ q % 2 = 1) then q + 1 else q

/-- The floor of the 2^n-th root. -/
def rootPow : Nat → Nat → Nat
  | 0, v => v
  | n + 1, v => rootPow n v.sqrt

/-- 2^(i/256) × 2^30 rounded (R136): half of the floor of its double, rounded up. -/
def exp2Entry (i : Nat) : Nat := (rootPow 8 (2 ^ (7680 + i + 256)) + 1) / 2

/-- The first `n` binary places of the logarithm of `x` ÷ 2^256, for 1 ≤ x ÷ 2^256 < 2, by repeated squaring. -/
def log2Bits : Nat → Nat → Nat → Nat
  | 0, _, acc => acc
  | n + 1, x, acc =>
    let y := x * x / 2 ^ 256
    if 2 ^ 257 ≤ y then log2Bits n (y / 2) (2 * acc + 1) else log2Bits n y (2 * acc)

/-- log2(1 + i/256) × 2^30 rounded (R136). -/
def log2Entry (i : Nat) : Nat := (log2Bits 31 ((256 + i) * 2 ^ 248) 0 + 1) / 2

/-- 2^30 ÷ (1 + i/256) rounded (R136). -/
def recipEntry (i : Nat) : Nat := divRound (2 ^ 38) (256 + i)

/-- 2^30 ÷ √x at the start of segment `i` (R136), rounded: x is (128 + i) ÷ 128 below 2 and (i - 128 + 128) ÷ 64 from 2. -/
def rsqrtEntry (i : Nat) : Nat :=
  let num := if i < 128 then 2 ^ 62 * 128 / (128 + i) else 2 ^ 62 * 64 / i
  (num.sqrt + 1) / 2

/-- Entry `i` of a fixed table; entry 256 is its end value (R136). -/
def tabExp2 (i : Nat) : Int := if i = 256 then 2 ^ 31 else exp2Entry i
def tabLog2 (i : Nat) : Int := if i = 256 then 2 ^ 30 else log2Entry i
def tabRecip (i : Nat) : Int := if i = 256 then 2 ^ 29 else recipEntry i
def tabRsqrt (i : Nat) : Int := if i = 256 then 2 ^ 29 else rsqrtEntry i

/-- Interpolation (R134). -/
def interp (t : Nat → Int) (i phi : Nat) : Int := t i + rq ((t (i + 1) - t i) * phi) 16

/-! ### Lane functions (R135, R140, R141) -/

/-- The input u of the lane functions, in Q16.16 (R135). -/
def laneIn (v r : Int) (imul : Nat) : Int := satS 32 (rq (v * imul) (-(r + 1)))

/-- EXP2 of u, at row exponent −30 (R135). -/
def laneExp2 (u : Int) : Int :=
  let n := u / 65536
  let f := (u % 65536).toNat
  satS 32 (rq (interp tabExp2 (f / 256) (f % 256 * 256)) (-n))

/-- LOG2 of u, at row exponent −16, and whether u lies outside its domain (R135). -/
def laneLog2 (u : Int) : Int × Bool :=
  if u ≤ 0 then (-(2 ^ 31), true) else
    let w := u.toNat
    let p := Nat.log2 w
    let f := w - 2 ^ p
    ((p - 16) * 65536 + rq (interp tabLog2 (f * 2 ^ 8 / 2 ^ p) (f * 2 ^ 24 / 2 ^ p % 2 ^ 16)) 14, false)

/-- LOADABLE of u: the value and its row exponent (R140, R141). -/
def laneLoad (tb : Option LTable) (u : Int) : Int × Int :=
  match tb with
  | none => (u, -16)
  | some t =>
    let d := u - t.lo
    let i := d / ((2 ^ t.step : Nat) : Int)
    let rho := d % ((2 ^ t.step : Nat) : Int)
    let ent (n : Nat) : Int := if n = 256 then t.endv else t.t.getD n 0
    let pass := satS 32 (rq u (t.oexp + 16))
    if i < 0 then (if t.loMode then pass else ent 0, t.oexp)
    else if 255 < i then (if t.hiMode then pass else t.endv, t.oexp)
    else (ent i.toNat + rq ((ent (i.toNat + 1) - ent i.toNat) * rho) t.step, t.oexp)

/-! ### Row-scalar entries (R130, R138) -/

/-- A row-scalar entry (R130). -/
structure RowScalar where
  s : Int
  e : Int
  idx : Nat
  deriving DecidableEq, Repr

/-- Read entry `i` of a vector at a unit. -/
def rdScalar (m : Memory) (unit i : Nat) : RowScalar :=
  let w := rdNat m (unit * 64 + 16 * i) 16
  { s := signed 48 (bitsOf w 0 48), e := signed 16 (bitsOf w 48 16), idx := bitsOf w 64 32 }

/-- Write entry `i` of a vector at a unit; its reserved bits are zero (R130). -/
def wrScalar (m : Memory) (unit i : Nat) (x : RowScalar) : Memory :=
  wrNat m (unit * 64 + 16 * i) 16 (lowBits 48 x.s + lowBits 16 x.e * 2 ^ 48 + x.idx % 2 ^ 32 * 2 ^ 64)

/-- Write a vector from entry 0 on. -/
def wrScalars (m : Memory) (unit : Nat) (xs : List RowScalar) : Memory :=
  (List.range xs.length).foldl (fun m i => wrScalar m unit i (xs.getD i ⟨0, 0, 0⟩)) m

/-- An exponent saturated to 16 bits, and whether it was (R138). -/
def satExp (e : Int) : Int × Bool := (satS 16 e, !fitsS 16 e)

/-- A table result t × 2^(−30) × 2^(−h) as an entry with S in [2^30, 2^31) (R138). -/
def normEntry (neg : Bool) (t h : Int) : RowScalar × Bool :=
  let big := decide (2 ^ 30 ≤ t)
  let s := if big then t else 2 * t
  let (e, o) := satExp (if big then -30 - h else -31 - h)
  ({ s := if neg then -s else s, e := e, idx := 0 }, o)

/-- Is the value of an entry below 2^(−eps) (R138)? -/
def belowEps (x : RowScalar) (eps : Nat) : Bool :=
  if x.s ≤ 0 then true else
    let p := x.e + eps
    if 0 ≤ p then false else decide (x.s < ((2 ^ (-p).toNat : Nat) : Int))

/-- The input after EPSL (R138). -/
def raiseEps (x : RowScalar) (epsl : Nat) : RowScalar :=
  if epsl ≠ 0 ∧ belowEps x epsl = true then { x with s := 1, e := -(epsl : Int) } else x

/-- RECIP of an entry and whether it adds to RFE_DOMAIN (R138). The reciprocal of zero is not stated: it is the free
value `fw`, with S in the stated range (log 21). -/
def rowRecip (fw : W64) (epsl : Nat) (x0 : RowScalar) : RowScalar × Bool :=
  let x := raiseEps x0 epsl
  let w := x.s.natAbs
  if w = 0 then
    let v : Int := 2 ^ 30 + ((fw.toNat % 2 ^ 30 : Nat) : Int)
    ({ s := if bitOf fw.toNat 30 then -v else v, e := signed 16 (bitsOf fw.toNat 32 16), idx := 0 }, false)
  else
    let p := Nat.log2 w
    let f := w - 2 ^ p
    normEntry (decide (x.s < 0)) (interp tabRecip (f * 2 ^ 8 / 2 ^ p) (f * 2 ^ 24 / 2 ^ p % 2 ^ 16)) (p + x.e)

/-- RSQRT of an entry and whether it adds to RFE_DOMAIN (R138). -/
def rowRsqrt (epsl : Nat) (x0 : RowScalar) : RowScalar × Bool :=
  let x := raiseEps x0 epsl
  if x.s ≤ 0 then ({ s := 2 ^ 31 - 1, e := 0, idx := 0 }, true) else
    let w := x.s.natAbs
    let p := Nat.log2 w
    let f := w - 2 ^ p
    let h : Int := (p + x.e) / 2
    if (p + x.e) % 2 = 0 then
      normEntry false (interp tabRsqrt (f * 2 ^ 7 / 2 ^ p) (f * 2 ^ 23 / 2 ^ p % 2 ^ 16)) h
    else
      normEntry false (interp tabRsqrt (128 + f * 2 ^ 7 / 2 ^ p) (f * 2 ^ 23 / 2 ^ p % 2 ^ 16)) h

/-! ### Row operands (R126 to R129) -/

/-- The row-operand record (R127). -/
structure RowRec where
  hdr : Nat
  rstr : Nat
  row0 : Nat
  col0 : Nat
  rows : Nat
  cols : Nat
  wexp : Int
  deriving DecidableEq, Repr

/-- The fields of a row-operand record. -/
def rowRecOf (w : Nat) : RowRec :=
  { hdr := bitsOf w 0 16, rstr := bitsOf w 16 16, row0 := bitsOf w 32 16, col0 := bitsOf w 48 16, rows := bitsOf w 64 16,
    cols := bitsOf w 80 16, wexp := signed 16 (bitsOf w 96 16) }

/-- Does REC_N complement bits [95:0] (R128)? -/
def rowRecPair (w : Nat) : Bool := compl 96 (bitsOf w 0 96) (bitsOf w 128 96)

/-- The named tensor as an operand whose rows and columns are counted from its first. -/
def rowTensor (m : Memory) (r : RowRec) : Opnd :=
  { mem := m, base := r.hdr * 64, h := hdrOf (hdrWord m (r.hdr * 64)), rstr := r.rstr * 64, rows := r.row0 + r.rows,
    cols := r.col0 + r.cols }

/-- The bytes that a record's rows and columns occupy, with the header. -/
def rowSpan (m : Memory) (r : RowRec) : Span :=
  (r.hdr * 64, 64) :: tileSpan (r.hdr * 64) (rowTensor m r).h (r.rstr * 64) r.row0 r.col0 r.rows r.cols

/-- The checks of one record (R128); a second operand may have RSTR zero. Extents outside R127 are ROW_FORM (log 20). -/
def rowChecks (m : Memory) (unit : Nat) (second : Bool) : List (Bool × Stop) :=
  let w := unitBits m unit
  let r := rowRecOf w
  let t := rowTensor m r
  [ (decide (Config.topUnit ≤ unit), rejectS .scratchRange),
    (!rowRecPair w, faultS .pairMismatch),
    (decide (Config.topUnit ≤ r.hdr), rejectS .scratchRange),
    (!hdrPair m (r.hdr * 64), faultS .pairMismatch),
    (!hdrValid m (r.hdr * 64), rejectS .badHeader),
    (decide (t.h.form ≠ 0), rejectS .rowForm),
    (t.h.modular, rejectS .oclassMismatch),
    (decide (r.rows = 0) || decide (r.cols = 0) || (!second && decide (r.rstr = 0)), rejectS .zeroExtent),
    (decide (256 < r.rows) || decide (r.cols % 32 ≠ 0) || decide (65504 < r.cols) || decide (r.col0 % 32 ≠ 0),
      rejectS .rowForm),
    (pastTop (rowSpan m r), rejectS .scratchRange) ]

/-- Rows of lane values with their row exponent, and the values saturated on loading. -/
structure Lanes where
  rows : List (List Int)
  r : Int
  sat : Nat
  deriving DecidableEq, Repr

/-- Load a record at row exponent `r` (R126). -/
def loadRec (m : Memory) (rec' : RowRec) (r : Int) : Lanes :=
  let t := rowTensor m rec'
  let raw := (List.range rec'.rows).map (fun i => (List.range rec'.cols).map (fun j =>
    rq (t.elem (rec'.row0 + i) (rec'.col0 + j) * t.h.mult) (15 + r - t.exp (rec'.row0 + i) (rec'.col0 + j))))
  { rows := raw.map (fun l => l.map (satS 32)), r := r,
    sat := (raw.map (fun l => (l.filter (fun v => !fitsS 32 v)).length)).foldl (· + ·) 0 }

/-- Load a bank (R126). -/
def loadBank (b : Bank) : Lanes := { rows := runsOf (shapeN b.shape) 256 b.acc, r := b.x, sat := 0 }

/-- Write lane rows, each with its row exponent, to a DST record in groups of 32 columns (R129); none is SCALE_RANGE, found before
a row is written (the model's choice, as for a tile: log 18). -/
def storeRec (m : Memory) (rec' : RowRec) (rows : List (List Int × Int)) : Option (Memory × Nat) :=
  let h := (rowTensor m rec').h
  match rows.mapM (fun x => (runsOf 32 2048 x.1).mapM (requant h x.2)) with
  | none => none
  | some qs => some (wrTile m (rec'.hdr * 64) h (rec'.rstr * 64) rec'.row0 rec'.col0 qs,
      (qs.flatMap (fun x => x.map (·.sat))).foldl (· + ·) 0)

/-- Does a row exponent stay within 16 bits (R126)? -/
def expOk (r : Int) : Bool := fitsS 16 r

/-! ### Reductions and element-wise operations (R132, R133) -/

/-- One row reduced (R132): the entry and the terms limited by SUMSQ. -/
def reduceRow (sub sqsh : Nat) (r : Int) (row : List Int) : RowScalar × Nat :=
  if sub = 0 then ({ s := row.foldl (· + ·) 0, e := r, idx := 0 }, 0)
  else if sub = 3 then
    let ts := row.map (fun v => rq (v * v) sqsh)
    ({ s := (ts.map (fun t => min t (2 ^ 31 - 1))).foldl (· + ·) 0, e := 2 * r + sqsh, idx := 0 },
      (ts.filter (fun t => decide (2 ^ 31 - 1 < t))).length)
  else
    let b := rowBest sub row
    ({ s := b.2, e := r, idx := b.1 }, 0)

/-- S brought into the I32 range by the smallest shift (R133, SMUL): the entry with E raised by it. -/
def fitScalar (x : RowScalar) : RowScalar :=
  let k := shiftFor 32 [x.s] 17 0
  { x with s := rq x.s k, e := x.e + k }

/-- One lane of a two-operand operation, SUB 0 to 4 (R133). -/
def aluLane (sub sh : Nat) (v b : Int) : Int :=
  match sub with
  | 0 => v + b | 1 => v - b | 2 => rq (v * b) sh | 3 => max v b | _ => min v b

/-- One row against its entry, SUB 5 to 7: the row and its exponent (R133). -/
def aluScalar (sub : Nat) (r : Int) (x : RowScalar) (row : List Int) : List Int × Int :=
  if sub = 7 then
    let y := fitScalar x
    (row.map (fun v => rq (v * y.s) 30), r + y.e + 30)
  else
    let a := satS 32 (rq x.s (r - x.e))
    (row.map (fun v => if sub = 5 then v + a else v - a), r)

/-- Values outside I32 in some rows. -/
def countSat (rows : List (List Int)) : Nat :=
  (rows.map (fun l => (l.filter (fun v => !fitsS 32 v)).length)).foldl (· + ·) 0

end Sys2Proof.Machine
end

