-- ==== Sys2Proof/Machine/MatrixEngine.lean ====
section
/-! DEFINITION. The Matrix Engine and the Row Function Engine: how the command at the head of either queue starts
(R95 to R121, R125 to R152). -/

namespace Sys2Proof.Machine

/-- Add to counters of a core's record: (offset, amount, whether it is a saturating 32-bit counter) (R468, R479). -/
def coreBumps (s : State) (c : Nat) (l : List (Nat × Nat × Bool)) : State :=
  l.foldl (fun s x => if x.2.1 = 0 then s else
    if x.2.2 then s.bump32 (coreCtr c x.1) x.2.1 else s.bump (coreCtr c x.1) x.2.1) s

/-- Engine `e + 1` of a core works: the marks under which the timed counters that this moves stop reading zero (log 16). -/
def engineMarks (s : State) (c : Nat) (e : Fin 5) : State :=
  coreBumps s c [([0x00, 0x30, 0x68, 0xC8, 0xC8].getD e.val 0, 1, false), (0x38, 1, false), (0xC8, 1, false)]

/-! ### Who holds a bank (R99, R145) -/

/-- The bank that a row command reads or writes, if it does. -/
def rowBank (op : EngineOp) : Option (Fin 2) :=
  match op with | .row _ _ true f => some f.bank | _ => none

/-- Does a row command in progress hold the bank? -/
def rfeHolds (k : Core) (b : Fin 2) : Bool :=
  (k.queue 1).prog.any (fun p => !p.done && decide (rowBank p.entry.op = some b))

/-- Does a Matrix Engine command in progress hold the bank: one that names it, its output stage included, or a chain? -/
def meHolds (k : Core) (b : Fin 2) : Bool :=
  (k.queue 0).prog.any (fun p => !p.done && (match p.entry.op with
    | .tmul _ _ _ b' _ _ _ => decide (b' = b) | .accrd _ b' => decide (b' = b) | .fchain _ _ _ => true | _ => false))

/-- Is a chain in progress? -/
def chainRuns (k : Core) : Bool := (k.queue 0).prog.any (fun p => !p.done && p.chain.isSome)

/-! ### TMUL and ACCRD -/

/-- A core whose command has started: its slots are FILLING or have an OUT use, and stay so if it is then stopped (R167, R169). -/
def slotsBegun (s : State) (c : Nat) (k : Core) (rs ws : List (Nat × Nat)) : State :=
  s.setCore c { k with rings := slotsStart k.rings rs ws }

/-- The slots a TMUL's operands use: inputs first, then outputs (R92, R165). B from the hold uses none (R167). -/
def tmulSlots (k : Core) (w : Nat) (t : Tmul) : Except Stop (List (Nat × Nat) × List (Nat × Nat)) :=
  let o := opSetOf w
  let ins := [(opndA k o t.shape).parts] ++ (if useHold k o t.shape then [] else [(opndB k o t.shape).parts])
    ++ (if t.eopNow ≠ 0 then [(opndE k o t.shape).parts] else []) ++ (if t.ploadNow o then [imageSpan o.pBase] else [])
  let out := if t.ends && !(o.ronly && decide (t.redNow ≠ 0)) then [(o.oBase * 64, 64) :: outSpan k o t.shape] else []
  let outs := out ++ (if t.redNow ≠ 0 then [entrySpan o t.shape] else [])
  match ringsOf 1 false k.rings ins, ringsOf 1 true k.rings outs with
  | .error e, _ => .error e
  | _, .error e => .error e
  | .ok r, .ok w => .ok (r, w)

/-- A slot that an input's header lies in and that may not be read yet (R168): the command makes no access before. -/
def tmulEarly (k : Core) (w : Nat) (t : Tmul) : Option SlotHold :=
  let o := opSetOf w
  if opSetPair w = false then none else
  match slotsWait 1 k.rings
      (([o.aBase] ++ (if t.eopNow ≠ 0 then [o.eBase] else []) ++ (if t.ploadNow o then [o.pBase] else [])).map (· * 64)) with
  | some x => some x
  | none => if useHold k o t.shape then none else slotWait 1 k.rings (o.bBase * 64)

/-- Does a TMUL open its bank with an exponent that the spec does not state: MODULAR, which ignores XACC, with no image
(R97, R115)? -/
def Tmul.freeX (t : Tmul) (o : OpSet) : Bool := t.mod && t.begins && !t.ploadNow o

/-- The entry image of a TMUL (R96, R97): accumulators and exponent. A MODULAR command ignores XACC (R115), and what X it opens
the bank with is not stated: it is the free value `fx` (log 82). -/
def tmulEntry (k : Core) (fx : Int) (o : OpSet) (t : Tmul) : List Int × Int :=
  if t.ploadNow o then (imageAcc k.scratch o.pBase, imageX k.scratch o.pBase)
  else if t.begins then (List.replicate 4096 0, if t.mod then fx else o.xacc)
  else ((k.bank t.bank).acc, (k.bank t.bank).x)

/-- The counters of a product run `n` times (R124). -/
def productCtrs (cap : Nat) (a b : List (List KB)) (n : Nat) : List (Nat × Nat × Bool) :=
  let cs := productCounts cap a b
  [(0x18, n * cs.1, false), (0x08, n * cs.2.1, false), (0x10, n * cs.2.2, false)]

/-- Run the product and its output stage over the bank: GUARDED under R113 and R114, MODULAR under R115. -/
def tmulRun (k : Core) (fx : Int) (o : OpSet) (t : Tmul) : RunOut (Option (List Int × List Int)) :=
  let a := (opndA k o t.shape).allBlocks
  let b := (opndB k o t.shape).allBlocks
  let en := tmulEntry k fx o t
  let post (acc : List Int) (x : Int) : Option (Option (List Int × List Int)) :=
    if t.ends then (outFirst t.mod t.eopNow t.redNow o (opndE k o t.shape) (shapeN t.shape) acc x).map some else some none
  if t.mod then
    let acc := List.zipWith (fun u v => wrap32 (u + v)) en.1 (productSums true en.2 a b)
    match post acc en.2 with
    | some out => .done acc en.2 0 out
    | none => .fail .overflowUnresolved 0
  else guarded a b post 3 0 en.1 en.2

/-- The weight-stationary hold after a TMUL (R111): with WS set it holds that B under the command's tag, and a TMUL with
WS clear invalidates it. -/
def holdAfter (k : Core) (o : OpSet) (shape : Nat) : Option BHold :=
  if o.ws = false then none else
  some { bbase := o.bBase, shape := shape,
         rate := rateClass (opndA k o shape).h.etype (opndB k o shape).h.etype, bytes := bMem k o shape }

/-- TMUL at the head of the Matrix Engine's queue (R96 to R121). -/
def startTmul (s : State) (c : Nat) (k : Core) (e : QEntry) (opset : Nat) (t : Tmul) : StartOut :=
  let w := unitBits k.scratch opset
  let o := opSetOf w
  if rfeHolds k t.bank || (t.begins && decide ((k.bank t.bank).st = .output)) then .wait else
  match tmulEarly k w t with
  | some x => x.out s
  | none =>
  match tmulChecks (s.corePat k) k w t opset with
  | some st => .stop s st
  | none =>
  match tmulSlots k w t with
  | .error st => .stop s st
  | .ok (rs, ws) =>
  match slotBlocked k.rings rs ws with
  | some x => .stall x.1 x.2
  | none =>
  let begun := slotsBegun s c k rs ws
  let cap := slotCap (rateClass (opndA k o t.shape).h.etype (opndB k o t.shape).h.etype)
  let ctrs := productCtrs cap (opndA k o t.shape).allBlocks (opndB k o t.shape).allBlocks
  match walkErr (opndA k o t.shape) (opndB k o t.shape) with
  | some cd => .stop begun (faultS cd)
  | none =>
  match tmulRun k (signed 16 (bitsOf (Config.freeWord s.drawn).toNat 0 16)) o t with
  | .fail cd n => .stop (coreBumps begun c (ctrs (n + 1) ++ [(0xD0, n, true)])) (faultS cd)
  | .done acc x n out =>
    let k1 := { k with bhold := holdAfter k o t.shape, rings := slotsStart k.rings rs ws }
    let bk : Bank := { st := .open, shape := t.shape, mod := t.mod, x := x, acc := acc }
    let s1 := coreBumps { begun with drawn := s.drawn + b2n (t.freeX o) } c (ctrs (n + 1) ++ [(0xD0, n, true)])
    match out with
    | none => .go (s1.setCore c (k1.setBank t.bank bk)) (inFlight e rs ws)
    | some (accE, sc) =>
      match outSecond k.scratch t.mod t.redNow o (outHdr k o) (shapeN t.shape) x accE sc with
      | none => .stop s1 (faultS .scaleRange)
      | some (m, sat) =>
        let k2 := { k1 with scratch := m }
        .go (coreBumps (s1.setCore c (k2.setBank t.bank { bk with st := .output, acc := accE })) c [(0xE4, sat, true)])
          { inFlight e rs ws with output := some t.bank }

/-- ACCRD at the head of the queue (R98): it waits while the bank is held or in OUTPUT. ACC_STATE comes before SCRATCH_RANGE
(the model's choice: log 83). -/
def startAccrd (s : State) (c : Nat) (k : Core) (e : QEntry) (dst : Nat) (bank : Fin 2) : StartOut :=
  let b := k.bank bank
  if rfeHolds k bank || decide (b.st = .output) then .wait
  else if b.st = .empty then .stop s (rejectS .accState)
  else if pastTop (imageSpan dst) then .stop s (rejectS .scratchRange)
  else match ringsOf 1 true k.rings [imageSpan dst] with
    | .error st => .stop s st
    | .ok ws =>
      match slotBlocked k.rings [] ws with
      | some x => .stall x.1 x.2
      | none => .go (s.setCore c { k with scratch := wrImage k.scratch dst b, rings := slotsStart k.rings [] ws })
          (inFlight e [] ws)

/-! ### Row commands (R125 to R141) -/

/-- The source lanes of a row command: a bank or a record. -/
def rowSrc (k : Core) (bankSrc : Bool) (b : Fin 2) (src : Nat) : Lanes :=
  if bankSrc then loadBank (k.bank b) else
    let r := rowRecOf (unitBits k.scratch src)
    loadRec k.scratch r r.wexp

/-- The span of a row command's source in scratch. -/
def srcSpan (k : Core) (bankSrc : Bool) (src : Nat) : Span :=
  if bankSrc then [] else rowSpan k.scratch (rowRecOf (unitBits k.scratch src))

/-- A vector of `n` entries at a unit (R130). -/
def vecSpan (unit n : Nat) : Span := [(unit * 64, 16 * n)]

/-- What a row command does to the core: it stops, or it leaves the core with `rs` and `ws` as its operands' spans, its
counters and the free values it drew. -/
inductive RowOut
  | stop (st : Stop) (ctrs : List (Nat × Nat × Bool))
  | ok (k : Core) (ctrs : List (Nat × Nat × Bool)) (drawn : Nat)

/-- The operands of a row command: spans read and spans written. -/
def rowSpans (k : Core) (op : RowOp) (bankSrc : Bool) (src : Nat) (f : RowFields) : List Span × List Span :=
  let dst := rowSpan k.scratch (rowRecOf (unitBits k.scratch f.dst.toNat))
  let n := (rowSrc k bankSrc f.bank src).rows.length
  let srcs := if bankSrc then [] else [srcSpan k bankSrc src]
  match op with
  | .rfunc => if f.sub.toNat % 8 = 2 ∨ f.sub.toNat % 8 = 3 then
      ([vecSpan src f.param.toNat], [vecSpan f.dst.toNat f.param.toNat]) else (srcs, [dst])
  | .rred => (srcs, [vecSpan f.dst.toNat n])
  | .ralu => (srcs ++ (if f.sub.toNat ≤ 4 then [rowSpan k.scratch (rowRecOf (unitBits k.scratch (src + 1)))]
      else [vecSpan f.param.toNat n]), [dst])
  | .rrescale => ([], [])
  | .rtload => ([[(src * 64, 1088)]], [])
  | .rquant => (srcs, [dst])

/-- The checks of a row command (R127 to R131, R139): records in the order SRC, second operand, DST, then ranges,
overlap and the bank's state. A DST that names the same tensor as SRC works in place, whatever its other fields; so does a vector
at its source's unit (R129, log 84). -/
def rowStop (k : Core) (op : RowOp) (bankSrc : Bool) (src : Nat) (f : RowFields) : Option Stop :=
  let m := k.scratch
  let sc := decide (op = .rfunc) && decide (f.sub.toNat % 8 = 2 ∨ f.sub.toNat % 8 = 3)
  let recSrc := !bankSrc && !sc && decide (op ≠ .rtload)
  let recDst := decide (op = .ralu ∨ op = .rquant) || (decide (op = .rfunc) && !sc)
  let rec2 := decide (op = .ralu) && decide (f.sub.toNat ≤ 4)
  let sp := rowSpans k op bankSrc src f
  let vec := sc || decide (op = .rred)
  let inPlace := if vec then sc && decide (src = f.dst.toNat)
    else recSrc && decide ((rowRecOf (unitBits m src)).hdr = (rowRecOf (unitBits m f.dst.toNat)).hdr)
  let hdr := rdNat m (src * 64) 64
  firstStop (
    (if recSrc then rowChecks m src false else []) ++
    (if rec2 then rowChecks m (src + 1) true else []) ++
    (if recDst then rowChecks m f.dst.toNat false else []) ++
    [ (sp.1.any pastTop || sp.2.any pastTop, rejectS .scratchRange),
      (bankSrc && (if op = .rrescale then decide ((k.bank f.bank).st ≠ .open) else decide ((k.bank f.bank).st = .empty)),
        rejectS .accState),
      ((recDst || vec) && (if inPlace then (sp.1.drop 1).any (fun p => sp.2.any (fun q => spansMeet p q))
        else sp.1.any (fun p => sp.2.any (fun q => spansMeet p q))), rejectS .overlap),
      (decide (op = .rtload) && (decide (24 < bitsOf hdr 32 5) || decide (bitsOf hdr 39 9 ≠ 0)
        || decide (bitsOf hdr 96 416 ≠ 0)), rejectS .badTable) ])

/-- Lanes written to the DST record, with the counters so far. At SCALE_RANGE no row has been written (log 18). -/
def rowStore (k : Core) (f : RowFields) (rows : List (List Int × Int)) (sat dom : Nat) : RowOut :=
  if rows.all (fun x => expOk x.2) = false then .stop (faultS .scaleRange) [(0xD4, sat, true), (0xD8, dom, true)] else
  match storeRec k.scratch (rowRecOf (unitBits k.scratch f.dst.toNat)) rows with
  | none => .stop (faultS .scaleRange) [(0xD4, sat, true), (0xD8, dom, true)]
  | some (m, rs) => .ok { k with scratch := m } [(0xD4, sat, true), (0xD8, dom, true), (0xE4, rs, true)] 0

/-- A lane function over some lanes (R135, R140): the rows, their exponent and the values outside the domain of LOG2. -/
def laneFn (tb : Option LTable) (fn imul : Nat) (l : Lanes) : List (List Int) × Int × Nat :=
  let us := l.rows.map (fun row => row.map (fun v => laneIn v l.r imul))
  if fn = 0 then (us.map (fun row => row.map laneExp2), -30, 0)
  else if fn = 1 then
    (us.map (fun row => row.map (fun u => (laneLog2 u).1)), -16,
      (us.map (fun row => (row.filter (fun u => (laneLog2 u).2)).length)).foldl (· + ·) 0)
  else (us.map (fun row => row.map (fun u => (laneLoad tb u).1)), (laneLoad tb 0).2, 0)

/-- The effect of a row command (R131 to R141). `drawn` numbers the next free value. A value of RQUANT beyond I32 is not saturated
and counts no RFE_SAT, and an I32 PLANE tensor stores its low 32 bits (the model's choice, R131 and R43 being silent: log 85). -/
def rowRun (k : Core) (drawn : Nat) (op : RowOp) (bankSrc : Bool) (src : Nat) (f : RowFields) : RowOut :=
  let sub := f.sub.toNat
  let param := f.param.toNat
  let l := rowSrc k bankSrc f.bank src
  match op with
  | .rfunc =>
    if sub % 8 = 2 ∨ sub % 8 = 3 then
      let xs := (List.range param).map (fun i =>
        if sub % 8 = 2 then rowRecip (Config.recipOfZero (drawn + i)) (sub / 8) (rdScalar k.scratch src i)
        else rowRsqrt (sub / 8) (rdScalar k.scratch src i))
      .ok { k with scratch := wrScalars k.scratch f.dst.toNat (xs.map (·.1)) }
        [(0xD8, (xs.filter (·.2)).length, true)] param
    else
      let y := laneFn k.table (sub % 8) param l
      rowStore k f (y.1.map (fun row => (row, y.2.1))) l.sat y.2.2
  | .rred =>
    let xs := l.rows.map (reduceRow sub param l.r)
    if xs.all (fun x => expOk x.1.e) = false then .stop (faultS .scaleRange) [(0xD4, l.sat, true)] else
    .ok { k with scratch := wrScalars k.scratch f.dst.toNat (xs.map (·.1)) }
      [(0xD4, l.sat + (xs.map (·.2)).foldl (· + ·) 0, true)] 0
  | .ralu =>
    if sub ≤ 4 then
      let r2 := rowRecOf (unitBits k.scratch (src + 1))
      let b := loadRec k.scratch { r2 with rows := l.rows.length, cols := (l.rows.headD []).length } l.r
      let raw := List.zipWith (fun u v => List.zipWith (aluLane sub param) u v) l.rows b.rows
      let r' := if sub = 2 then 2 * l.r + param else l.r
      rowStore k f ((raw.map (fun x => x.map (satS 32))).map (fun x => (x, r'))) (l.sat + b.sat + countSat raw) 0
    else
      let raw := (List.range l.rows.length).map (fun i => aluScalar sub l.r (rdScalar k.scratch param i) (l.rows.getD i []))
      rowStore k f (raw.map (fun x => (x.1.map (satS 32), x.2))) (l.sat + countSat (raw.map (·.1))) 0
  | .rrescale =>
    let b := k.bank f.bank
    .ok (k.setBank f.bank { b with acc := b.acc.map (fun v => rq v param) }) [] 0
  | .rtload =>
    let w := rdNat k.scratch (src * 64) 64
    let tb : LTable :=
      { lo := signed 32 (bitsOf w 0 32), step := bitsOf w 32 5, loMode := bitOf w 37, hiMode := bitOf w 38,
        oexp := signed 16 (bitsOf w 48 16), endv := signed 32 (bitsOf w 64 32),
        t := (List.range 256).map (fun i => signed 32 (rdNat k.scratch (src * 64 + 64 + 4 * i) 4)) }
    .ok { k with table := some tb } [] 0
  | .rquant =>
    let raw := l.rows.map (fun row => row.map (fun v => rq (v * param) 15))
    rowStore k f (raw.map (fun row => (row, l.r))) l.sat 0

/-- The bytes that a row command reads before it knows its operands' extents: a record or vector at SRC, the header it names, and
those of a second operand (R127, R168). A record whose halves disagree names no header. -/
def rowReads (k : Core) (op : RowOp) (bankSrc : Bool) (src : Nat) (f : RowFields) : List Nat :=
  let hdrOfRec (u : Nat) : List Nat :=
    if rowRecPair (unitBits k.scratch u) then [u * 64, (rowRecOf (unitBits k.scratch u)).hdr * 64] else [u * 64]
  (if bankSrc then []
    else if op = .rtload ∨ (op = .rfunc ∧ 2 ≤ f.sub.toNat % 8 ∧ f.sub.toNat % 8 ≤ 3) then [src * 64] else hdrOfRec src)
    ++ (if op = .ralu then (if f.sub.toNat ≤ 4 then hdrOfRec (src + 1) else [f.param.toNat * 64]) else [])

/-- A row command at the head of the Row Function Engine's queue: it waits for a chain and for its bank (R99, R145). -/
def startRow (s : State) (c : Nat) (k : Core) (e : QEntry) (op : RowOp) (src : Nat) (bankSrc : Bool) (f : RowFields) :
    StartOut :=
  if chainRuns k || (bankSrc && (meHolds k f.bank || decide ((k.bank f.bank).st = .output))) then .wait else
  match slotsWait 2 k.rings (rowReads k op bankSrc src f) with
  | some x => x.out s
  | none =>
  match rowStop k op bankSrc src f with
  | some st => .stop s st
  | none =>
  let sp := rowSpans k op bankSrc src f
  match ringsOf 2 false k.rings sp.1, ringsOf 2 true k.rings sp.2 with
  | .error st, _ => .stop s st
  | _, .error st => .stop s st
  | .ok rs, .ok ws =>
  match slotBlocked k.rings rs ws with
  | some x => .stall x.1 x.2
  | none =>
  match rowRun k s.drawn op bankSrc src f with
  | .stop st ctrs => .stop (coreBumps (slotsBegun s c k rs ws) c ctrs) st
  | .ok k1 ctrs n =>
    .go (coreBumps ({ s with drawn := s.drawn + n }.setCore c { k1 with rings := slotsStart k1.rings rs ws }) c ctrs)
      (inFlight e rs ws)

end Sys2Proof.Machine
end

