-- ==== Sys2Proof/Machine/Pages.lean ====
section
/-! DEFINITION. Vault space: segments, pages, parity, the KV space and its translation (R189 to R191, R198, R303, R304,
R315, R319, R325, R333). Physical address = vault × 2^30 + byte; frame number = vault × 16,384 + frame. -/

namespace Sys2Proof.Machine

/-- First physical byte of a frame. -/
def frameAddr (f : Nat) : Nat := f * 65536

/-- The vault and the row of a physical byte (R198). -/
def physVault (a : Nat) : Nat := a / Config.vaultBytes
def physRow (a : Nat) : Nat := bitsOf a 17 13
/-- Bank of a physical byte (R198). -/
def physBank (a : Nat) : Nat := bitsOf a 11 6

/-- An access opens its row, and leaves it open (R233). The die caches are not modelled, so that an access by an engine counts as
one that reaches the array (log 88). -/
def openRow (s : State) (a : Nat) : State :=
  let v := s.vault (physVault a)
  s.setVault (physVault a) { v with openRows := Sparse.set none v.openRows (physBank a) (some (physRow a)) }

/-- An access to `n` bytes opens every row that it reaches, in ascending order (R233). -/
def openRows (s : State) (a n : Nat) : State :=
  (List.range ((a % 2048 + n + 2047) / 2048)).foldl (fun s i => openRow s (a / 2048 * 2048 + 2048 * i)) s

/-- Row clear of `n` frames from `f` on: their bytes are zero and their rows stay open (R230, R233). -/
def clearFrames (s : State) (f n : Nat) : State :=
  openRows { s with mem := zeroRange s.mem (frameAddr f) (n * 65536) } (frameAddr f) (n * 65536)

/-- Has the die under a physical byte been lost with its PLL (R333)? -/
def State.lostAt (s : State) (a : Nat) : Bool := Sparse.get false s.helm.diesLost (dieOfSite (physVault a))

/-- VAULT_UE of a physical byte: the record names the vault and row (R485). -/
def vaultUe (a : Nat) : Stop := { faultS .vaultUe with x56 := physVault a + physRow a * 2 ^ 13 }

/-- Does the segment carry stripe parity (R315)? -/
def Segment.protected' (g : Segment) : Bool := !g.wr

/-- The frames of the other pages of a page's stripe, with its parity page (R315). -/
def Segment.stripeOthers (g : Segment) (page : Nat) : List Nat :=
  let k := page / 7
  (((List.range 7).map (· + 7 * k)).filter (fun j => decide (j ≠ page))).filterMap (fun j => g.frames[j]?)
    ++ (g.parity[k]?).toList

/-- The byte at `ofs` of a page as parity rebuilds it: the exclusive-or of the stripe's other pages and its parity page
(R325). -/
def Segment.rebuild (m : Memory) (g : Segment) (page ofs : Nat) : Byte :=
  (g.stripeOthers page).foldl (fun b f => b ^^^ rdByte m (frameAddr f + ofs)) 0

/-- Physical address of a segment's byte. -/
def Segment.phys (g : Segment) (ofs : Nat) : Nat := frameAddr (g.frames.getD (ofs / 65536) 0) + ofs % 65536

/-- A byte of a segment as the device reads it: rebuilt from parity while its die is lost (R333). -/
def segGet (s : State) (g : Segment) (ofs : Nat) : Option Byte :=
  if s.lostAt (g.phys ofs) then
    if g.protected' then some (g.rebuild s.mem (ofs / 65536) (ofs % 65536)) else none
  else some (rdByte s.mem (g.phys ofs))

/-- The new frame of a page under migration, to which every write is applied too (R319, DUAL). -/
def dualFrame (s : State) (p seg page : Nat) : Option Nat :=
  (s.helm.migs.find? (fun m => decide (m.pat = p ∧ m.seg = seg ∧ m.page = page))).map
    (fun m => if m.copied then m.oldF else m.newF)

/-- Write a byte of vault memory; its row stays open. -/
def State.wrMem (s : State) (a : Nat) (b : Byte) : State := openRow { s with mem := wrByte s.mem a b } a

/-- Write a byte of a segment: the page, its other frame while it is DUAL (R319), and under parity the stripe's parity
byte as parity XOR old XOR new (R315, R333). -/
def segPut (s : State) (p seg : Nat) (g : Segment) (ofs : Nat) (b : Byte) : State :=
  let old := (segGet s g ofs).getD 0
  let s1 := s.wrMem (g.phys ofs) b
  let s2 := match dualFrame s p seg (ofs / 65536) with
    | none => s1 | some f => s1.wrMem (frameAddr f + ofs % 65536) b
  if g.protected' then
    match g.parity[ofs / 65536 / 7]? with
    | none => s2
    | some f => s2.wrMem (frameAddr f + ofs % 65536) (rdByte s2.mem (frameAddr f + ofs % 65536) ^^^ old ^^^ b)
  else s2

/-- Write bytes of a segment from `ofs` upwards. -/
def segPuts (s : State) (p seg : Nat) (g : Segment) (ofs : Nat) : List Byte → State
  | [] => s
  | b :: bs => segPuts (segPut s p seg g ofs b) p seg g (ofs + 1) bs

/-- Bytes of a segment from `ofs` upwards; a byte that cannot be read is zero. -/
def segBytes (s : State) (g : Segment) (ofs n : Nat) : List Byte :=
  (List.range n).map (fun i => (segGet s g (ofs + i)).getD 0)

/-- A SEG address as one number (R174). -/
def segAddr (seg ofs : Nat) : Nat := seg * 2 ^ 40 + ofs % 2 ^ 40

/-- The checks of R190, in order: the segment that a SEG address reaches. -/
def xlateSeg (p : Option Pattern) (seg ofs : Nat) (needR needW : Bool) : Except Stop Segment :=
  let bad (c : Code) : Except Stop Segment := .error { faultS c with x56 := segAddr seg ofs }
  match p.bind (fun p => p.segs[seg]?) with
  | none => bad .protect
  | some g =>
    if g.pairOk = false then .error (faultS .pairMismatch)
    else if g.length ≤ ofs then bad .protect
    else if (needR && !g.rd) || (needW && !g.wr) then bad .protect
    else .ok g

/-! ### The KV space (R191, R297, R303, R304) -/

/-- A batch-table entry's 64 bits (R297). -/
def BatchEnt.bits (b : BatchEnt) : Nat :=
  b.slot % 2 ^ 18 + b.ntok % 2 ^ 13 * 2 ^ 18 + b.row0 % 2 ^ 12 * 2 ^ 31 + b.pos0 % 2 ^ 21 * 2 ^ 43

/-- First byte of the batch shadow (R161). -/
def shadowBase : Nat := 0x2F1780

/-- The stream slot that a batch entry names, from the batch shadow; an entry with no tokens names none (R191, R297). -/
def shadowSlot (scratch : Memory) (entry : Nat) : Option Nat :=
  let w := rdNat scratch (shadowBase + 8 * entry) 8
  if bitsOf w 18 13 = 0 then none else some (bitsOf w 0 18)

/-- Physical address of a stream's page-table entry (R304). -/
def ptAddr (x : Stream) (nlhg l g : Nat) : Nat := x.ptVault * Config.vaultBytes + frameAddr x.ptFrame + (g * nlhg + l) * 8

/-- A KV page-table entry's 64 bits (R304). -/
def ptBits (frame pki : Nat) : Nat := 1 + frame / 16384 * 2 + frame % 16384 * 2 ^ 14 + pki % 2 ^ 16 * 2 ^ 28

/-- A stream-table entry by slot. -/
def State.stream (s : State) (slot : Nat) : Option Stream := Sparse.get none s.helm.streams slot

/-- Physical address of a KV byte (R191): key pair, page table, protection key, then the row within the page. -/
def xlateKv (s : State) (scratch : Memory) (p : Pattern) (entry lhg token byte : Nat) : Except Stop Nat :=
  let pr := p.manifest.params
  let addr := entry + lhg * 2 ^ 12 + token * 2 ^ 28 + byte * 2 ^ 49
  let bad (c : Code) : Except Stop Nat := .error { faultS c with x56 := addr }
  match shadowSlot scratch entry with
  | none => bad .kvUnmapped
  | some slot =>
    match s.stream slot with
    | none => bad .kvUnmapped
    | some x =>
      let g := token / 256
      let pt := ptAddr x pr.nlhg lhg g
      if x.keyOk = false then .error { faultS .pairMismatch with key := some slot }
      else if pr.nlhg ≤ lhg ∨ ceilDiv x.limit 256 ≤ g then bad .kvUnmapped
      else if s.lostAt pt then .error (vaultUe pt)
      else
        let w := rdNat s.mem pt 8
        let a := bitsOf w 1 13 * Config.vaultBytes + frameAddr (bitsOf w 14 14) + token % 256 * pr.kvpitch + byte
        if bitOf w 0 = false then bad .kvUnmapped
        else if bitsOf w 28 16 ≠ x.pki then bad .protect
        else if s.lostAt a then .error (vaultUe a)
        else .ok a

end Sys2Proof.Machine
end

