-- ==== Sys2Proof/Machine/Message.lean ====
section
/-! DEFINITION. The Message Unit: how SEND, RECV and CREDIT start, wait and end (R80, R264 to R274). -/

namespace Sys2Proof.Machine

/-! ### Items and queues -/

/-- Words of an item: its header and its data (R266). -/
def itemWords (len : Nat) : Nat := 1 + ceilDiv len 64

/-- Words held in a queue's visible items. -/
def RecvQ.words (q : RecvQ) : Nat := (q.items.map (fun i => itemWords i.len)).foldl (· + ·) 0

/-- The effective GRANT (R264). -/
def RecvQ.effGrant (q : RecvQ) : Nat := if q.grant = 0 ∨ q.depth < q.grant then q.depth else q.grant

/-- Do both copies of a queue's pointers agree (R273)? -/
def RecvQ.ptrOk (q : RecvQ) : Bool := decide (q.ptr = q.ptr2)

/-- Both copies of a queue's pointers go on by `h` and `t` words. -/
def RecvQ.advance (q : RecvQ) (h t : Nat) : RecvQ :=
  { q with ptr := (q.ptr.1 + h, q.ptr.2 + t), ptr2 := (q.ptr2.1 + h, q.ptr2.2 + t) }

/-- A queue whose epoch rises (R274): the pool returns to DEPTH, and the return list and the stored items go. -/
def RecvQ.newEpoch (q : RecvQ) : RecvQ :=
  { q with epoch := q.epoch + 1, pool := q.depth, items := [], ret := [], armed := true, ptr := (0, 0), ptr2 := (0, 0) }

/-- Something of an older epoch is discarded at the consumer `c`: MSG_STALE names its sender, the queue and the epoch it carried, and
MQ_DISCARD of the core `at_` that discards it rises (R274, R485). -/
def discardStale (s : State) (at_ c sender : Nat) (q : Fin 8) (epoch : BitVec 8) : State :=
  let k := s.core c
  (s.bump32 (coreCtr at_ 0xE0) 1).logRec
    { mkRec (dieBlock (dieOfCore c)) .event .msgStale with
      core := c, pat := (match k.pat with | none => 0xFF | some p => p),
      detail := BitVec.ofNat 256 (sender % 2 ^ 16 + q.val * 2 ^ 16 + epoch.toNat * 2 ^ 24) }

/-- The stored items of a queue whose epoch changes are discarded, and their senders told (R274). -/
def discardStored (s : State) (c : Nat) (q : Fin 8) : State :=
  ((s.core c).recvq q).items.foldl (fun s i => (discardStale s c c i.src q i.epoch).emit (.stale i.src c q)) s

/-- Those of all its queues. -/
def discardAll (s : State) (c : Nat) : State := [0, 1, 2, 3, 4, 5, 6, 7].foldl (fun s (q : Fin 8) => discardStored s c q) s

/-- The pointer copies of a queue disagree (R273): its contents are discarded and its epoch rises. -/
def resetQueue (s : State) (c : Nat) (q : Fin 8) : State :=
  let s1 := discardStored s c q
  s1.setCore c ((s1.core c).setRecvq q ((s1.core c).recvq q).newEpoch)

/-- The header word of an item as a RECV delivers it, with SRC in Pattern coordinates (R266, R314). -/
def itemHeader (src : Nat) (i : Item) : Nat :=
  1 + src % 2 ^ 13 * 2 ^ 8 + i.dq % 8 * 2 ^ 21 + i.epoch.toNat * 2 ^ 24 + i.tag.toNat * 2 ^ 32 + i.len % 2 ^ 13 * 2 ^ 48
    + (if i.len = 0 then 0 else (i.len - 1) % 64 + 1) * 2 ^ 64

/-- The bytes that a RECV writes: the header word, then the data words, the last padded with zeros (R266, R267). -/
def itemBytes (src : Nat) (i : Item) : List Byte :=
  toBytes 64 (itemHeader src i) ++ (i.data ++ List.replicate (64 * (itemWords i.len - 1) - i.data.length) 0)

/-- The idle item (R80, R266). -/
def idleBytes : List Byte := List.replicate 64 0xFF

/-! ### Spill regions (R265, R333) -/

/-- The queues of a Pattern that have spill regions, in the order in which the loader places them, as (core, queue). -/
def Pattern.spillQueues (p : Pattern) : List (Nat × Nat) :=
  p.regions.flatMap (fun r => (r.cores.zip r.image.cores).flatMap (fun e =>
    (e.2.queues.filter (fun q => decide (8 < q.2.depth))).map (fun q => (e.1, q.1))))

/-- The spill frame of a core's queue. -/
def spillOf (s : State) (c : Nat) (q : Fin 8) : Option Nat :=
  match s.corePat (s.core c) with
  | none => none
  | some p => p.spills[p.spillQueues.findIdx (fun e => decide (e = (c, q.val)))]?

/-- Words that a queue keeps in its spill region: all but the 4 in head and the 4 in tail registers (R265). -/
def spillWords (n : Nat) : Nat := n - 8

/-- Physical address of word `i` of a queue's words in its spill region, which is used as a ring. -/
def spillAddr (f : Nat) (x : RecvQ) (i : Nat) : Nat := frameAddr f + (x.ptr.1 + i) % (x.depth - 8) * 64

/-- A queue's stored words, oldest first. -/
def RecvQ.bytes (x : RecvQ) : List Byte := x.items.flatMap (fun i => itemBytes i.src i)

/-- The words from number `a` to `b` − 1 of a queue are written to its spill region. -/
def spillPut (s : State) (f : Nat) (x : RecvQ) (a b : Nat) : State :=
  (List.range (b - a)).foldl (fun s i =>
    { s with mem := wrBytes s.mem (spillAddr f x (a + i)) ((x.bytes.drop (64 * (a + i))).take 64) }) s

/-- The spill region that an access to the words behind the head registers reaches, where its die has been lost (R333). -/
def spillLost (s : State) (c : Nat) (q : Fin 8) (n : Nat) : Option Stop :=
  if n = 0 then none else
  match spillOf s c q with
  | none => none
  | some f => if s.lostAt (frameAddr f) then some (vaultUe (frameAddr f)) else none

/-! ### The producer table (R268, R269) -/

/-- A core's entry for a destination queue. -/
def Core.prodEnt (k : Core) (dest : Nat) (q : Fin 8) : Option ProdEnt :=
  k.prod.find? (fun e => decide (e.dest = dest ∧ e.q = q))

/-- The table without that entry. -/
def dropEnt (l : List ProdEnt) (dest : Nat) (q : Fin 8) : List ProdEnt :=
  l.filter (fun e => !decide (e.dest = dest ∧ e.q = q))

/-- Send CONNECT. With all 64 entries in use the least recently used one is evicted, and its credits go back in a
DISCONNECT (R268, R269). -/
def sendConnect (s : State) (c dest : Nat) (q : Fin 8) : State :=
  let k := s.core c
  match k.prod with
  | [] => s.emit (.connect dest q c none)
  | e :: es =>
    if k.prod.length < 64 then s.emit (.connect dest q c none)
    else ((s.setCore c { k with prod := es }).emit (.disconnect e.dest e.q c e.epoch e.credits)).emit (.connect dest q c none)

/-! ### SEND (R80, R267, R268) -/

/-- A SEND tries to go on: it connects, it is too long for its grant, it waits for credits, or it spends them and injects
its packet. `tries` is 1 while its CONNECT is unanswered. -/
def sendTry (s : State) (c : Nat) (fl : InFlight) (dest : Nat) (q : Fin 8) (src len : Nat) (tag : BitVec 16) : StartOut :=
  let k := s.core c
  let w := itemWords len
  match k.prodEnt dest q with
  | none => .go (if fl.tries = 0 then sendConnect s c dest q else s) { fl with held := true, tries := 1 }
  | some e =>
    if e.grant < w then .stop s (rejectS .msgLength)
    else if e.credits < w then
      .go (s.setCore c { k with prod := dropEnt k.prod dest q ++ [e] }) { fl with held := true, tries := 0 }
    else
      let s1 := s.setCore c { k with prod := dropEnt k.prod dest q ++ [{ e with credits := e.credits - w }] }
      let it : Item := { src := c, dq := q, epoch := e.epoch, tag := tag, len := len, data := rdBytes k.scratch (src * 64) len }
      .go ((s1.emit (.item dest it)).bump (coreCtr c 0xA0) 1) { fl with held := false, tries := 0 }

/-- SEND at the head of the queue: its checks in the order of R80, its slots, and its first try. -/
def startSend (s : State) (c : Nat) (k : Core) (e : QEntry) (d : Nat) (q : Fin 8) (src len : Nat) (tag : BitVec 16) : StartOut :=
  if 4096 < len then .stop s (rejectS .msgLength) else
  match (s.corePat k).bind (fun p => if d < Config.nCores then p.placed d else none) with
  | none => .stop s (rejectS .msgDest)
  | some dest =>
    if len ≠ 0 ∧ Config.scratchTop < src * 64 + len then .stop s (rejectS .scratchRange) else
    match ringsOf 5 false k.rings (if len = 0 then [] else [[(src * 64, len)]]) with
    | .error st => .stop s st
    | .ok rs =>
      match slotBlocked k.rings rs [] with
      | some x => .stall x.1 x.2
      | none => sendTry (s.setCore c { k with rings := slotsStart k.rings rs [] }) c (inFlight e rs []) dest q src len tag

/-! ### RECV (R80, R270, R271) -/

/-- Credits return after a RECV (R270): at once, or through the return list, whose oldest entry goes first when it is
full. -/
def giveBack (s : State) (c : Nat) (q : Fin 8) (src w : Nat) : State :=
  let k := s.core c
  let x := k.recvq q
  if x.cmode = false then s.emit (.creditReturn src c q x.epoch w)
  else if x.ret.length < 64 then s.setCore c (k.setRecvq q { x with ret := x.ret ++ [(src, w)] })
  else match x.ret with
    | [] => s
    | r :: rs =>
      ((s.setCore c (k.setRecvq q { x with ret := rs ++ [(src, w)] })).emit (.creditReturn r.1 c q x.epoch r.2)).bump32
        (coreCtr c 0xDC) 1

/-- A RECV tries to take the oldest visible item of its queue: the pointer copies are compared (R273), and the words that refill the
head registers are read from the spill region (R265). -/
def recvTry (s : State) (c : Nat) (fl : InFlight) (q : Fin 8) (blk : Bool) (dsts maxlen : Nat) (lreg : Option Reg) : StartOut :=
  let k := s.core c
  let x := k.recvq q
  if x.ptrOk = false then .stop (resetQueue s c q) (faultS .queuePtr) else
  match x.items with
  | [] =>
    if blk then .go s { fl with held := true }
    else .go (s.setCore c { k with scratch := wrBytes k.scratch (dsts * 64) idleBytes })
      { fl with held := false, result := lreg.map (fun r => (r, BitVec.allOnes 64)) }
  | i :: rest =>
    if maxlen < i.len then .stop s (faultS .msgTrunc) else
    let src := ((s.corePat k).bind (fun p => p.coordOf i.src)).getD i.src
    let w := itemWords i.len
    match spillLost s c q (min w (spillWords x.words)) with
    | some st => .stop s st
    | none =>
    let x' := { x with items := rest }.advance w 0
    let k' := { (k.setRecvq q { x' with armed := x'.armed || decide (x'.words < x'.thresh) }) with
                scratch := wrBytes k.scratch (dsts * 64) (itemBytes src i) }
    .go ((giveBack (s.setCore c k') c q i.src w).bump (coreCtr c 0xA8) 1)
      { fl with held := false, result := lreg.map (fun r => (r, BitVec.ofNat 64 i.len)) }

/-- RECV at the head of the queue. -/
def startRecv (s : State) (c : Nat) (k : Core) (e : QEntry) (q : Fin 8) (blk : Bool) (dsts maxlen : Nat) (lreg : Option Reg) :
    StartOut :=
  let n := 64 + ceilDiv maxlen 64 * 64
  if Config.scratchTop < dsts * 64 + n then .stop s (rejectS .scratchRange) else
  match ringsOf 5 true k.rings [[(dsts * 64, n)]] with
  | .error st => .stop s st
  | .ok ws =>
    match slotBlocked k.rings [] ws with
    | some x => .stall x.1 x.2
    | none => recvTry (s.setCore c { k with rings := slotsStart k.rings [] ws }) c (inFlight e [] ws) q blk dsts maxlen lreg

/-- CREDIT (R270): the oldest entries of the return list are returned; on a CMODE 0 queue nothing happens. -/
def startCredit (s : State) (c : Nat) (k : Core) (e : QEntry) (q : Fin 8) (n : Nat) : StartOut :=
  let x := k.recvq q
  let s1 := s.setCore c k
  if x.cmode = false then .go s1 (inFlight e [] []) else
  .go ((s1.setCore c (k.setRecvq q { x with ret := x.ret.drop n })).emits
      ((x.ret.take n).map (fun r => .creditReturn r.1 c q x.epoch r.2))) (inFlight e [] [])

/-- A message command at the head of the Message Unit's queue. -/
def startMessage (s : State) (c : Nat) (k : Core) (e : QEntry) : StartOut :=
  match e.op with
  | .send d q src len tag => startSend s c k e d q src len tag
  | .recv q blk dsts maxlen lreg => startRecv s c k e q blk dsts maxlen lreg
  | .credit q n => startCredit s c k e q n
  | _ => .wait

/-- A held message command tries again (R268, R271). -/
def messageTry (s : State) (c : Nat) (fl : InFlight) : StartOut :=
  match fl.entry.op with
  | .send d q src len tag =>
    match (s.corePat (s.core c)).bind (fun p => p.placed d) with
    | none => .wait
    | some dest => sendTry s c fl dest q src len tag
  | .recv q blk dsts maxlen lreg => recvTry s c fl q blk dsts maxlen lreg
  | _ => .wait

end Sys2Proof.Machine
end

