-- ==== Sys2Proof/Machine/Mover.lean ====
section
/-! DEFINITION. Boxes of elements: the Stream Engine descriptor, its list record, bounds, and element reads and writes
(R173 to R192, R194). -/

namespace Sys2Proof.Machine

/-- The Stream Engine descriptor (R175) as its 1,024 bits. -/
abbrev Desc := Nat

def Desc.etype (d : Desc) : Nat := bitsOf d 0 4
def Desc.bits (d : Desc) : Nat := etBits d.etype
def Desc.rank (d : Desc) : Nat := bitsOf d 4 2 + 1
def Desc.sspace (d : Desc) : Nat := bitsOf d 6 2
def Desc.dspace (d : Desc) : Nat := bitsOf d 8 2
def Desc.sz0 (d : Desc) : Bool := bitOf d 10
def Desc.fill (d : Desc) : Nat := bitsOf d 16 16
/-- Extent of dimension `i`: 1 at or above the rank. -/
def Desc.ext (d : Desc) (i : Nat) : Nat := if i < d.rank then bitsOf d (32 + 32 * i) 32 else 1
def Desc.sstr (d : Desc) (i : Nat) : Int := signed 32 (bitsOf d (160 + 32 * (i - 1)) 32)
def Desc.dstr (d : Desc) (i : Nat) : Int := signed 32 (bitsOf d (256 + 32 * (i - 1)) 32)
def Desc.sbase (d : Desc) : Nat := bitsOf d 512 64
def Desc.slim (d : Desc) : Nat := bitsOf d 576 64
def Desc.dbase (d : Desc) : Nat := bitsOf d 640 64
def Desc.dlim (d : Desc) : Nat := bitsOf d 704 64

/-- The 1,024 bits of two units. -/
def descAt (m : Memory) (u : Nat) : Desc := rdNat m (u * 64) 128

/-- One side of a transfer. -/
structure Side where
  space : Nat
  base : Nat
  lim : Nat
  s0 : Nat
  str : List Int
  deriving DecidableEq, Repr

/-- The strides of dimensions 1 to 3, zero at or above the rank. -/
def strOf (rank : Nat) (f : Nat → Int) : List Int := [1, 2, 3].map (fun i => if i < rank then f i else 0)

/-- The two sides of a descriptor. -/
def Desc.src (d : Desc) : Side :=
  { space := d.sspace, base := d.sbase, lim := d.slim, s0 := if d.sz0 then 0 else d.bits, str := strOf d.rank d.sstr }
def Desc.dst (d : Desc) : Side :=
  { space := d.dspace, base := d.dbase, lim := d.dlim, s0 := d.bits, str := strOf d.rank d.dstr }

/-- Byte address at which a SCRATCH or SEG side begins, and a SEG side's segment (R174). -/
def Side.addr (x : Side) : Nat := if x.space = 0 then bitsOf x.base 0 22 else bitsOf x.base 0 40
def Side.seg (x : Side) : Nat := bitsOf x.base 40 8

/-- Fields of a KV base (R174). -/
def kvEntry (b : Nat) : Nat := bitsOf b 0 12
def kvLhg (b : Nat) : Nat := bitsOf b 12 16
def kvToken (b : Nat) : Nat := bitsOf b 28 21
def kvByte (b : Nat) : Nat := bitsOf b 49 15

/-- An element's indices. -/
abbrev Idx := Nat × Nat × Nat × Nat

/-- Where an element lies: a scratch or segment byte with the bit within it, a KV byte, or out of bounds. -/
inductive Loc
  | scratch (byte bit : Nat)
  | seg (seg byte bit : Nat)
  | kv (entry lhg token byte bit : Nat)
  | oob
  deriving DecidableEq, Repr

/-- The element at some indices of a side, `ofs` bytes on (R177, R178, R186, R191). -/
def Side.loc (x : Side) (bits : Nat) (ofs : Nat) (i : Idx) : Loc :=
  if x.space = 2 then
    let bit := kvByte x.base * 8 + i.1 * x.s0
    let last := (bit + bits - 1) / 8
    if x.lim ≤ last ∨ 2 ^ 21 ≤ kvToken x.base + i.2.1 ∨ 4096 ≤ kvEntry x.base + i.2.2.2 then .oob
    else .kv (kvEntry x.base + i.2.2.2) (kvLhg x.base + i.2.2.1) (kvToken x.base + i.2.1) (bit / 8) (bit % 8)
  else
    let a : Int := ((x.addr + ofs : Nat) : Int) + i.2.1 * x.str.getD 0 0 + i.2.2.1 * x.str.getD 1 0 + i.2.2.2 * x.str.getD 2 0
    let bit : Int := 8 * a + ((i.1 * x.s0 : Nat) : Int)
    let last := (bit + bits - 1) / 8
    if bit / 8 < ((x.addr : Nat) : Int) ∨ (((x.addr + x.lim : Nat)) : Int) ≤ last then .oob
    else if x.space = 0 then .scratch (bit / 8).toNat (bit % 8).toNat
    else .seg x.seg (bit / 8).toNat (bit % 8).toNat

/-- A transfer under way: the device, the core's scratch, and its counts: elements filled and dropped, bits read and
written; the translations cached by the engine that makes it, how many it holds, and the misses. -/
structure Mv where
  s : State
  sc : Memory
  oob : Nat
  drop : Nat
  rd : Nat
  wr : Nat
  tags : List XlateTag
  cap : Nat
  miss : Nat

/-- A transfer that has done nothing, by an engine that caches `cap` translations. -/
def mvOf (s : State) (sc : Memory) (tags : List XlateTag) (cap : Nat) : Mv :=
  { s := s, sc := sc, oob := 0, drop := 0, rd := 0, wr := 0, tags := tags, cap := cap, miss := 0 }

/-- An address is translated (R192, R208): a miss where the cache does not hold it, and it is cached. Which entry of a full cache
makes room is not stated: it is free (log 89). -/
def Mv.hit (x : Mv) (t : XlateTag) : Mv :=
  if x.tags.contains t then x
  else if x.tags.length < x.cap then { x with tags := x.tags ++ [t], miss := x.miss + 1 }
  else { x with tags := x.tags.eraseIdx ((Config.freeWord x.s.drawn).toNat % x.cap) ++ [t], miss := x.miss + 1,
                s := { x.s with drawn := x.s.drawn + 1 } }

/-- The tag of a segment's byte, and of a KV byte. -/
def segTag (seg ofs : Nat) : XlateTag := .seg seg (ofs / 65536)
def kvTag (slot lhg token : Nat) : XlateTag := .kv slot lhg (token / 256)

/-- The value of an element in memory `m`. -/
def elemAt (m : Memory) (byte bit bits : Nat) : Nat :=
  if bits = 4 then bitsOf (rdByte m byte).toNat bit 4 else rdNat m byte (bits / 8)

/-- The byte that holds a nibble after its write. -/
def putNibble (old bit v : Nat) : Nat := if bit = 0 then old / 16 * 16 + v % 16 else old % 16 + v % 16 * 16

/-- FILL as an element of the type (R178). -/
def fillVal (bits fill : Nat) : Nat := if bits = 32 then lowBits 32 (signed 16 fill) else fill % 2 ^ bits

/-- Read an element (R178, R190, R191): FILL out of bounds; a batch entry that names no stream is out of bounds too. -/
def rdLoc (p : Option Pattern) (x : Mv) (bits fill : Nat) (l : Loc) : Except Stop (Nat × Mv) :=
  let n := (bits + 7) / 8
  let done (y : Mv) (m : Memory) (a bit : Nat) : Except Stop (Nat × Mv) := .ok (elemAt m a bit bits, { y with rd := y.rd + bits })
  let filled : Except Stop (Nat × Mv) := .ok (fillVal bits fill, { x with oob := x.oob + 1 })
  match l with
  | .oob => filled
  | .scratch a bit => done x x.sc a bit
  | .seg g a bit =>
    match xlateSeg p g a true false with
    | .error e => .error e
    | .ok sg =>
      let y := x.hit (segTag g a)
      if y.s.lostAt (sg.phys a) then
        if sg.protected' then
          let v := ofBytes (segBytes y.s sg a n)
          .ok (if bits = 4 then bitsOf v bit 4 else v, { y with rd := y.rd + bits })
        else .error (vaultUe (sg.phys a))
      else done { y with s := openRow y.s (sg.phys a) } y.s.mem (sg.phys a) bit
  | .kv e l t b bit =>
    if shadowSlot x.sc e = none then filled else
    match p with
    | none => filled
    | some pt =>
      match xlateKv x.s x.sc pt e l t b with
      | .error st => .error st
      | .ok a =>
        let y := x.hit (kvTag ((shadowSlot x.sc e).getD 0) l t)
        done { y with s := openRow y.s a } y.s.mem a bit

/-- Write an element's bytes to a segment: a nibble under a byte mask, or the whole element. -/
def segElem (s : State) (pi seg : Nat) (g : Segment) (a bit bits v : Nat) : State :=
  if bits = 4 then segPut s pi seg g a (BitVec.ofNat 8 (putNibble ((segGet s g a).getD 0).toNat bit v))
  else segPuts s pi seg g a (toBytes (bits / 8) v)

/-- Write an element in memory `m`. -/
def putElem (m : Memory) (a bit bits v : Nat) : Memory :=
  if bits = 4 then wrByte m a (BitVec.ofNat 8 (putNibble (rdByte m a).toNat bit v)) else wrNat m a (bits / 8) v

/-- Write an element (R178, R190, R191): dropped out of bounds. -/
def wrLoc (pi : Nat) (p : Option Pattern) (x : Mv) (bits : Nat) (l : Loc) (v : Nat) : Except Stop Mv :=
  match l with
  | .oob => .ok { x with drop := x.drop + 1 }
  | .scratch a bit => .ok { x with sc := putElem x.sc a bit bits v, wr := x.wr + bits }
  | .seg g a bit =>
    match xlateSeg p g a false true with
    | .error e => .error e
    | .ok sg =>
      let y := x.hit (segTag g a)
      if y.s.lostAt (sg.phys a) && !sg.protected' then .error (vaultUe (sg.phys a))
      else .ok { y with s := segElem y.s pi g sg a bit bits v, wr := y.wr + bits }
  | .kv e l t b bit =>
    if shadowSlot x.sc e = none then .ok { x with drop := x.drop + 1 } else
    match p with
    | none => .ok { x with drop := x.drop + 1 }
    | some pt =>
      match xlateKv x.s x.sc pt e l t b with
      | .error st => .error st
      | .ok a =>
        let y := x.hit (kvTag ((shadowSlot x.sc e).getD 0) l t)
        .ok { y with s := openRow { y.s with mem := putElem y.s.mem a bit bits v } a, wr := y.wr + bits }

/-- Move one element from one place to another. -/
def moveOne (pi : Nat) (p : Option Pattern) (bits fill : Nat) (x : Mv) (a b : Loc) : Except Stop Mv :=
  match rdLoc p x bits fill a with
  | .error e => .error e
  | .ok (v, y) => wrLoc pi p y bits b v

/-- Move elements in order; what was written before a fault stays written (R194): the transfer so far and the fault. -/
def moveAll (pi : Nat) (p : Option Pattern) (bits fill : Nat) : Mv → List (Loc × Loc) → Mv × Option Stop
  | x, [] => (x, none)
  | x, (a, b) :: l =>
    match moveOne pi p bits fill x a b with
    | .error e => (x, some e)
    | .ok y => moveAll pi p bits fill y l

/-- Read elements in order: their values, or the fault. -/
def readAll (p : Option Pattern) (bits fill : Nat) : Mv → List Loc → Except Stop (List Nat × Mv)
  | x, [] => .ok ([], x)
  | x, l :: ls =>
    match rdLoc p x bits fill l with
    | .error e => .error e
    | .ok (v, y) =>
      match readAll p bits fill y ls with
      | .error e => .error e
      | .ok (vs, z) => .ok (v :: vs, z)

/-- Write values in order; those before a fault stay written. -/
def writeAll (pi : Nat) (p : Option Pattern) (bits : Nat) : Mv → List (Loc × Nat) → Mv × Option Stop
  | x, [] => (x, none)
  | x, (l, v) :: ls =>
    match wrLoc pi p x bits l v with
    | .error e => (x, some e)
    | .ok y => writeAll pi p bits y ls

/-- Move elements tile by tile: the rows of a tile are read before its first is written (R184). Each tile lists its source places
and its destination places with the source element each takes. -/
def moveTiles (pi : Nat) (p : Option Pattern) (bits fill : Nat) : Mv → List (List Loc × List (Loc × Nat)) → Mv × Option Stop
  | x, [] => (x, none)
  | x, (src, dst) :: ts =>
    match readAll p bits fill x src with
    | .error e => (x, some e)
    | .ok (vs, y) =>
      match writeAll pi p bits y (dst.map (fun d => (d.1, vs.getD d.2 0))) with
      | (z, some e) => (z, some e)
      | (z, none) => moveTiles pi p bits fill z ts

/-- The indices of a box in row-major order, dimension 0 fastest (R177). -/
def boxIdx (e : Nat → Nat) : List Idx :=
  (List.range (e 3)).flatMap (fun i3 => (List.range (e 2)).flatMap (fun i2 => (List.range (e 1)).flatMap (fun i1 =>
    (List.range (e 0)).map (fun i0 => (i0, i1, i2, i3)))))

/-! ### The list record and the BCL list (R52, R185 to R187) -/

/-- A list record (R185) as its 512 bits. -/
abbrev LRec := Nat

def LRec.space (l : LRec) : Nat := bitsOf l 0 2
def LRec.bs (l : LRec) (rank i : Nat) : Nat := if i < rank then bitsOf l (16 + 16 * i) 16 else 1
def LRec.nstr (l : LRec) : Nat := bitsOf l 80 32
def LRec.base (l : LRec) : Nat := bitsOf l 128 64

/-- Where a BCL list lies: a scratch byte address, or a segment and offset. -/
inductive ListAt
  | scratch (a : Nat)
  | seg (seg a : Nat)
  deriving DecidableEq, Repr

/-- The place of a list from its space and base (R174, R185). -/
def listAt (space base : Nat) : ListAt := if space = 0 then .scratch (bitsOf base 0 22) else .seg (bitsOf base 40 8) (bitsOf base 0 40)

/-- `n` bytes of a list from byte `o` on. -/
def rdList (s : State) (sc : Memory) (p : Option Pattern) (l : ListAt) (o n : Nat) : Except Stop Nat :=
  match l with
  | .scratch a => .ok (rdNat sc (a + o) n)
  | .seg g a =>
    match xlateSeg p g (a + o) true false with
    | .error e => .error e
    | .ok sg =>
      if s.lostAt (sg.phys (a + o)) && !sg.protected' then .error (vaultUe (sg.phys (a + o)))
      else .ok (ofBytes (segBytes s sg (a + o) n))

/-- The bytes of a list are read: their translation is cached and their rows stay open (R192, R233). -/
def Mv.listRead (p : Option Pattern) (x : Mv) (l : ListAt) (o n : Nat) : Mv :=
  match l with
  | .scratch _ => x
  | .seg g a =>
    let y := x.hit (segTag g (a + o))
    match xlateSeg p g (a + o) true false with
    | .error _ => y
    | .ok sg => { y with s := openRows y.s (sg.phys (a + o)) n }

/-- The header of a BCL list (R52). -/
structure ListHdr where
  count : Nat
  rank : Nat
  sorted : Bool
  ok : Bool
  deriving DecidableEq, Repr

/-- Read a list's header; `ok` is clear for a reserved RANK or a non-zero reserved bit. -/
def rdListHdr (s : State) (sc : Memory) (p : Option Pattern) (l : ListAt) : Except Stop ListHdr :=
  match rdList s sc p l 0 16 with
  | .error e => .error e
  | .ok w =>
    let r := bitsOf w 32 8
    .ok { count := bitsOf w 0 32, rank := r, sorted := bitOf w 40,
          ok := decide (1 ≤ r ∧ r ≤ 4) && decide (bitsOf w 41 87 = 0) }

/-- Entry `n` of a list, outermost coordinate first (R52). -/
def rdEntry (s : State) (sc : Memory) (p : Option Pattern) (l : ListAt) (rank n : Nat) : Except Stop (List Nat) :=
  match rdList s sc p l (16 + n * rank * 4) (rank * 4) with
  | .error e => .error e
  | .ok w => .ok ((List.range rank).map (fun i => bitsOf w (32 * i) 32))

/-- Strict lexicographic order of entries, outermost first (R52). -/
def lexLt : List Nat → List Nat → Bool
  | a :: as, b :: bs => decide (a < b) || (decide (a = b) && lexLt as bs)
  | _, _ => false

/-- The coordinate of dimension `i`, counted from the innermost, of an entry. -/
def coord (entry : List Nat) (rank i : Nat) : Nat := if i < rank then entry.getD (rank - 1 - i) 0 else 0

/-- The element moves of one entry (R186, R187): the list-indexed place and the packed place of every element. -/
def entryMoves (d : Desc) (l : LRec) (ix pk : Side) (n : Nat) (entry : List Nat) : List (Loc × Loc) :=
  (boxIdx (fun i => l.bs d.rank i)).map (fun b =>
    let g (i v : Nat) : Nat := coord entry d.rank i * l.bs d.rank i + v
    let t : Idx := (g 0 b.1, g 1 b.2.1, g 2 b.2.2.1, g 3 b.2.2.2)
    let inside := t.1 < d.ext 0 ∧ t.2.1 < d.ext 1 ∧ t.2.2.1 < d.ext 2 ∧ t.2.2.2 < d.ext 3
    (if inside then ix.loc d.bits 0 t else .oob, pk.loc d.bits (n * l.nstr) b))

/-- Take the entries of a list in order (R186): a list marked SORTED whose entry is not greater than its predecessor
faults with SPARSE_ORDER, what came before having been processed (R53). `f` moves one entry. -/
def overList (p : Option Pattern) (l : ListAt) (h : ListHdr) (f : Mv → Nat → List Nat → Mv × Option Stop) :
    Nat → Nat → Option (List Nat) → Mv → Mv × Option Stop
  | 0, _, _, x => (x, none)
  | k + 1, n, prev, x =>
    match rdEntry x.s x.sc p l h.rank n with
    | .error e => (x, some e)
    | .ok en =>
      if h.sorted && (match prev with | none => false | some q => !lexLt q en) then (x, some (faultS .sparseOrder)) else
      let x1 := x.listRead p l (16 + n * h.rank * 4) (h.rank * 4)
      match f { x1 with rd := x1.rd + 32 * h.rank } n en with
      | (y, some e) => (y, some e)
      | (y, none) => overList p l h f k (n + 1) (some en) y

/-! ### Checks (R179 to R187, R194) -/

/-- A range of bytes in a space: scratch, a segment, or the KV space's batch entries (R183). -/
inductive Ext
  | scratch (a n : Nat)
  | seg (seg a n : Nat)
  | kv (e n : Nat)
  deriving DecidableEq, Repr

/-- Do two extents meet (R183)? -/
def extsMeet (x y : Ext) : Bool :=
  match x, y with
  | .scratch a n, .scratch b m => runsMeet (a, n) (b, m)
  | .seg g a n, .seg h b m => decide (g = h) && runsMeet (a, n) (b, m)
  | .kv a n, .kv b m => runsMeet (a, n) (b, m)
  | _, _ => false

/-- Do any two of several extents meet? -/
def anyMeet : List Ext → Bool
  | [] => false
  | x :: l => l.any (extsMeet x) || anyMeet l

/-- The whole of a side's [BASE, BASE + LIMIT), or its batch entries. -/
def Side.whole (x : Side) (e3 : Nat) : Ext :=
  if x.space = 0 then .scratch x.addr x.lim else if x.space = 1 then .seg x.seg x.addr x.lim else .kv (kvEntry x.base) e3

/-- From a side's lowest to its highest generated byte, clipped to its limit (R183); `ext` gives the extents as the side
steps them and `n` and `nstr` a packed side's blocks. With no block the side generates no byte. -/
def Side.extent (x : Side) (bits : Nat) (ext : Nat → Nat) (n nstr : Nat) : Ext :=
  if n = 0 then (if x.space = 0 then .scratch x.addr 0 else .seg x.seg x.addr 0) else
  if x.space = 2 then .kv (kvEntry x.base) (ext 3) else
  let part (i : Nat) : Int := x.str.getD (i - 1) 0 * ((ext i - 1 : Nat) : Int)
  let lo : Int := (x.addr : Int) + min 0 (part 1) + min 0 (part 2) + min 0 (part 3)
  let hi : Int := (x.addr : Int) + max 0 (part 1) + max 0 (part 2) + max 0 (part 3)
    + (((ext 0 - 1) * x.s0 / 8 + (bits + 7) / 8 : Nat) : Int) + (((n - 1) * nstr : Nat) : Int)
  let lo' := max lo (x.addr : Int)
  let hi' := min hi ((x.addr + x.lim : Nat) : Int)
  if hi' ≤ lo' then (if x.space = 0 then .scratch x.addr 0 else .seg x.seg x.addr 0)
  else if x.space = 0 then .scratch lo'.toNat (hi' - lo').toNat else .seg x.seg lo'.toNat (hi' - lo').toNat

/-- R182 on a side that the command writes: no dimension's stride is shorter than the span below it. -/
def badSpan (bits : Nat) (ext : Nat → Nat) (str : List Int) (rank : Nat) : Bool :=
  let w0 : Int := ((ext 0 * bits / 8 : Nat) : Int)
  (([1, 2, 3].filter (fun i => decide (i < rank))).foldl (fun (acc : Bool × Int) i =>
    let st : Int := ((str.getD (i - 1) 0).natAbs : Int)
    (acc.1 || (decide (1 < ext i) && decide (st < acc.2)), st * ((ext i - 1 : Nat) : Int) + acc.2)) (false, w0)).1

/-- A destination stride of zero in a dimension whose extent is not 1 (R179). -/
def zeroStride (ext : Nat → Nat) (str : List Int) (rank : Nat) : Bool :=
  [1, 2, 3].any (fun i => decide (i < rank) && decide (1 < ext i) && decide (str.getD (i - 1) 0 = 0))

/-- Span of a block on the packed side (R186). -/
def blockSpan (bits : Nat) (ext : Nat → Nat) (str : List Int) (rank : Nat) : Nat :=
  (([1, 2, 3].filter (fun i => decide (i < rank))).foldl (fun (w : Nat) i => (str.getD (i - 1) 0).natAbs * (ext i - 1) + w)
    (ext 0 * bits / 8))

/-- A reserved encoding or non-zero reserved bit of a descriptor (R174, R175): types, spaces, dimensions at or above
the rank, strides of a KV side, and BASE bits not listed for the space. -/
def descReserved (d : Desc) : Bool :=
  let baseBad (space b : Nat) : Bool :=
    if space = 0 then decide (bitsOf b 22 42 ≠ 0) else if space = 1 then decide (bitsOf b 48 16 ≠ 0) else decide (space = 3)
  decide (3 < d.etype) || decide (bitsOf d 11 5 ≠ 0) || decide (bitsOf d 352 160 ≠ 0)
    || baseBad d.sspace d.sbase || baseBad d.dspace d.dbase
    || [0, 1, 2, 3].any (fun i => decide (d.rank ≤ i) && decide (bitsOf d (32 + 32 * i) 32 ≠ 0))
    || [1, 2, 3].any (fun i => (decide (d.rank ≤ i) || decide (d.sspace = 2)) && decide (bitsOf d (160 + 32 * (i - 1)) 32 ≠ 0))
    || [1, 2, 3].any (fun i => (decide (d.rank ≤ i) || decide (d.dspace = 2)) && decide (bitsOf d (256 + 32 * (i - 1)) 32 ≠ 0))

/-- A reserved encoding or non-zero reserved bit of a list record (R185). -/
def lrecReserved (l : LRec) (rank : Nat) : Bool :=
  decide (1 < l.space) || decide (bitsOf l 2 14 ≠ 0) || decide (bitsOf l 112 16 ≠ 0) || decide (bitsOf l 256 256 ≠ 0)
    || [0, 1, 2, 3].any (fun i => decide (rank ≤ i) && decide (bitsOf l (16 + 16 * i) 16 ≠ 0))
    || (if l.space = 0 then decide (bitsOf l.base 22 42 ≠ 0) else decide (bitsOf l.base 48 16 ≠ 0))

/-- Is a side misaligned under R180? -/
def sideMisaligned (x : Side) (rank : Nat) : Bool :=
  (if x.space = 2 then decide (kvByte x.base % 8 ≠ 0) else decide (x.addr % 8 ≠ 0))
    || [1, 2, 3].any (fun i => decide (i < rank) && decide (x.str.getD (i - 1) 0 % 8 ≠ 0))

end Sys2Proof.Machine
end

