-- ==== Sys2Proof/Machine/StreamEngine.lean ====
section
/-! DEFINITION. The Stream Engine: its acceptance checks and the start of its commands (R177 to R188, R194). -/

namespace Sys2Proof.Machine

/-- The transfers that take a descriptor of R175: the stream class, and the NMU's GATHER and SCADD (R210). -/
inductive Xfer | copy | gather | scatter | tcopy | nmuGather | scadd
  deriving DecidableEq, Repr

/-- Does a transfer take a list; is its list-indexed side the source (R186, R210)? -/
def Xfer.listed (o : Xfer) : Bool := decide (o ≠ .copy) && decide (o ≠ .tcopy)
def Xfer.srcIndexed (o : Xfer) : Bool := decide (o = .gather) || decide (o = .nmuGather)

/-- The list-indexed side and the packed side (R186). -/
def ixSide (o : Xfer) (d : Desc) : Side := if o.srcIndexed then d.src else d.dst
def pkSide (o : Xfer) (d : Desc) : Side := if o.srcIndexed then d.dst else d.src

/-- Where a transfer's records lie and what it reads them from: the device, the core's scratch, its Pattern, the
descriptor's and the list record's units. `lrec` is clear where a loader has the descriptor but no list record. -/
structure XferAt where
  s : State
  sc : Memory
  p : Option Pattern
  op : Xfer
  du : Nat
  lu : Nat
  lrec : Bool := true

def XferAt.d (x : XferAt) : Desc := descAt x.sc x.du
def XferAt.l (x : XferAt) : LRec := unitBits x.sc x.lu
def XferAt.list (x : XferAt) : ListAt := listAt x.l.space x.l.base

/-- Rows 1 to 10 of R194. A list in scratch whose header reaches the reserved top is SCRATCH_RANGE too, at row 6 (R161,
log 86). -/
def xferChecks (x : XferAt) (units : Nat) : List (Bool × Stop) :=
  let d := x.d
  let l := x.l
  let li := x.op.listed && x.lrec
  let ix := ixSide x.op d
  let pk := pkSide x.op d
  let dims := [0, 1, 2, 3].filter (fun i => decide (i < d.rank))
  [ (decide (Config.topUnit < x.du + units) || (li && decide (Config.topUnit ≤ x.lu)), rejectS .scratchRange),
    (!compl 256 (bitsOf d 512 256) (bitsOf d 768 256) || (li && !compl 64 l.base (bitsOf l 192 64)), faultS .pairMismatch),
    (descReserved d || (li && lrecReserved l d.rank), rejectS .badDesc),
    ((!x.op.listed && decide (x.lu ≠ 0)) || (decide (x.op = .tcopy) && (decide (d.sspace = 2) || decide (d.dspace = 2)))
      || (x.op.listed && decide (pk.space = 2)) || (d.sz0 && decide (x.op ≠ .copy))
      || (decide (x.op = .nmuGather) && decide (ix.space = 0)) || (decide (x.op = .scadd) && decide (ix.space ≠ 1)),
      rejectS .spaceOp),
    (dims.any (fun i => decide (d.ext i = 0)) || decide (d.slim = 0) || decide (d.dlim = 0)
      || (li && dims.any (fun i => decide (l.bs d.rank i = 0))), rejectS .zeroExtent),
    ((decide (d.sspace = 0) && decide (Config.scratchTop < d.src.addr + d.slim))
      || (decide (d.dspace = 0) && decide (Config.scratchTop < d.dst.addr + d.dlim))
      || (li && decide (l.space = 0) && decide (Config.scratchTop < bitsOf l.base 0 22 + 16)), rejectS .scratchRange),
    (sideMisaligned d.src d.rank || sideMisaligned d.dst d.rank
      || (li && (decide (l.nstr % 8 ≠ 0) || decide (l.bs d.rank 0 * d.bits % 64 ≠ 0) || decide (l.base % 16 ≠ 0))),
      rejectS .misalign),
    (decide (d.etype = 0) && (decide (d.ext 0 % 2 ≠ 0) || (li && decide (l.bs d.rank 0 % 2 ≠ 0))), rejectS .nibbleSplit),
    (decide (x.op = .tcopy) && (decide (d.rank < 2) || decide (d.ext 0 % 16 ≠ 0) || decide (d.ext 1 % 16 ≠ 0)),
      rejectS .tcopyShape),
    (match x.p with
      | none => false
      | some p => (decide (d.sspace = 2) && decide (p.manifest.params.kvpitch < d.slim))
          || (decide (d.dspace = 2) && decide (p.manifest.params.kvpitch < d.dlim)), rejectS .badDesc) ]

/-- Row 11 of R194: the list header; its entries, in scratch, end below the reserved top (R161, log 86). -/
def xferHdr (x : XferAt) : Except Stop ListHdr :=
  match rdListHdr x.s x.sc x.p x.list with
  | .error e => .error e
  | .ok h => if h.ok = false then .error (rejectS .badDesc) else if h.rank ≠ x.d.rank then .error (rejectS .listRank)
    else if x.l.space = 0 ∧ Config.scratchTop < bitsOf x.l.base 0 22 + 16 + h.count * h.rank * 4 then .error (rejectS .scratchRange)
    else .ok h

/-- The extents of dimensions as the side that a TCOPY writes steps them (R184). -/
def swap01 (e : Nat → Nat) (i : Nat) : Nat := if i = 0 then e 1 else if i = 1 then e 0 else e i

/-- Row 12 of R194: R179, R182 and R186 on the side that the command writes. -/
def xferStride (x : XferAt) : Bool :=
  let d := x.d
  let l := x.l
  let pk := pkSide x.op d
  let bs := l.bs d.rank
  match x.op with
  | .copy => decide (d.dspace ≠ 2) && badSpan d.bits d.ext d.dst.str d.rank
  | .tcopy => badSpan d.bits (swap01 d.ext) d.dst.str d.rank
  | .gather => badSpan d.bits bs pk.str d.rank || decide (l.nstr < blockSpan d.bits bs pk.str d.rank)
  | .nmuGather => badSpan d.bits bs pk.str d.rank || decide (l.nstr < blockSpan d.bits bs pk.str d.rank)
  | .scatter => decide (d.dspace ≠ 2) && (badSpan d.bits bs d.dst.str d.rank || zeroStride d.ext d.dst.str d.rank)
  | .scadd => badSpan d.bits bs d.dst.str d.rank || zeroStride d.ext d.dst.str d.rank

/-- The extents of source and destination (R183). -/
def xferExts (x : XferAt) (count : Nat) : Ext × Ext :=
  let d := x.d
  let bs := x.l.bs d.rank
  match x.op with
  | .copy => (d.src.extent d.bits d.ext 1 0, d.dst.extent d.bits d.ext 1 0)
  | .tcopy => (d.src.extent d.bits d.ext 1 0, d.dst.extent d.bits (swap01 d.ext) 1 0)
  | .gather => (d.src.whole (d.ext 3), d.dst.extent d.bits bs count x.l.nstr)
  | .nmuGather => (d.src.whole (d.ext 3), d.dst.extent d.bits bs count x.l.nstr)
  | .scatter => (d.src.extent d.bits bs count x.l.nstr, d.dst.whole (d.ext 3))
  | .scadd => (d.src.extent d.bits bs count x.l.nstr, d.dst.whole (d.ext 3))

/-- The extent of a BCL list. -/
def listExt (l : ListAt) (h : ListHdr) : Ext :=
  match l with
  | .scratch a => .scratch a (16 + h.count * h.rank * 4)
  | .seg g a => .seg g a (16 + h.count * h.rank * 4)

/-- Row 13 of R194. -/
def xferOverlap (x : XferAt) (units : Nat) (h : Option ListHdr) : Bool :=
  let e := xferExts x (match h with | none => 1 | some h => h.count)
  anyMeet ([e.1, e.2, .scratch (x.du * 64) (64 * units)]
    ++ (if x.op.listed then [.scratch (x.lu * 64) 64] else [])
    ++ (match h with | none => [] | some h => [listExt x.list h]))

/-- The scratch extents that a transfer reads and writes, its list among them (R165, R194 row 14). -/
def xferSpans (x : XferAt) (h : Option ListHdr) : List Span × List Span :=
  let e := xferExts x (match h with | none => 1 | some h => h.count)
  let f (y : Ext) : List Span := match y with | .scratch a n => if n = 0 then [] else [[(a, n)]] | _ => []
  (f e.1 ++ (match h with | none => [] | some h => f (listExt x.list h)), f e.2)

/-- A list whose COUNT is zero makes its command a no-op (R53, R188): it uses no slot. -/
def noEntries (h : Option ListHdr) : Bool := match h with | none => false | some h => decide (h.count = 0)

/-- The slot of a list in scratch that engine `eng` would read before its slot may be read (R168). -/
def xferEarly (x : XferAt) (eng : Nat) (rings : List Ring) : Option SlotHold :=
  if x.op.listed && decide (x.l.space = 0) && compl 64 x.l.base (bitsOf x.l 192 64) then slotWait eng rings (bitsOf x.l.base 0 22)
  else none

/-- All of R194 but the rings: the list's header where there is one, or the check that fails. -/
def xferAccept (x : XferAt) (units : Nat) : Except Stop (Option ListHdr) :=
  match firstStop (xferChecks x units) with
  | some st => .error st
  | none =>
    if x.op.listed then
      match xferHdr x with
      | .error e => .error e
      | .ok h => if xferStride x then .error (rejectS .badStride)
          else if xferOverlap x units (some h) then .error (rejectS .overlap) else .ok (some h)
    else if xferStride x then .error (rejectS .badStride)
    else if xferOverlap x units none then .error (rejectS .overlap) else .ok none

/-- The element moves of a COPY (R177). -/
def boxMoves (d : Desc) : List (Loc × Loc) :=
  (boxIdx d.ext).map (fun i => (d.src.loc d.bits 0 i, d.dst.loc d.bits 0 i))

/-- The tiles of a TCOPY, in row-major order (R184; log 20): each reads 16 source rows of 16 elements and writes 16 destination
rows, source element (i0, i1) to place (i1, i0). -/
def tcopyTiles (d : Desc) : List (List Loc × List (Loc × Nat)) :=
  (boxIdx (fun i => if i < 2 then d.ext i / 16 else d.ext i)).map (fun t =>
    let at_ (r q : Nat) : Idx := (16 * t.1 + q, 16 * t.2.1 + r, t.2.2)
    ((List.range 256).map (fun n => d.src.loc d.bits 0 (at_ (n / 16) (n % 16))),
     (List.range 256).map (fun n =>
      (d.dst.loc d.bits 0 (16 * t.2.1 + n % 16, 16 * t.1 + n / 16, t.2.2), n % 16 * 16 + n / 16))))

/-- Carry out a transfer whose checks have passed. -/
def xferRun (x : XferAt) (pi : Nat) (h : Option ListHdr) (m : Mv) : Mv × Option Stop :=
  let d := x.d
  match h with
  | none => if x.op = .tcopy then moveTiles pi x.p d.bits d.fill m (tcopyTiles d) else moveAll pi x.p d.bits d.fill m (boxMoves d)
  | some h =>
    let m0 := m.listRead x.p x.list 0 16
    overList x.p x.list h (fun m n en =>
      let mv := entryMoves d x.l (ixSide x.op d) (pkSide x.op d) n en
      moveAll pi x.p d.bits d.fill m (if x.op.srcIndexed then mv else mv.map (fun y => (y.2, y.1)))) h.count 0 none m0

/-- Offset of SE_XLATE_MISS in a core's record (R479). -/
def seMissOfs : Nat := 0x90

/-- Put a transfer's results into the device: scratch, vaults, the translations cached and the counters of R197. -/
def mvDone (c : Nat) (k : Core) (rings : List Ring) (m : Mv) : State :=
  coreBumps (m.s.setCore c { k with scratch := m.sc, rings := rings, xlate := m.tags }) c
    [(0x70, m.rd / 8, false), (0x78, m.wr / 8, false), (0x80, m.oob, false), (0x88, m.drop, false), (seMissOfs, m.miss, false)]

/-- A stream command at the head of the queue. -/
def startStream (s : State) (c : Nat) (k : Core) (e : QEntry) (op : StreamOp) (desc list : Nat) : StartOut :=
  let xo : Xfer := match op with | .copy => .copy | .gather => .gather | .scatter => .scatter | .tcopy => .tcopy
  let x : XferAt := { s := s, sc := k.scratch, p := s.corePat k, op := xo, du := desc, lu := list }
  match xferEarly x 3 k.rings with
  | some y => y.out s
  | none =>
  match xferAccept x 2 with
  | .error st => .stop s st
  | .ok h =>
  let sp := xferSpans x h
  match ringsOf 3 false k.rings sp.1, ringsOf 3 true k.rings sp.2 with
  | .error st, _ => .stop s st
  | _, .error st => .stop s st
  | .ok rs0, .ok ws0 =>
  let rs := if noEntries h then [] else rs0
  let ws := if noEntries h then [] else ws0
  match slotBlocked k.rings rs ws with
  | some y => .stall y.1 y.2
  | none =>
  match xferRun x (k.pat.getD 0) h (mvOf s k.scratch k.xlate 256) with
  | (m, some st) => .stop (mvDone c k (slotsStart k.rings rs ws) m) st
  | (m, none) => .go (mvDone c k (slotsStart k.rings rs ws) m) (inFlight e rs ws)

end Sys2Proof.Machine
end

