-- ==== Sys2Proof/Machine/NmuDesc.lean ====
section
/-! DEFINITION. The NMU descriptor, its checks, and the bytes an NMU reads and writes (R208, R209, R213 to R215, R232). -/

namespace Sys2Proof.Machine

/-- The NMU descriptor (R213) as its 1,024 bits. -/
abbrev NDesc := Nat

def NDesc.etype (d : NDesc) : Nat := bitsOf d 0 4
def NDesc.vspace (d : NDesc) : Nat := bitsOf d 4 2
def NDesc.pspace (d : NDesc) : Nat := bitsOf d 6 2
def NDesc.sub (d : NDesc) : Nat := bitsOf d 8 8
def NDesc.count (d : NDesc) : Nat := bitsOf d 32 32
def NDesc.p0 (d : NDesc) : Nat := bitsOf d 64 32
def NDesc.p1 (d : NDesc) : Nat := bitsOf d 96 32
def NDesc.p2 (d : NDesc) : Nat := bitsOf d 128 32
def NDesc.p3 (d : NDesc) : Nat := bitsOf d 160 32
def NDesc.vbase (d : NDesc) : Nat := bitsOf d 256 64
def NDesc.vlim (d : NDesc) : Nat := bitsOf d 320 64
def NDesc.pbase (d : NDesc) : Nat := bitsOf d 384 64
def NDesc.plim (d : NDesc) : Nat := bitsOf d 448 64
def NDesc.la (d : NDesc) : Nat := bitsOf d 512 64
def NDesc.lb (d : NDesc) : Nat := bitsOf d 576 64

/-- Segment and offset of a SEG address (R174). -/
def segOf (a : Nat) : Nat := bitsOf a 40 8
def ofsOf (a : Nat) : Nat := bitsOf a 0 40

/-- Does an operation name its vault side, its other side, or one variant more (R214)? -/
def usesV (op : VaultOp) : Bool := decide (op ≠ .merge)
def usesP (op : VaultOp) : Bool := decide (op = .merge ∨ op = .topk ∨ op = .rred ∨ op = .decomp)

/-- Is the operation CTRSET's INIT? -/
def isInit (op : VaultOp) (d : NDesc) : Bool := decide (op = .ctrset) && decide (d.sub = 0)

/-- The output of TOPK or MERGE: coordinates per entry. -/
def topkRank (d : NDesc) : Nat := bitsOf d.p2 0 2 + 1

/-- A SEG base with bits above the address (R174). -/
def segBad (a : Nat) : Bool := decide (bitsOf a 48 16 ≠ 0)

/-- A reserved encoding or non-zero reserved bit of an NMU descriptor (R174, R213, R214). The two spaces and ETYPE are
looked at for every operation (log 23). -/
def nmuReserved (op : VaultOp) (d : NDesc) : Bool :=
  let z (used : Bool) (v : Nat) : Bool := !used && decide (v ≠ 0)
  let init := isInit op d
  let mergeBad (a : Nat) : Bool := if bitOf d.sub 2 then segBad a else decide (bitsOf a 22 42 ≠ 0)
  decide (3 < d.etype) || decide (d.vspace = 0 ∨ d.vspace = 3) || decide (1 < d.pspace)
    || decide (bitsOf d 16 16 ≠ 0) || decide (bitsOf d 192 64 ≠ 0)
    || (match op with
        | .merge => decide (7 < d.sub) || decide (1 < d.sub % 4)
        | .rred => decide (2 < d.sub)
        | .ctrset => decide (2 < d.sub)
        | _ => decide (d.sub ≠ 0))
    || z (usesV op) d.vbase || z (usesV op) d.vlim || z (usesP op) d.pbase || z (usesP op) d.plim
    || z (decide (op = .merge) || init) d.la || z (decide (op = .merge)) d.lb
    || z (usesP op || decide (op = .fill)) d.count
    || z (decide (op ≠ .unlock) && (decide (op ≠ .ctrset) || init)) d.p0
    || z (decide (op = .topk ∨ op = .rred ∨ op = .fill ∨ op = .decomp) || init) d.p1
    || z (decide (op = .topk ∨ op = .decomp) || init) d.p2 || z (decide (op = .decomp)) d.p3
    || (usesV op && decide (d.vspace = 1) && segBad d.vbase)
    || (usesP op && (if d.pspace = 0 then decide (bitsOf d.pbase 22 42 ≠ 0) else segBad d.pbase))
    || (decide (op = .merge) && (mergeBad d.la || mergeBad d.lb)) || (init && segBad d.la)
    || (decide (op = .topk) && (decide (64 < d.p0) || decide (3 < d.p2)))
    || (decide (op = .ctradd ∨ op = .lock) && decide (65535 < d.p0)) || (init && decide (1 < d.p2))

/-- Bytes of a row of `n` elements of an ETYPE. -/
def rowBytes (et n : Nat) : Nat := ceilDiv (n * etBits et) 8

/-- Do `w` bytes from a side's base, in each of `rows` rows `str` bytes or one KV token apart, lie within its limit
(R215)? -/
def inLimit (space base lim rows str w : Nat) : Bool :=
  if space = 2 then decide (kvByte base + w ≤ lim) && decide (kvToken base + rows ≤ 2 ^ 21)
  else decide ((rows - 1) * str + w ≤ lim)

/-- The bytes that an operation reads and writes lie within its limits, as the descriptor alone shows them (R215). -/
def nmuRange (op : VaultOp) (d : NDesc) : Bool :=
  match op with
  | .topk => inLimit d.vspace d.vbase d.vlim 1 0 (4 * d.count) && decide (16 + 4 * topkRank d * min d.p0 d.count ≤ d.plim)
  | .rred => inLimit d.vspace d.vbase d.vlim d.count d.p1 (rowBytes d.etype d.p0) && decide (16 * d.count ≤ d.plim)
  | .fill => decide (64 * d.count ≤ d.vlim)
  | .merge => decide (d.p0 + d.count ≤ d.plim)
  | _ => decide (64 ≤ d.vlim)

/-- Is an address misaligned under R180 or R215? Lists lie on multiples of 16 B (R52), headers and records on multiples
of 64 B (R38, R215). -/
def nmuMisaligned (op : VaultOp) (d : NDesc) : Bool :=
  let vb := if d.vspace = 2 then kvByte d.vbase else d.vbase
  let off (a n : Nat) : Bool := decide (a % n ≠ 0)
  match op with
  | .merge => off d.pbase 16 || off d.p0 8 || off d.la 16 || off d.lb 16
  | .topk => off vb 8 || off d.pbase 16
  | .rred => off vb 8 || off d.pbase 8 || off d.p1 8
  | .decomp => off vb 64 || off d.pbase 64 || off d.p1 64 || off d.p2 64
  | _ => off vb 64

/-- Rows 1 to 8 of R232 that the descriptor decides alone, in order. -/
def nmuChecks (p : Option Pattern) (op : VaultOp) (d : NDesc) (unit : Nat) : List (Bool × Stop) :=
  [ (decide (Config.topUnit < unit + 2), rejectS .scratchRange),
    (!compl 384 (bitsOf d 256 384) (bitsOf d 640 384), faultS .pairMismatch),
    (nmuReserved op d || (usesV op && decide (d.vspace = 2)
        && (match p with | none => false | some p => decide (p.manifest.params.kvpitch < d.vlim))), rejectS .badDesc),
    ((decide (d.vspace = 2) && usesV op && decide (op ≠ .topk) && decide (op ≠ .rred))
        || (decide (op = .decomp) && decide (d.pspace ≠ 0)), rejectS .spaceOp),
    ((usesP op && decide (op ≠ .merge) && decide (d.count = 0))
        || (decide (op = .topk ∨ op = .ctradd ∨ op = .rred) && decide (d.p0 = 0))
        || (decide (op = .decomp) && decide (d.p2 = 0))
        || (usesV op && decide (d.vlim = 0)) || (usesP op && decide (d.plim = 0)), rejectS .zeroExtent),
    (usesP op && decide (d.pspace = 0) && decide (Config.scratchTop < d.pbase + d.plim), rejectS .scratchRange),
    (nmuMisaligned op d, rejectS .misalign),
    (decide (op = .topk) && decide (d.etype ≠ 3), rejectS .nmuType),
    (!nmuRange op d, rejectS .nmuRange) ]

/-! ### Bytes an NMU reads and writes -/

/-- An element an NMU reads: it never fills, so a batch entry that names no stream faults with KV_UNMAPPED (R215,
log 23). -/
def nmuRead (p : Option Pattern) (x : Mv) (bits : Nat) (l : Loc) : Except Stop (Int × Mv) :=
  match l with
  | .kv e h t b _ =>
    if shadowSlot x.sc e = none then
      .error { faultS .kvUnmapped with x56 := e + h * 2 ^ 12 + t * 2 ^ 28 + b * 2 ^ 49 }
    else (rdLoc p x bits 0 l).map (fun y => (signed bits y.1, y.2))
  | _ => (rdLoc p x bits 0 l).map (fun y => (signed bits y.1, y.2))

/-- Several elements an NMU reads. -/
def nmuReads (p : Option Pattern) (bits : Nat) : Mv → List Loc → Except Stop (List Int × Mv)
  | x, [] => .ok ([], x)
  | x, l :: ls =>
    match nmuRead p x bits l with
    | .error e => .error e
    | .ok (v, y) =>
      match nmuReads p bits y ls with
      | .error e => .error e
      | .ok (vs, z) => .ok (v :: vs, z)

/-- Bytes an NMU writes to its other side from `a` on; those before a fault stay written. -/
def nmuWrite (pi : Nat) (p : Option Pattern) (space : Nat) : Mv → Nat → List Byte → Mv × Option Stop
  | x, _, [] => (x, none)
  | x, a, b :: bs =>
    match wrLoc pi p x 8 (if space = 0 then .scratch a 0 else .seg (segOf a) (ofsOf a) 0) b.toNat with
    | .error e => (x, some e)
    | .ok y => nmuWrite pi p space y (a + 1) bs

/-- A side of the descriptor. -/
def nmuSide (space base lim s0 str : Nat) : Side :=
  { space := space, base := base, lim := lim, s0 := s0, str := [(str : Int), 0, 0] }

/-- An extent of `n` bytes of a side. -/
def nmuExt (space base n : Nat) : Ext :=
  if space = 0 then .scratch base n else if space = 1 then .seg (segOf base) (ofsOf base) n else .kv (kvEntry base) 1

/-- The scratch span of `n` bytes of a side, if it lies in scratch. -/
def nmuSpan (space base n : Nat) : List Span := if space = 0 ∧ n ≠ 0 then [[(base, n)]] else []

/-! ### Records in SEG that element operations read and write (R209) -/

/-- The segment that holds a 64 B record, which needs both R and W (R209). -/
def recSeg (p : Option Pattern) (a n : Nat) : Except Stop Segment :=
  match xlateSeg p (segOf a) (ofsOf a) true true with
  | .error e => .error e
  | .ok _ => xlateSeg p (segOf a) (ofsOf a + n - 1) true true

/-- The `n` bytes at a SEG address, as a number. -/
def recGet (s : State) (p : Option Pattern) (a n : Nat) : Except Stop Nat :=
  match recSeg p a n with
  | .error e => .error e
  | .ok g =>
    if s.lostAt (g.phys (ofsOf a)) && !g.protected' then .error (vaultUe (g.phys (ofsOf a)))
    else .ok (ofBytes (segBytes s g (ofsOf a) n))

/-- Write the low `n` bytes of `v` at a SEG address whose rights have been checked. -/
def recPut (s : State) (pi : Nat) (p : Option Pattern) (a n v : Nat) : State :=
  match recSeg p a n with
  | .error _ => s
  | .ok g => segPuts s pi (segOf a) g (ofsOf a) (toBytes n v)

/-- The vault whose NMU is the target of an element operation on a SEG address (R208). -/
def recVault (p : Option Pattern) (a : Nat) : Nat :=
  match recSeg p a 1 with
  | .error _ => 0
  | .ok g => physVault (g.phys (ofsOf a))

/-- Bytes that the NMU of vault `v` reads or writes (R234). -/
def nmuBytesAt (s : State) (v n : Nat) : State := s.bump (vaultCtr v 0x08) n

/-- The 64 B word at a SEG address is read at its target NMU: its row stays open (R233). -/
def recOpen (s : State) (p : Option Pattern) (a : Nat) : State :=
  match recSeg p a 64 with
  | .error _ => s
  | .ok g => openRow s (g.phys (ofsOf a))

end Sys2Proof.Machine
end

