-- ==== Sys2Proof/Machine/Nmu.lean ====
section
/-! DEFINITION. The Near-Memory Unit: what each vault command does as it starts (R208 to R229). -/

namespace Sys2Proof.Machine

/-! ### Work counters (R221 to R225) -/

/-- Fields of a counter record (R221). -/
def ctrNext (w : Nat) : Nat := bitsOf w 0 32
def ctrLimit (w : Nat) : Nat := bitsOf w 64 32
def ctrCmap (w : Nat) : Nat := bitsOf w 128 64
def ctrClaim (w : Nat) : Bool := bitOf w 256

/-- Do all three pairs of a counter record agree (R221)? -/
def ctrPairs (w : Nat) : Bool :=
  compl 32 (bitsOf w 0 32) (bitsOf w 32 32) && compl 32 (bitsOf w 64 32) (bitsOf w 96 32)
    && compl 64 (bitsOf w 128 64) (bitsOf w 192 64)

/-- The 64 bytes of a counter record. -/
def ctrRecord (next limit cmap : Nat) (claim : Bool) : Nat :=
  next + (2 ^ 32 - 1 - next) * 2 ^ 32 + limit * 2 ^ 64 + (2 ^ 32 - 1 - limit) * 2 ^ 96 + cmap * 2 ^ 128
    + (2 ^ 64 - 1 - cmap) * 2 ^ 192 + b2n claim * 2 ^ 256

/-- A counter record as it is read, its pairs checked. -/
def ctrGet (s : State) (p : Option Pattern) (a : Nat) : Except Stop Nat :=
  match recGet s p a 64 with
  | .error e => .error e
  | .ok w => if ctrPairs w then .ok w else .error (faultS .pairMismatch)

/-- A claim entry (R224): claimant, orphan bit and state. -/
def claimant (e : Nat) : Nat := bitsOf e 0 13
def claimOrphan (e : Nat) : Bool := bitOf e 13
def claimState (e : Nat) : Nat := bitsOf e 14 2
def claimEntry (core : Nat) (orphan : Bool) (st : Nat) : Nat := core + b2n orphan * 2 ^ 13 + st * 2 ^ 14

/-- Claim entries 0 to `n` − 1, in order. -/
def claimsGet (s : State) (p : Option Pattern) (cmap : Nat) : Nat → Except Stop (List Nat)
  | 0 => .ok []
  | n + 1 =>
    match claimsGet s p cmap n, recGet s p (cmap + 2 * n) 2 with
    | .error e, _ => .error e
    | _, .error e => .error e
    | .ok l, .ok w => .ok (l ++ [w])

/-- Write one claim entry. -/
def claimPut (s : State) (pi : Nat) (p : Option Pattern) (cmap i e : Nat) : State := recPut s pi p (cmap + 2 * i) 2 e

/-- The lowest index whose claim entry satisfies `f`. -/
def claimFind (f : Nat → Bool) (l : List Nat) : Option Nat := (List.range l.length).find? (fun i => f (l.getD i 0))

/-- The counters registered at a vault's NMU. -/
def State.regCtrs (s : State) (v : Nat) : List RegCtr := (s.vault v).ctrs

/-- The doorbell notification of a registered counter (R352). -/
def ctrNotify (s : State) (pi v a : Nat) : Option (Nat × Nat) :=
  ((s.regCtrs v).find? (fun r => decide (r.pat = pi ∧ r.addr = a))).bind (·.notify)

/-- CTRADD at the target NMU (R223): the state after the draw, and the result word. -/
def ctrDraw (s : State) (c pi : Nat) (p : Option Pattern) (a inc : Nat) : Except Stop (State × Nat) :=
  match ctrGet s p a with
  | .error e => .error e
  | .ok w =>
    let v := recVault p a
    if ctrClaim w && decide (inc ≠ 1) then .error (rejectS .ctrMode) else
    match (if ctrClaim w then claimsGet s p (ctrCmap w) (ctrLimit w) else .ok []) with
    | .error e => .error e
    | .ok l =>
      let mine (e : Nat) : Bool := decide (claimant e = c) && claimOrphan e && decide (claimState e = 1 ∨ claimState e = 2)
      match claimFind mine l with
      | some i =>
        let st := if claimState (l.getD i 0) = 1 then 1 else 2
        .ok ((claimPut s pi p (ctrCmap w) i (claimEntry c false 1)).bump32 (vaultCtr v 0x38) 1, i + st * 2 ^ 32)
      | none =>
        if ctrLimit w ≤ ctrNext w then .ok (s, 0xFFFFFFFF + 3 * 2 ^ 32) else
        let i := ctrNext w
        let n := min (i + inc) (ctrLimit w)
        let s1 := recPut s pi p a 8 (n + (2 ^ 32 - 1 - n) * 2 ^ 32)
        let s2 := if ctrClaim w then claimPut s1 pi p (ctrCmap w) i (claimEntry c false 1) else s1
        match ctrNotify s pi v a with
        | some g => .ok (if n = ctrLimit w then s2.emit (.doorbell g.1 g.2) else s2, i)
        | none => .ok (s2, i)

/-- Zero the claim entries of an INIT under CLAIM (R222). -/
def claimsZero (s : State) (pi : Nat) (p : Option Pattern) (cmap n : Nat) : State :=
  (List.range n).foldl (fun s i => claimPut s pi p cmap i 0) s

/-- Take a counter off its NMU's list. -/
def ctrDrop (s : State) (v pi a : Nat) : State :=
  let x := s.vault v
  s.setVault v { x with ctrs := x.ctrs.filter (fun r => !decide (r.pat = pi ∧ r.addr = a)) }

/-- Register a counter with its target NMU (R222). -/
def ctrRegister (s : State) (v : Nat) (r : RegCtr) : State :=
  let s1 := ctrDrop s v r.pat r.addr
  let x := s1.vault v
  s1.setVault v { x with ctrs := x.ctrs ++ [r] }

/-- CTRSET INIT (R222): the record is written, its claim entries are zeroed under CLAIM, and it is registered. -/
def ctrInit (s : State) (pi : Nat) (p : Option Pattern) (a next limit cmap : Nat) (claim : Bool)
    (notify : Option (Nat × Nat)) : Except Stop State :=
  if claim && decide (65536 < limit) then .error (rejectS .ctrMode) else
  match recSeg p a 64, (if claim && decide (limit ≠ 0) then (recSeg p cmap (2 * limit)).map (fun _ => ()) else .ok ()) with
  | .error e, _ => .error e
  | _, .error e => .error e
  | .ok _, .ok _ =>
    let v := recVault p a
    let others := (s.regCtrs v).filter (fun r => !decide (r.pat = pi ∧ r.addr = a))
    if 16 ≤ others.length then .error (rejectS .ctrLimit) else
    let s1 := recPut s pi p a 64 (ctrRecord next limit cmap claim)
    let s2 := if claim then claimsZero s1 pi p cmap limit else s1
    .ok (ctrRegister s2 v { pat := pi, addr := a, cmap := cmap, claim := claim, limit := limit, notify := notify })

/-- CTRSET DONE (R224): every CLAIMED entry of the issuing core becomes DONE. -/
def ctrDone (s : State) (c pi : Nat) (p : Option Pattern) (a : Nat) : Except Stop State :=
  match ctrGet s p a with
  | .error e => .error e
  | .ok w =>
    match (if ctrClaim w then claimsGet s p (ctrCmap w) (ctrLimit w) else .ok []) with
    | .error e => .error e
    | .ok l => .ok ((List.range l.length).foldl (fun s i =>
        let e := l.getD i 0
        if claimant e = c ∧ claimState e = 1 then claimPut s pi p (ctrCmap w) i (claimEntry c (claimOrphan e) 3) else s) s)

/-- CTRSET RELEASE (R222): the record is read, and the counter is unregistered. -/
def ctrRelease (s : State) (pi : Nat) (p : Option Pattern) (a : Nat) : Except Stop State :=
  match ctrGet s p a with
  | .error e => .error e
  | .ok _ => .ok (ctrDrop s (recVault p a) pi a)

/-- A linked SCADD as it starts (R224): the issuing core's lowest CLAIMED index whose ORPHAN bit is clear becomes
APPLYING; the entry's SEG address is kept until the command completes. -/
def ctrApply (s : State) (c pi : Nat) (p : Option Pattern) (a : Nat) : Except Stop (State × Nat) :=
  match ctrGet s p a with
  | .error e => .error e
  | .ok w =>
    match (if ctrClaim w then claimsGet s p (ctrCmap w) (ctrLimit w) else .ok []) with
    | .error e => .error e
    | .ok l =>
      match claimFind (fun e => decide (claimant e = c) && decide (claimState e = 1) && !claimOrphan e) l with
      | none => .error (rejectS .ctrLink)
      | some i => .ok (claimPut s pi p (ctrCmap w) i (claimEntry c false 2), ctrCmap w + 2 * i)

/-- A linked SCADD as it completes (R224): its index becomes DONE; the orphan bit keeps its value. -/
def ctrApplied (s : State) (c pi : Nat) (p : Option Pattern) (a : Nat) : State :=
  match recGet s p a 2 with
  | .error _ => s
  | .ok e => recPut s pi p a 2 (claimEntry c (claimOrphan e) 3)

/-! ### Locks (R226 to R229) -/

/-- Fields of a lock word (R226). -/
def lockOwner (w : Nat) : Nat := bitsOf w 0 13
def lockEpoch (w : Nat) : Nat := bitsOf w 13 16
def lockState (w : Nat) : Nat := bitsOf w 29 2
def lockSuspect (w : Nat) : Bool := bitOf w 31

/-- A lock word. -/
def lockWord (owner epoch st : Nat) (suspect : Bool) : Nat := owner + epoch * 2 ^ 13 + st * 2 ^ 29 + b2n suspect * 2 ^ 31

/-- A lock word as it is read, its complement checked. -/
def lockGet (s : State) (p : Option Pattern) (a : Nat) : Except Stop Nat :=
  match recGet s p a 64 with
  | .error e => .error e
  | .ok w => if compl 64 (bitsOf w 0 64) (bitsOf w 64 64) then .ok (bitsOf w 0 64) else .error (faultS .pairMismatch)

/-- Write a lock word with its complement; its reserved bits keep their value. -/
def lockPut (s : State) (pi : Nat) (p : Option Pattern) (a old w : Nat) : State :=
  let x := old / 2 ^ 32 * 2 ^ 32 + w
  recPut s pi p a 16 (x + (2 ^ 64 - 1 - x) * 2 ^ 64)

/-- What one try of a LOCK finds. -/
inductive LockTry
  | acquired (s : State) (word : Nat)
  | busy (epoch : Nat)
  | stop (st : Stop)

/-- One try of LOCK at the target NMU (R227): a FREE or BROKEN lock is acquired and entered in the core's table; one that
the core itself holds is rejected. A reserved state counts as held (log 23). -/
def lockTry (s : State) (c pi : Nat) (p : Option Pattern) (a : Nat) : LockTry :=
  if 16 ≤ (s.core c).locks.length then .stop (rejectS .lockLimit) else
  match lockGet s p a with
  | .error e => .stop e
  | .ok w =>
    if lockState w = 0 ∨ lockState w = 2 then
      let ep := (lockEpoch w + 1) % 65536
      let s1 := lockPut s pi p a w (lockWord c ep 1 (lockSuspect w))
      let k := s1.core c
      .acquired (s1.setCore c { k with locks := k.locks ++ [(a, BitVec.ofNat 16 ep)] })
        (ep + (if lockSuspect w then 2 else 0) * 2 ^ 16)
    else if lockState w = 1 ∧ lockOwner w = c then .stop (rejectS .lockOwner)
    else .busy (lockEpoch w)

/-- UNLOCK (R228): by the owner of a HELD lock only. -/
def lockFree (s : State) (c pi : Nat) (p : Option Pattern) (a : Nat) : Except Stop State :=
  match lockGet s p a with
  | .error e => .error e
  | .ok w =>
    if lockState w = 1 ∧ lockOwner w = c then
      let s1 := lockPut s pi p a w (lockWord c (lockEpoch w) 0 false)
      let k := s1.core c
      .ok (s1.setCore c { k with locks := k.locks.filter (fun l => !decide (l.1 = a)) })
    else .error (rejectS .lockOwner)

/-! ### FILL (R219) -/

/-- Write the pattern over `n` 64 B words from offset `o` of a segment, each at the NMU of its vault (R208); words before a fault
stay written. -/
def fillWords (pi : Nat) (p : Option Pattern) (seg pat : Nat) : State → Nat → Nat → State × Option Stop
  | s, _, 0 => (s, none)
  | s, o, n + 1 =>
    match xlateSeg p seg o false true with
    | .error e => (s, some e)
    | .ok g =>
      fillWords pi p seg pat
        (nmuBytesAt (segPuts s pi seg g o ((List.replicate 8 (toBytes 8 pat)).flatten)) (physVault (g.phys o)) 64) (o + 64) n

/-! ### Lists: MERGE and TOPK (R216, R217) -/

/-- The entries of a BCL list and its header. -/
def listEntries (s : State) (sc : Memory) (p : Option Pattern) (l : ListAt) (rank : Nat) : Nat → Except Stop (List (List Nat))
  | 0 => .ok []
  | n + 1 =>
    match listEntries s sc p l rank n, rdEntry s sc p l rank n with
    | .error e, _ => .error e
    | _, .error e => .error e
    | .ok es, .ok e => .ok (es ++ [e])

/-- Does every entry exceed its predecessor (R53)? -/
def strictly : List (List Nat) → Bool
  | a :: b :: l => lexLt a b && strictly (b :: l)
  | _ => true

/-- The entries of a list before the first that does not exceed its predecessor (R53). -/
def goodRun : List (List Nat) → List (List Nat)
  | a :: b :: l => if lexLt a b then a :: goodRun (b :: l) else [a]
  | l => l

/-- The union of two sorted lists, each entry with its tag: bit 0 for list A, bit 1 for list B. -/
def mergeLists : Nat → List (List Nat) → List (List Nat) → List (List Nat × Nat)
  | 0, _, _ => []
  | _, [], bs => bs.map (fun b => (b, 2))
  | _, as, [] => as.map (fun a => (a, 1))
  | n + 1, a :: as, b :: bs =>
    if lexLt a b then (a, 1) :: mergeLists n as (b :: bs)
    else if lexLt b a then (b, 2) :: mergeLists n (a :: as) bs
    else (a, 3) :: mergeLists n as bs

/-- What a MERGE has merged when the walk of a list meets an entry out of order (R53): `cutA` and `cutB` say that the run given for
that list ends before such an entry, and the merge ends where it would take it (log 87). -/
def mergeUpTo (cutA cutB : Bool) : Nat → List (List Nat) → List (List Nat) → List (List Nat × Nat)
  | 0, _, _ => []
  | _, [], bs => if cutA then [] else bs.map (fun b => (b, 2))
  | _, as, [] => if cutB then [] else as.map (fun a => (a, 1))
  | n + 1, a :: as, b :: bs =>
    if lexLt a b then (a, 1) :: mergeUpTo cutA cutB n as (b :: bs)
    else if lexLt b a then (b, 2) :: mergeUpTo cutA cutB n (a :: as) bs
    else (a, 3) :: mergeUpTo cutA cutB n as bs

/-- The entries of a BCL list as bytes, and the list marked SORTED (R52). -/
def entryBytes (es : List (List Nat)) : List Byte := es.flatMap (fun e => e.flatMap (toBytes 4))
def listBytes (rank : Nat) (es : List (List Nat)) : List Byte :=
  toBytes 16 (es.length + rank * 2 ^ 32 + 2 ^ 40) ++ entryBytes es

/-- TOPK (R217): a position is selected if fewer than `k` positions go before it: a greater score, or an equal one at a
lower position. The result is in ascending position order. -/
def topkPick (k : Nat) (xs : List Int) : List Nat :=
  (List.range xs.length).filter (fun i =>
    let v := xs.getD i 0
    let before (j : Nat) : Bool :=
      let u := xs.getD j 0
      decide (u ≠ -2147483648) && (decide (v < u) || (decide (u = v) && decide (j < i)))
    decide (v ≠ -2147483648) && decide (((List.range xs.length).filter before).length < k))

/-! ### RRED (R218) -/

/-- The entry of one row: the sum, free where it exceeds 48 bits (log 23), or the winner and the lowest column of it. -/
def rredEntry (sub : Nat) (free : W64) (xs : List Int) : RowScalar :=
  if sub = 0 then
    let v := xs.foldl (· + ·) 0
    { s := if fitsS 48 v then v else signed 48 free.toNat, e := 0, idx := 0 }
  else
    let best := xs.foldl (fun a v => if sub = 1 then max a v else min a v) (xs.headD 0)
    { s := best, e := 0, idx := xs.findIdx (fun v => decide (v = best)) }

/-- The 16 bytes of an entry (R130). -/
def rowScalarBytes (x : RowScalar) : List Byte :=
  toBytes 6 (lowBits 48 x.s) ++ toBytes 2 (lowBits 16 x.e) ++ toBytes 4 x.idx ++ toBytes 4 0

/-! ### DECOMP (R220) -/

/-- A segment's bytes from `lo` on, `n` of them, as a memory with the same offsets. -/
def segImage (s : State) (g : Segment) (lo n : Nat) : Memory :=
  (List.range n).filterMap (fun i =>
    let b := (segGet s g (lo + i)).getD 0
    if b = 0 then none else some (lo + i, b))

/-- The padded rows and columns of the tensor declared at a segment offset (R240, log 25). -/
def declShape (p : Option Pattern) (seg ofs : Nat) : Nat × Nat :=
  match p.bind (fun p => p.manifest.tensors.find? (fun t => decide (t.seg = seg ∧ t.offset = ofs))) with
  | none => (0, 0)
  | some t => ((t.pad.drop 1).foldl (fun a x => a * max x 1) 1, t.pad.headD 0)

/-- The source of a DECOMP: a sparse operand read from its segment. Rows of NM values lie at the smallest stride of R45
(log 25). -/
def decompSrc (s : State) (p : Option Pattern) (g : Segment) (d : NDesc) : Opnd :=
  let m := segImage s g (ofsOf d.vbase) d.vlim
  let sh := declShape p (segOf d.vbase) (ofsOf d.vbase)
  let o : Opnd := { mem := m, base := ofsOf d.vbase, h := hdrOf (hdrWord m (ofsOf d.vbase)), rstr := 0, rows := sh.1, cols := sh.2 }
  { o with rstr := ceilDiv o.packed 64 * 64 }

/-- The output header (R220). -/
def decompHdr (src : Hdr) (d : NDesc) : Nat :=
  let so := if src.uniform then 0 else 1 + d.count * d.p3
  src.etype + b2n src.modular * 2 ^ 7 + b2n src.uniform * 2 ^ 10 + src.mult * 2 ^ 16 + lowBits 8 src.ebias * 2 ^ 32
    + so * 2 ^ 64

/-- The value of the source at a row and column: zero where it is absent (R220). -/
def decompElem (o : Opnd) (r c : Nat) : Int :=
  match o.block r (c / 16) with
  | none => 0
  | some l => ((l.getD (c % 16) none)).getD 0

/-- Bytes of the output (R220): to the end of its last row, or of its scale plane. -/
def decompBytes (h : Hdr) (d : NDesc) : Nat :=
  let pay := (d.count - 1) * d.p3 * 64 + rowBytes h.etype d.p2
  if h.uniform then 64 + pay
  else 64 + d.count * d.p3 * 64 + (d.count - 1) * (denseC (d.p3 * 64) h.etype / 32) + d.p2 / 32

/-- The output, written to scratch (R36, R220). -/
def decompWrite (m : Memory) (o : Opnd) (d : NDesc) : Memory :=
  let w := decompHdr o.h d
  let m1 := wrNat m d.pbase 64 (w + (2 ^ 128 - 1 - w) * 2 ^ 128)
  (List.range d.count).foldl (fun m i =>
    let m2 := (List.range d.p2).foldl (fun m j =>
      wrElem m (d.pbase + 64 + i * (d.p3 * 64)) o.bits (j * o.bits) (decompElem o (d.p0 + i) (d.p1 + j))) m
    if o.h.uniform then m2 else
    (List.range (d.p2 / 32)).foldl (fun m q =>
      let x := if o.h.form = 2 then 0 else o.scaleAt (d.p0 + i) (d.p1 + 32 * q)
      wrByte m (d.pbase + 64 + d.count * d.p3 * 64 + i * (denseC (d.p3 * 64) o.h.etype / 32) + q) (rdByte o.mem (o.scale + x))) m2) m1

/-- The first error of a DECOMP's walk, which reads the values of the rows and columns that the output covers (R48, R50, R51, R220);
a reach past the vault-side limit is NMU_RANGE (R215). Of several errors the one at the lower K-block is reported, then the one in
the lower row: R121 gives that order for the Matrix Engine's walk, and the spec gives none for a DECOMP (the model's choice: log
76). -/
def decompWalk (o : Opnd) (d : NDesc) : Option Stop :=
  (firstErr (o.errsFor (ofsOf d.vbase + d.vlim) (fun r => decide (d.p0 ≤ r ∧ r < d.p0 + d.count))
      (fun kb => decide (d.p1 / 16 ≤ kb ∧ kb < (d.p1 + d.p2) / 16)))).map (fun e =>
    if e.2.2 = .scratchRange then rejectS .nmuRange else faultS e.2.2)

/-- Bytes of the source that a DECOMP reads: its header, its table, and what the rows and columns of the output take (log 90). -/
def decompRead (o : Opnd) (d : NDesc) : Nat :=
  let es := (List.range d.count).flatMap (fun i => (List.range (d.p2 / 16)).map (fun j =>
    match o.block (d.p0 + i) (d.p1 / 16 + j) with
    | none => 0
    | some l => (l.filter (·.isSome)).length))
  64 + (ceilDiv o.rows 16 + 1) * 4 + es.foldl (· + ·) 0 * o.bits / 8

/-! ### The streaming operations as they start -/

/-- What a streaming operation reads and writes in scratch, and how it runs once its slots are in state. -/
structure Plan where
  ins : List Span
  outs : List Span
  run : Mv → Mv × Option Stop
  draws : Nat

/-- The scores of a TOPK. -/
def topkLocs (d : NDesc) : List Loc :=
  (List.range d.count).map (fun i => (nmuSide d.vspace d.vbase d.vlim 32 0).loc 32 0 (i, 0, 0, 0))

/-- The entries of a TOPK's output; a coordinate beyond 32 bits is free (log 23). -/
def topkList (d : NDesc) (drawn : Nat) (xs : List Int) : List (List Nat) :=
  (topkPick d.p0 xs).map (fun i =>
    (if i + d.p1 < 2 ^ 32 then i + d.p1 else bitsOf (Config.freeSum (drawn + i)).toNat 0 32)
      :: List.replicate (topkRank d - 1) 0)

/-- TOPK (R217). -/
def planTopk (pi : Nat) (p : Option Pattern) (d : NDesc) (unit : Nat) (x : Mv) : Except Stop Plan :=
  let n := 16 + 4 * topkRank d * min d.p0 d.count
  if anyMeet [nmuExt d.vspace d.vbase (4 * d.count), nmuExt d.pspace d.pbase n, .scratch (unit * 64) 128] then
    .error (rejectS .overlap)
  else .ok { ins := [], outs := nmuSpan d.pspace d.pbase n, draws := d.count,
             run := fun y =>
               match nmuReads p 32 y (topkLocs d) with
               | .error e => (y, some e)
               | .ok (xs, z) => nmuWrite pi p d.pspace z d.pbase (listBytes (topkRank d) (topkList d x.s.drawn xs)) }

/-- The elements of row `r` of an RRED: of a DENSE row P1 bytes on, or of the next token's row in KV (log 23). -/
def rredLocs (d : NDesc) (r : Nat) : List Loc :=
  (List.range d.p0).map (fun i =>
    (nmuSide d.vspace d.vbase d.vlim (etBits d.etype) d.p1).loc (etBits d.etype) 0 (i, r, 0, 0))

/-- The rows of an RRED reduced and written one after another. -/
def rredRows (pi : Nat) (p : Option Pattern) (d : NDesc) (drawn : Nat) : List Nat → Mv → Mv × Option Stop
  | [], x => (x, none)
  | r :: rs, x =>
    match nmuReads p (etBits d.etype) x (rredLocs d r) with
    | .error e => (x, some e)
    | .ok (xs, y) =>
      match nmuWrite pi p d.pspace y (d.pbase + 16 * r) (rowScalarBytes (rredEntry d.sub (Config.freeSum (drawn + r)) xs)) with
      | (z, some e) => (z, some e)
      | (z, none) => rredRows pi p d drawn rs z

/-- RRED (R218). -/
def planRred (pi : Nat) (p : Option Pattern) (d : NDesc) (unit : Nat) (x : Mv) : Except Stop Plan :=
  let w := (d.count - 1) * d.p1 + rowBytes d.etype d.p0
  if anyMeet [nmuExt d.vspace d.vbase w, nmuExt d.pspace d.pbase (16 * d.count), .scratch (unit * 64) 128] then
    .error (rejectS .overlap)
  else .ok { ins := [], outs := nmuSpan d.pspace d.pbase (16 * d.count), draws := d.count,
             run := rredRows pi p d x.s.drawn (List.range d.count) }

/-- The entries of a MERGE's two lists, read as its walk does (R216). -/
def mergeEntries (p : Option Pattern) (la lb : ListAt) (ha hb : ListHdr) (y : Mv) :
    Except Stop (List (List Nat) × List (List Nat) × Mv) :=
  match listEntries y.s y.sc p la ha.rank ha.count, listEntries y.s y.sc p lb hb.rank hb.count with
  | .error e, _ => .error e
  | _, .error e => .error e
  | .ok ea, .ok eb =>
    let na := 16 + 4 * ha.rank * ha.count
    let nb := 16 + 4 * hb.rank * hb.count
    let z := (y.listRead p la 0 na).listRead p lb 0 nb
    .ok (ea, eb, { z with rd := z.rd + 8 * (na + nb) })

/-- A MERGE once its slots are in state: the merged list and its tags; an entry out of order faults it with SPARSE_ORDER, what was
merged before it having been written (R53), but no header (log 87). -/
def mergeRun (pi : Nat) (p : Option Pattern) (d : NDesc) (la lb : ListAt) (ha hb : ListHdr) (y : Mv) : Mv × Option Stop :=
  match mergeEntries p la lb ha hb y with
  | .error e => (y, some e)
  | .ok (ea, eb, z) =>
    let keep (all : List (List Nat × Nat)) : List (List Nat × Nat) :=
      if d.sub % 4 = 0 then all else all.filter (fun e => decide (e.2 = 3))
    let tagBytes (l : List (List Nat × Nat)) : List Byte := l.map (fun e => BitVec.ofNat 8 e.2)
    let tags := d.pbase + d.p0
    if strictly ea && strictly eb then
      let out := keep (mergeLists (ea.length + eb.length + 1) ea eb)
      let kept := out.take d.count
      match nmuWrite pi p d.pspace { z with drop := z.drop + (out.length - kept.length) } d.pbase (listBytes ha.rank (kept.map (·.1))) with
      | (u, some e) => (u, some e)
      | (u, none) => nmuWrite pi p d.pspace u tags (tagBytes kept)
    else
      let out := keep (mergeUpTo (!strictly ea) (!strictly eb) (ea.length + eb.length + 1) (goodRun ea) (goodRun eb))
      let kept := out.take d.count
      match nmuWrite pi p d.pspace { z with drop := z.drop + (out.length - kept.length) } (d.pbase + 16) (entryBytes (kept.map (·.1))) with
      | (u, some e) => (u, some e)
      | (u, none) =>
        match nmuWrite pi p d.pspace u tags (tagBytes kept) with
        | (v, some e) => (v, some e)
        | (v, none) => (v, some (faultS .sparseOrder))

/-- MERGE (R216): both headers and rows 8 to 11 of R232. -/
def planMerge (pi : Nat) (p : Option Pattern) (d : NDesc) (unit : Nat) (x : Mv) : Except Stop Plan :=
  let sp := b2n (bitOf d.sub 2)
  let la := listAt sp d.la
  let lb := listAt sp d.lb
  match rdListHdr x.s x.sc p la, rdListHdr x.s x.sc p lb with
  | .error e, _ => .error e
  | _, .error e => .error e
  | .ok ha, .ok hb =>
    let na := 16 + 4 * ha.rank * ha.count
    let nb := 16 + 4 * hb.rank * hb.count
    let n := 16 + 4 * ha.rank * d.count
    let tags := d.pbase + d.p0
    match firstStop
      [ (ha.ok && decide (d.plim < n), rejectS .nmuRange),
        (!ha.ok || !hb.ok, rejectS .badDesc),
        (decide (ha.rank ≠ hb.rank), rejectS .listRank),
        (!ha.sorted || !hb.sorted, rejectS .listUnsorted),
        (sp = 0 && decide (Config.scratchTop < d.la + na ∨ Config.scratchTop < d.lb + nb), rejectS .scratchRange),
        ([nmuExt d.pspace d.pbase n, nmuExt d.pspace tags d.count].any (fun o =>
            [nmuExt sp d.la na, nmuExt sp d.lb nb, .scratch (unit * 64) 128].any (extsMeet o)), rejectS .overlap) ] with
    | some st => .error st
    | none =>
      .ok { ins := nmuSpan sp d.la na ++ nmuSpan sp d.lb nb,
            outs := nmuSpan d.pspace d.pbase n ++ nmuSpan d.pspace tags d.count,
            draws := 0, run := mergeRun pi p d la lb ha hb }

/-- A DECOMP once its slots are in state (R220). It writes nothing when its walk meets an error: R48 keeps what was written before,
and no rule orders a DECOMP's writes beside its walk (the model's choice: log 76). -/
def decompRun (p : Option Pattern) (o : Opnd) (d : NDesc) (y : Mv) : Mv × Option Stop :=
  let z := y.listRead p (.seg (segOf d.vbase) (ofsOf d.vbase)) 0 d.vlim
  match decompWalk o d with
  | some st => (z, some st)
  | none => ({ z with sc := decompWrite z.sc o d, rd := z.rd + 8 * decompRead o d, wr := z.wr + 8 * decompBytes o.h d }, none)

/-- DECOMP (R220): rows 6 to 11 of R232 on its source header. -/
def planDecomp (p : Option Pattern) (d : NDesc) (unit : Nat) (x : Mv) : Except Stop Plan :=
  let ends := fun (n : Nat) => xlateSeg p (segOf d.vbase) (ofsOf d.vbase + n) true false
  match ends 0, ends (d.vlim - 1) with
  | .error e, _ => .error e
  | _, .error e => .error e
  | .ok _, .ok g =>
    if (List.range (d.vlim / 65536 + 1)).any (fun i =>
        x.s.lostAt (g.phys (min (ofsOf d.vbase + 65536 * i) (ofsOf d.vbase + d.vlim - 1)))) && !g.protected' then
      .error (vaultUe (g.phys (ofsOf d.vbase))) else
    let o := decompSrc x.s p g d
    let n := decompBytes o.h d
    match firstStop
      [ (!hdrPair o.mem o.base, faultS .pairMismatch),
        (!hdrValid o.mem o.base, rejectS .badHeader),
        (decide (o.h.form = 0), rejectS .nmuType),
        (decide (o.rows < d.p0 + d.count) || decide (o.cols < d.p1 + d.p2) || decide (d.plim < n)
          || decide (d.p3 * 64 < rowBytes o.h.etype d.p2), rejectS .nmuRange),
        (decide (o.h.form = 2) && !o.h.uniform, rejectS .decompScale),
        (anyMeet [.scratch d.pbase n, .scratch (unit * 64) 128], rejectS .overlap) ] with
    | some st => .error st
    | none => .ok { ins := [], outs := nmuSpan 0 d.pbase n, draws := 0, run := decompRun p o d }

/-! ### Starts -/

/-- The vault whose NMU accepts a core's commands (R24, R208). -/
def homeVault (s : State) (c : Nat) : Nat := (siteOf s.helm c).getD 0

/-- Add to the byte counter of a core's home NMU (R234). -/
def nmuBytes (s : State) (c n : Nat) : State := nmuBytesAt s (homeVault s c) n

/-- What a streaming operation leaves in the device, in its core, and in its home NMU's counters (R234). -/
def nmuDone (c : Nat) (k : Core) (rings : List Ring) (draws : Nat) (m : Mv) : State :=
  let s1 := { m.s with drawn := m.s.drawn + draws }.setCore c { k with scratch := m.sc, rings := rings, nmuXlate := m.tags }
  (nmuBytes s1 c (m.rd / 8 + m.wr / 8)).bump (vaultCtr (homeVault s1 c) 0x10) m.drop

/-- A streaming operation with its plan: its rings, its slots and its effect; one that faults on the way leaves its slots as its
start left them (R169). -/
def runPlan (c : Nat) (k : Core) (e : QEntry) (x : Mv) (pl : Except Stop Plan) : StartOut :=
  match pl with
  | .error st => .stop x.s st
  | .ok pl =>
  match ringsOf 4 false k.rings pl.ins, ringsOf 4 true k.rings pl.outs with
  | .error st, _ => .stop x.s st
  | _, .error st => .stop x.s st
  | .ok rs, .ok ws =>
  match slotBlocked k.rings rs ws with
  | some y => .stall y.1 y.2
  | none =>
  match pl.run x with
  | (m, some st) => .stop (nmuDone c k (slotsStart k.rings rs ws) pl.draws m) st
  | (m, none) => .go (nmuDone c k (slotsStart k.rings rs ws) pl.draws m) (inFlight e rs ws)

/-- The vault that holds the byte of a destination element (R208). -/
def locVault (p : Option Pattern) (l : Loc) : Nat :=
  match l with
  | .seg g a _ => recVault p (segAddr g a)
  | _ => 0

/-- Element moves of a SCADD (R212): each destination element in bounds is read, added to modulo 2^32, and written at the NMU of its
vault (R208), which reads and writes its 4 bytes (log 90); its segment needs R and W (R209). -/
def scaddAll (pi : Nat) (p : Option Pattern) (fill : Nat) : Mv → List (Loc × Loc) → Mv × Option Stop
  | x, [] => (x, none)
  | x, (dst, src) :: l =>
    match rdLoc p x 32 fill src with
    | .error e => (x, some e)
    | .ok (v, y) =>
      match dst with
      | .oob => scaddAll pi p fill { y with drop := y.drop + 1 } l
      | _ =>
        match rdLoc p y 32 0 dst with
        | .error e => (x, some e)
        | .ok (u, z) =>
          match wrLoc pi p z 32 dst ((u + v) % 2 ^ 32) with
          | .error e => (x, some e)
          | .ok w => scaddAll pi p fill { w with s := nmuBytesAt w.s (locVault p dst) 8, rd := y.rd, wr := y.wr } l

/-- What a GATHER or SCADD leaves in the device, in its core, in the counters that its core keeps of it, a SCADD's fills not among
them (R197, R210), and in its home NMU's (R234). -/
def nmuMoved (c : Nat) (k : Core) (rings : List Ring) (add : Bool) (m : Mv) : State :=
  let s1 := coreBumps (m.s.setCore c { k with scratch := m.sc, rings := rings, nmuXlate := m.tags }) c
    [(0x80, if add then 0 else m.oob, false), (0x88, m.drop, false)]
  nmuBytes s1 c (m.rd / 8 + m.wr / 8)

/-- GATHER and SCADD of the vault class (R210 to R212): R194 on the descriptor and list record, the rows of R232 that
concern them, the link of R224, and the moves. -/
def startVaultMove (s : State) (c : Nat) (k : Core) (e : QEntry) (add : Bool) (unit : Nat) : StartOut :=
  let p := s.corePat k
  let pi := k.pat.getD 0
  let x : XferAt := { s := s, sc := k.scratch, p := p, op := if add then .scadd else .nmuGather, du := unit, lu := unit + 2 }
  match xferEarly x 4 k.rings with
  | some y => y.out s
  | none =>
  match xferAccept x 2 with
  | .error st => .stop s st
  | .ok h =>
  let sp := xferSpans x h
  let none' := noEntries h
  let lk := rdNat k.scratch ((unit + 3) * 64) 64
  let linked := add && bitOf lk 0
  let ca := bitsOf lk 64 64
  match ringsOf 4 false k.rings sp.1, ringsOf 4 true k.rings sp.2 with
  | .error st, _ => .stop s st
  | _, .error st => .stop s st
  | .ok rs0, .ok ws0 =>
  let rs := if none' then [] else rs0
  let ws := if none' then [] else ws0
  match firstStop
    [ (add && decide (Config.topUnit ≤ unit + 3), rejectS .scratchRange),
      (linked && !compl 64 ca (bitsOf lk 128 64), faultS .pairMismatch),
      (linked && (decide (bitsOf lk 1 63 ≠ 0) || decide (bitsOf lk 192 320 ≠ 0) || segBad ca), rejectS .badDesc),
      (linked && decide (ca % 64 ≠ 0), rejectS .misalign),
      (add && decide (x.d.etype ≠ 3), rejectS .nmuType) ] with
  | some st => .stop s st
  | none =>
  match slotBlocked k.rings rs ws with
  | some y => .stall y.1 y.2
  | none =>
  match (if linked && !none' then (ctrApply s c pi p ca).map (fun y => (y.1, some y.2)) else .ok (s, none)) with
  | .error st => .stop s st
  | .ok (s1, link) =>
    let m0 := mvOf s1 k.scratch k.nmuXlate 64
    let m := match h with
      | none => (m0, none)
      | some h =>
        if add then overList p x.list h (fun m n en =>
          scaddAll pi p x.d.fill m (entryMoves x.d x.l (ixSide x.op x.d) (pkSide x.op x.d) n en)) h.count 0 none
            (m0.listRead p x.list 0 16)
        else xferRun x pi (some h) m0
    let done : State := nmuMoved c k (slotsStart k.rings rs ws) add m.1
    match m.2 with
    | some st => .stop done st
    | none => .go done { inFlight e rs ws with link := link }

/-- An element operation on a record at the NMU of vault `v`: it reads and writes one 64 B word (log 90). -/
def elemDone (v : Nat) (e : QEntry) (s : State) (r : Except Stop State) : StartOut :=
  match r with
  | .error st => .stop s st
  | .ok s1 => .go (nmuBytesAt s1 v 128) (inFlight e [] [])

/-- The result word of a command with DEN set, for S[DREG] (R79, R81). -/
def withResult (fl : InFlight) (dreg : Option Reg) (w : Nat) : InFlight :=
  { fl with result := dreg.map (fun r => (r, BitVec.ofNat 64 w)) }

/-- A LOCK that has been tried: acquired, busy with tries left (`link` keeps its lock's address), BUSY, or stopped
(R227). -/
def lockOut (v : Nat) (fl : InFlight) (dreg : Option Reg) (s : State) (a tries : Nat) (t : LockTry) : StartOut :=
  match t with
  | .acquired s1 w => .go (nmuBytesAt s1 v 128) (withResult { fl with held := false, tries := 0, link := none } dreg w)
  | .busy ep =>
    if tries = 0 then .go (nmuBytesAt s v 64) (withResult { fl with held := false, tries := 0, link := none } dreg (ep + 2 ^ 16))
    else .go (nmuBytesAt s v 64) { fl with held := true, tries := tries, link := some a }
  | .stop st => .stop s st

/-- The pages that an element operation translates, cached by its home NMU (R208): its record's, or those of a FILL's range. -/
def elemHits (x : Mv) (op : VaultOp) (d : NDesc) : Mv :=
  let n := if op = .fill then ceilDiv (ofsOf d.vbase % 65536 + 64 * d.count) 65536 else 1
  (List.range n).foldl (fun x i => x.hit (segTag (segOf d.vbase) (ofsOf d.vbase + 65536 * i))) x

/-- A vault command at the head of the queue. -/
def startVault (s : State) (c : Nat) (k : Core) (e : QEntry) (op : VaultOp) (unit : Nat) (dreg : Option Reg) : StartOut :=
  if op = .gather ∨ op = .scadd then startVaultMove s c k e (decide (op = .scadd)) unit else
  let p := s.corePat k
  let pi := k.pat.getD 0
  let d : NDesc := descAt k.scratch unit
  match firstStop (nmuChecks p op d unit) with
  | some st => .stop s st
  | none =>
  let x := mvOf (s.setCore c k) k.scratch k.nmuXlate 64
  let y := elemHits x op d
  let s1 := y.s.setCore c { k with nmuXlate := y.tags }
  let s0 := if op = .fill then s1 else recOpen s1 p d.vbase
  let v := recVault p d.vbase
  match op with
  | .topk => runPlan c k e x (planTopk pi p d unit x)
  | .rred => runPlan c k e x (planRred pi p d unit x)
  | .merge =>
    match (if bitOf d.sub 2 then none else slotsWait 4 k.rings [d.la, d.lb]) with
    | some h => h.out x.s
    | none => runPlan c k e x (planMerge pi p d unit x)
  | .decomp => runPlan c k e x (planDecomp p d unit x)
  | .fill =>
    match fillWords pi p (segOf d.vbase) (d.p0 + d.p1 * 2 ^ 32) s0 (ofsOf d.vbase) d.count with
    | (s1, some st) => .stop s1 st
    | (s1, none) => .go s1 (inFlight e [] [])
  | .ctradd =>
    match ctrDraw s0 c pi p d.vbase d.p0 with
    | .error st => .stop s0 st
    | .ok (s1, w) => .go (nmuBytesAt s1 v 128) (withResult (inFlight e [] []) dreg w)
  | .ctrset =>
    elemDone v e s0 (if d.sub = 0 then ctrInit s0 pi p d.vbase d.p0 d.p1 d.la (bitOf d.p2 0) none
      else if d.sub = 1 then ctrDone s0 c pi p d.vbase else ctrRelease s0 pi p d.vbase)
  | .lock => lockOut v (inFlight e [] []) dreg s0 d.vbase d.p0 (lockTry s0 c pi p d.vbase)
  | _ => elemDone v e s0 (lockFree s0 c pi p d.vbase)

end Sys2Proof.Machine
end

