-- ==== Sys2Proof/Machine/Alloc.lean ====
section
/-! DEFINITION. Dies in service, frames of the pool, page placement, and the landing zone's bytes (R306, R315 to R317,
R333, R420). -/

namespace Sys2Proof.Machine

/-- The first of `fuel` numbers from `n` on that satisfies `p`. -/
def findFrom (p : Nat → Bool) : Nat → Nat → Option Nat
  | 0, _ => none
  | fuel + 1, n => if p n then some n else findFrom p fuel (n + 1)

/-- Is a compute die in service (R333)? -/
def State.dieIn (s : State) (d : Nat) : Bool := !Sparse.get false s.helm.diesOut d

/-- The compute dies in service, ascending. -/
def State.diesIn (s : State) : List Nat := (List.range 24).filter s.dieIn

/-- The `i`-th vault of a die, ascending (R19, R24). -/
def vaultOf (d i : Nat) : Nat := (d / 6 * 12 + i / 16) * 96 + d % 6 * 16 + i % 16

/-- The SVC_MODE bits of the Chart in force (R309). -/
def State.place (s : State) : Bool := match s.chart with | none => false | some c => c.config.place
def State.mend (s : State) : Bool := match s.chart with | none => false | some c => c.config.mend

/-- Is a frame listed in the Chart's repair map (R416)? -/
def State.badFrame (s : State) (f : Nat) : Bool :=
  match s.chart with | none => false | some c => c.badFrames.any (fun e => decide (e.1 = f / 16384 ∧ e.2 = f % 16384))

/-- Top frames of each vault reserved for device areas (R415). -/
def State.resvTop (s : State) : Nat := match s.chart with | none => 0 | some c => c.config.resvTop

/-! ### The device areas (R420) -/

/-- The die of the `j`-th page of a stripe with base die `b`, counting the listed dies in ascending order (R316). -/
def stripeDie (dies : List Nat) (b j : Nat) : Nat :=
  ((((List.range 24).map (fun i => (b + i) % 24)).filter (fun d => decide (d ∈ dies))).getD j 0)

/-- Pages that stripes 0 to `k` − 1, of base dies `b0`, `b0` + 1 and so on, put on die `d`. -/
def stripesOn (dies : List Nat) (b0 k d : Nat) : Nat :=
  ((List.range 24).map (fun r =>
    if (List.range 8).any (fun j => decide (stripeDie dies (b0 + r) j = d)) then (k + 23 - r) / 24 else 0)).foldl (· + ·) 0

/-- Stripes of the landing zone and of the parked-list area (R420). -/
def lzStripes : Nat := 74899
def parkStripes : Nat := 147

/-- The frames of the reserve in one vault, ascending. -/
def State.reserveOf (s : State) (v : Nat) : List Nat :=
  if (s.vault v).out then [] else
  ((List.range s.resvTop).map (fun i => v * 16384 + (16384 - s.resvTop + i))).filter (fun f => !s.badFrame f)

/-- The `n`-th frame of a die's reserve: the lowest in the lowest-numbered vault that has one (R420). -/
def reserveAt (s : State) (d : Nat) : Nat → Nat → Nat → Option Nat
  | 0, _, _ => none
  | fuel + 1, i, n =>
    let l := s.reserveOf (vaultOf d i)
    if n < l.length then l[n]? else reserveAt s d fuel (i + 1) (n - l.length)

/-- Where Darning has moved the page of a device-area frame (R327, R333). -/
def State.movedTo (s : State) (f : Nat) : Nat := (Sparse.get none s.helm.areaMap f).getD f

/-- The frame of page `j` of stripe `k` of the landing zone; page 7 is its parity. Earlier stripes take earlier frames of
each die. -/
def lzFrame (s : State) (k j : Nat) : Nat :=
  let d := stripeDie s.helm.areaDies k j
  s.movedTo ((reserveAt s d 192 0 (stripesOn s.helm.areaDies 0 k d)).getD 0)

/-- The frame of page `j` of stripe `k` of the parked-list area; page 7 is its parity (R291, R420). -/
def parkFrame (s : State) (k j : Nat) : Nat :=
  let dies := s.helm.areaDies
  let d := stripeDie dies (1 + k) j
  s.movedTo ((reserveAt s d 192 0 (stripesOn dies 0 lzStripes d + stripesOn dies 1 k d)).getD 0)

/-- Is frame `f` taken by a device area: it lies in the reserve, among the frames its die gives to the areas (R420)? -/
def State.inArea (s : State) (f : Nat) : Bool :=
  if f % 16384 + s.resvTop < 16384 then false else
  let d := dieOfSite (f / 16384)
  let n := stripesOn s.helm.areaDies 0 lzStripes d + stripesOn s.helm.areaDies 1 parkStripes d
  let before := ((List.range 192).filter (fun i => decide (vaultOf d i < f / 16384))).map (fun i => (s.reserveOf (vaultOf d i)).length)
  decide (before.foldl (· + ·) 0 + ((s.reserveOf (f / 16384)).filter (fun g => decide (g < f))).length < n)

/-! ### Frames of the pool -/

/-- Is a frame in the free pool: of a vault in use on a die not lost, not taken, not listed and not of a device area? -/
def State.freeFrame (s : State) (f : Nat) : Bool :=
  !Sparse.get false s.helm.frames f && !(s.vault (f / 16384)).out && !Sparse.get false s.helm.diesLost (dieOfSite (f / 16384))
    && !s.badFrame f && !s.inArea f

/-- Are `n` frames from `f` on free, in one vault? -/
def State.freeRun (s : State) (f n : Nat) : Bool :=
  decide (f % 16384 + n ≤ 16384) && (List.range n).all (fun i => s.freeFrame (f + i))

/-- Take or give back a run of frames. -/
def State.takeFrames (s : State) (f n : Nat) (taken : Bool) : State :=
  { s with helm := { s.helm with frames := (List.range n).foldl (fun m i => Sparse.set false m (f + i) taken) s.helm.frames } }

/-- The lowest run of `n` free frames of a vault. -/
def State.runIn (s : State) (v n : Nat) : Option Nat := findFrom (fun f => s.freeRun f n) 16384 (v * 16384)

/-- The lowest run of `n` free frames in the lowest-numbered vault of a die that has one (R316). -/
def State.runOnDie (s : State) (d n : Nat) : Option Nat :=
  (findFrom (fun i => (s.runIn (vaultOf d i) n).isSome) 192 0).bind (fun i => s.runIn (vaultOf d i) n)

/-- Frames of a die's vaults in use that no area, no list of bad frames and no owner takes (R317). -/
def State.freeOn (s : State) (d : Nat) : Nat :=
  let vs := ((List.range 192).map (vaultOf d)).filter (fun v => !(s.vault v).out)
  let areas := min ((vs.map (fun v => (s.reserveOf v).length)).foldl (· + ·) 0)
    (stripesOn s.helm.areaDies 0 lzStripes d + stripesOn s.helm.areaDies 1 parkStripes d)
  let bad := match s.chart with | none => 0 | some c => (c.badFrames.filter (fun e => decide (e.1 ∈ vs))).length
  let taken := (s.helm.frames.filter (fun e => e.2 && decide (e.1 / 16384 ∈ vs))).length
  vs.length * 16384 - areas - bad - taken

/-- Pages that are mapped in a vault: segments' pages and KV pages (R317). -/
def State.mappedIn (s : State) (v : Nat) : Nat :=
  let segs := s.helm.pats.flatMap (fun e => match e.2 with | none => [] | some p => p.segs.flatMap (fun g => g.frames ++ g.parity))
  let kv := s.helm.streams.flatMap (fun e => match e.2 with | none => [] | some x => x.pages.map (fun y => y.2.2))
  ((segs ++ kv).filter (fun f => decide (f / 16384 = v))).length

/-- The first of a list for which `f` is smallest. -/
def leastBy (f : Nat → Nat) : List Nat → Option Nat
  | [] => none
  | a :: l => match leastBy f l with | none => some a | some b => if f b < f a then some b else some a

/-- The dies of a Pattern's regions, ascending (R317). -/
def patDies (p : Pattern) : List Nat :=
  (List.range 24).filter (fun d => p.regions.any (fun r => r.cores.any (fun c => decide (dieOfCore c = d))))

/-- A run of `n` frames under PLACE set: on the die of `ds` with the most free frames, in its vault with the fewest mapped pages
(R317), of those that have the run free. -/
def State.runSpread (s : State) (ds : List Nat) (n : Nat) : Option Nat :=
  let able := ds.filter (fun d => s.dieIn d && (s.runOnDie d n).isSome)
  (leastBy (fun d => 192 * 16384 - s.freeOn d) able).bind (fun d =>
    let vs := ((List.range 192).map (vaultOf d)).filter (fun v => (s.runIn v n).isSome)
    (leastBy s.mappedIn vs).bind (fun v => s.runIn v n))

/-- The run that a KV page or page table takes: on the die of R316 by number, or spread under R317. Where the die has no
room the next in order is asked (log 29). -/
def State.kvRun (s : State) (p : Pattern) (b n : Nat) : Option Nat :=
  if s.place then
    match s.runSpread (patDies p) n with
    | some f => some f
    | none => s.runSpread s.diesIn n
  else
    ((List.range s.diesIn.length).map (stripeDie s.diesIn b)).findSome? (fun d => s.runOnDie d n)

/-! ### Landing-zone bytes -/

/-- Physical address of a byte of the landing zone. -/
def lzAddr (s : State) (a : Nat) : Nat := frameAddr (lzFrame s (a / 65536 / 7) (a / 65536 % 7)) + a % 65536

/-- A byte of the landing zone as the device reads it: rebuilt from its stripe while its die is lost (R333). -/
def lzGet (s : State) (a : Nat) : Byte :=
  if s.lostAt (lzAddr s a) then
    (((List.range 8).filter (fun j => decide (j ≠ a / 65536 % 7))).map (fun j =>
      rdByte s.mem (frameAddr (lzFrame s (a / 65536 / 7) j) + a % 65536))).foldl (· ^^^ ·) 0
  else rdByte s.mem (lzAddr s a)

/-- Write a byte of the landing zone and its parity (R315). -/
def lzPut (s : State) (a : Nat) (b : Byte) : State :=
  let old := lzGet s a
  let pa := frameAddr (lzFrame s (a / 65536 / 7) 7) + a % 65536
  (s.wrMem (lzAddr s a) b).wrMem pa (rdByte s.mem pa ^^^ old ^^^ b)

/-- Write bytes of the landing zone. -/
def lzPuts (s : State) (a : Nat) : List Byte → State
  | [] => s
  | b :: bs => lzPuts (lzPut s a b) (a + 1) bs

/-! ### The parked-list area (R291, R315) -/

/-- Records that the parked list holds at most. -/
def parkRecords : Nat := 1048576

/-- The 64 bytes of place `i` of the area as the device reads them, page `j` of stripe `k` at byte `o`: rebuilt from their stripe while
the page's die is lost (R333). -/
def parkRead (s : State) (k j o : Nat) : List Byte :=
  let f := parkFrame s k j
  if s.lostAt (frameAddr f) then
    let mates := ((List.range 8).filter (fun i => decide (i ≠ j))).map (parkFrame s k)
    (List.range 64).map (fun n => (mates.map (fun g => rdByte s.mem (frameAddr g + o + n))).foldl (· ^^^ ·) 0)
  else rdBytes s.mem (frameAddr f + o) 64

/-- Write the record at place `i` of the area, which is used as a ring, and its parity (R286, R291, R315). -/
def parkWrite (s : State) (i : Nat) (x : Stream) : State :=
  let a := i % parkRecords * 64
  let k := a / 65536 / 7
  let j := a / 65536 % 7
  let new := toBytes 64 x.bits
  let old := parkRead s k j (a % 65536)
  let d := frameAddr (parkFrame s k j) + a % 65536
  let pa := frameAddr (parkFrame s k 7) + a % 65536
  let par := (rdBytes s.mem pa 64).zipWith (· ^^^ ·) (old.zipWith (· ^^^ ·) new)
  let s1 := openRow { s with mem := wrBytes s.mem d new } d
  openRow { s1 with mem := wrBytes s1.mem pa par } pa

/-- The parked list becomes `l`, with its head at place `head` (R291): every record that did not stand at its place before is
written there. -/
def State.setParked (s : State) (head : Nat) (l : List Stream) : State :=
  let old (i : Nat) : Option Stream :=
    (s.helm.parked)[(head + i + parkRecords - s.helm.parkHead % parkRecords) % parkRecords]?
  let s1 := (List.range l.length).foldl (fun s i =>
    match l[i]? with
    | none => s
    | some x => if old i = some x then s else parkWrite s (head + i) x) s
  { s1 with helm := { s1.helm with parked := l, parkHead := head % parkRecords } }

/-- Bytes of the landing zone. -/
def lzBytes (s : State) (a n : Nat) : List Byte := (List.range n).map (fun i => lzGet s (a + i))

/-- Units of 4 KiB that requests may take: all but the last 512 KiB (R371). -/
def lzUnits : Nat := 8388608 - 128

/-- Is a run of units free? -/
def lzFree (s : State) (b n : Nat) : Bool :=
  decide (b + n ≤ lzUnits) && s.lz.all (fun e => decide (e.1 + e.2 ≤ b ∨ b + n ≤ e.1))

/-- A free run of `n` contiguous units: the lowest that begins at 0 or behind a run in use (log 29). -/
def lzAlloc (s : State) (n : Nat) : Option Nat :=
  let starts := 0 :: s.lz.map (fun e => e.1 + e.2)
  (starts.filter (fun b => lzFree s b n)).foldl (fun a b => match a with | none => some b | some c => some (min b c)) none

/-- Zero a run of units and return it to the pool (R230); the FILL and the return are one step (log 28). -/
def lzRelease (s : State) (b n : Nat) : State :=
  let s1 := (List.range (n * 4096)).foldl (fun s i => if lzGet s (b * 4096 + i) = 0 then s else lzPut s (b * 4096 + i) 0) s
  { s1 with lz := s1.lz.filter (fun e => !decide (e = (b, n))) }

end Sys2Proof.Machine
end

