-- ==== Sys2Proof/Machine/Responses.lean ====
section
/-! DEFINITION. Connection records and responses (R372, R375, R376, R381), and how a stream ends (R287, R305, R306). -/

namespace Sys2Proof.Machine

/-! ### Connection records -/

/-- A port die. -/
def State.pd (s : State) (k : Fin 4) : PortDie := s.pds.get k

/-- Put a port die back. -/
def State.setPd (s : State) (k : Fin 4) (x : PortDie) : State := { s with pds := s.pds.set k.val x k.isLt }

/-- A connection record. -/
def State.conn (s : State) (k : Fin 4) (n : Nat) : Option Conn := Sparse.get none (s.pd k).conns n

/-- Put a connection record, or free it. -/
def State.setConn (s : State) (k : Fin 4) (n : Nat) (x : Option Conn) : State :=
  s.setPd k { s.pd k with conns := Sparse.set none (s.pd k).conns n x }

/-- The slot of a live stream, by its SID. -/
def State.slotOf (s : State) (sid : BitVec 32) : Option Nat :=
  (s.helm.streams.find? (fun e => match e.2 with | none => false | some x => decide (x.sid = sid))).map (·.1)

/-- The key that seals a connection's messages: in its staging slot, or in the stream's active key slot (R379, R380). -/
def respKey (s : State) (x : Conn) : Option (BitVec 352) :=
  match x.staging with
  | some k => some k
  | none =>
    match (x.sid.bind s.slotOf).bind s.stream with
    | none => none
    | some y => Sparse.get none (s.pd y.kdie).slots y.rkh

/-- The body of a message as it goes out: sealed after opening, under CONN, the message number and the kind (R375,
R381). -/
def sealedBody (s : State) (x : Conn) (kind : Nat) (body : List Byte) : List Byte :=
  if x.sealed then
    match respKey s x with
    | some k => Config.sealMsg k x.nextMsg (toBytes 4 x.key.conn.toNat ++ toBytes 4 x.nextMsg ++ toBytes 1 kind ++ body)
    | none => []
  else body

/-- The RS segments of a message, of at most 8,192 B each (R369, R375). -/
def rsSegs (x : Conn) (kind : Nat) (body : List Byte) : List RsSeg :=
  let ps := runsOf 8192 8192 (BitVec.ofNat 8 kind :: body)
  (List.range ps.length).map (fun i =>
    { seq := x.nextRs + i, msg := x.nextMsg, kind := kind, first := decide (i = 0), last := decide (i + 1 = ps.length),
      offset := 8192 * i, body := ps.getD i [], tries := 0 })

/-- A segment as it goes to the client (R368, R369). -/
def rsPacket (s : State) (x : Conn) (g : RsSeg) : Emit :=
  .rs (s.netTo x.key.port x.key.ip x.key.udp x.sclass)
    (rqpBits ptRs g.first g.last g.body.length x.key.conn g.seq g.offset g.msg 0 0) g.body

/-- Send what the 64 places for unacknowledged segments allow (R375). -/
def sendBacklog (s : State) (k : Fin 4) (n : Nat) : State :=
  match s.conn k n with
  | none => s
  | some x =>
    let go := x.backlog.take (64 - x.unacked.length)
    (s.setConn k n (some { x with unacked := x.unacked ++ go, backlog := x.backlog.drop (64 - x.unacked.length) })).transmits
      x.key.port (go.map (rsPacket s x))

/-- Send a message on a connection (R375); a forwarded request's goes back over its link (R382). -/
def respond (s : State) (k : Fin 4) (n kind : Nat) (body : List Byte) : State :=
  match s.conn k n with
  | none => s
  | some x =>
    let b := sealedBody s x kind body
    match x.via with
    | some l =>
      sendBytes (s.setConn k n (some { x with nextMsg := x.nextMsg + 1 })) (.direct l) 1 (b.length + 1)
        (.forwardBack l x.key (BitVec.ofNat 8 kind :: b))
    | none =>
      let segs := rsSegs x kind b
      sendBacklog (s.setConn k n (some { x with nextMsg := x.nextMsg + 1, nextRs := x.nextRs + segs.length,
                                                backlog := x.backlog ++ segs })) k n

/-- The last message of a connection (R376): a STATUS. A forwarded request's record is then done with; one that is only kept answers
nothing more. -/
def finalStatus (s : State) (k : Fin 4) (n : Nat) (c : Code) : State :=
  if (s.conn k n).any (fun x => decide (x.phase = .kept)) then s else
  let s1 := respond s k n 2 (toBytes 2 (codeValue c))
  match s1.conn k n with
  | none => s1
  | some x =>
    if x.via.isSome then s1.setConn k n none
    else s1.setConn k n (some { x with phase := .closing, statusSent := some (codeValue c), staging := none })

/-! ### Streams -/

/-- Put a stream-table entry, or free it. -/
def State.setStream (s : State) (slot : Nat) (x : Option Stream) : State :=
  { s with helm := { s.helm with streams := Sparse.set none s.helm.streams slot x } }

/-- Is a stream in a step that has not been accounted yet? -/
def State.inStep (s : State) (slot : Nat) : Bool := s.helm.steps.any (fun t => t.batch.any (fun b => decide (b.slot = slot)))

/-- The register block of a Pattern's Helm. -/
def helmBlock (s : State) (p : Nat) : Nat := match s.pat p with | none => 2 | some x => 2 + x.helm.val

/-- Tell a stream's sender its end (R376), or abandon its connection without a word (R287). -/
def reportEnd (s : State) (x : Stream) (code : Option Code) : State :=
  match s.conn (pdOf x.port) x.crec with
  | none => s
  | some y =>
    if y.sid ≠ some x.sid then s else
    match code with
    | none => s.setConn (pdOf x.port) x.crec none
    | some c => finalStatus s (pdOf x.port) x.crec c

/-- A stream ends (R305): inside a step it becomes ENDING and is reported when the step has been accounted; otherwise at
once. A stream that is already ENDING keeps its first code. -/
def endStream (s : State) (slot : Nat) (code : Option Code) : State :=
  match s.stream slot with
  | none => s
  | some x =>
    if x.st = .ending then s
    else if s.inStep slot then s.setStream slot (some { x with st := .ending, endCode := code })
    else reportEnd (s.setStream slot (some { x with st := .ending, endCode := none })) x code

/-- End several streams. -/
def endStreams (s : State) (slots : List Nat) (code : Option Code) : State := slots.foldl (fun s q => endStream s q code) s

/-- A stream's key pair disagrees (R287): the stream ends without a response, and the event names it. -/
def keyMismatch (s : State) (block slot : Nat) : State :=
  match s.stream slot with
  | none => s
  | some x => endStream (s.logRec { mkRec block .event .pairMismatch with sid := x.sid, pat := x.pat }) slot none

/-- Report the streams of a step that has been taken off the list and ended while they were in it. -/
def reportEnded (s : State) (slots : List Nat) : State :=
  slots.foldl (fun s q =>
    match s.stream q with
    | none => s
    | some x =>
      if x.st = .ending ∧ s.inStep q = false then reportEnd (s.setStream q (some { x with endCode := none })) x x.endCode else s) s

end Sys2Proof.Machine
end

