-- ==== Sys2Proof/Machine/Placement.lean ====
section
/-! DEFINITION. Sites, absent cores, dies taken out of service, and where regions lie (R311 to R314, R324, R332, R333). -/

namespace Sys2Proof.Machine

/-! ### Sites (R311, R312) -/

/-- The marks of a site. -/
def State.mark (s : State) (t : Nat) : SiteMark := Sparse.get SiteMark.init s.helm.marks t

/-- Set the marks of a site. -/
def State.setMark (s : State) (t : Nat) (m : SiteMark) : State :=
  { s with helm := { s.helm with marks := Sparse.set SiteMark.init s.helm.marks t m } }

/-- Set where a logical core is held. -/
def State.setPlace (s : State) (c : Nat) (p : Place) : State :=
  { s with helm := { s.helm with places := Sparse.set Place.ident s.helm.places c p } }

/-- The `i`-th logical core of a die, ascending (R20). -/
def coreOf (d i : Nat) : Nat := (d / 6 * 11 + i / 16) * 96 + d % 6 * 16 + i % 16

/-- The logical cores of a die, ascending. -/
def dieCores (d : Nat) : List Nat := (List.range 176).map (coreOf d)

/-- Is a site HOLDING or SPARE (R312, R332)? -/
def State.siteOk (s : State) (t : Nat) : Bool := !(s.mark t).suspect && !(s.mark t).retired && s.dieIn (dieOfSite t)

/-- The healthy sites of a die. -/
def State.healthy (s : State) (d : Nat) : Nat := ((List.range 192).filter (fun i => s.siteOk (vaultOf d i))).length

/-- The logical core that a site holds. -/
def State.heldBy (s : State) (t : Nat) : Option Nat :=
  (dieCores (dieOfSite t)).find? (fun c => decide (siteOf s.helm c = some t))

/-- The lowest-numbered SPARE site of a die (R323, R419; log 31). -/
def State.spareOf (s : State) (d : Nat) : Option Nat :=
  ((List.range 192).map (vaultOf d)).find? (fun t => s.siteOk t && (s.heldBy t).isNone)

/-- Is a logical core absent (R332)? -/
def State.isAbsent (s : State) (c : Nat) : Bool := decide (c ∈ s.helm.absent)

/-- A present core whose site is out of use moves to a SPARE site of its die, if there is one (R311, R323). -/
def seatCore (s : State) (c : Nat) : State :=
  match siteOf s.helm c with
  | none => s
  | some t =>
    if s.siteOk t then s else
    match s.spareOf (dieOfCore c) with
    | none => s
    | some t' => s.setPlace c (if t' = identSite c then .ident else .at t')

/-- A logical core becomes absent. -/
def makeAbsent (s : State) (c : Nat) : State :=
  let s1 := s.setPlace c .absent
  { s1 with helm := { s1.helm with absent := s1.helm.absent ++ [c] } }

/-- `n` more logical cores of a die become absent, from die-local row 10 downward and column 15, 14 and so on (R332). -/
def absentMore (d : Nat) : Nat → State → State
  | 0, s => s
  | n + 1, s =>
    match ((dieCores d).reverse).find? (fun c => !s.isAbsent c) with
    | none => s
    | some c => absentMore d n (makeAbsent s c)

/-- Absent logical cores of a die. -/
def State.absentOn (s : State) (d : Nat) : List Nat := s.helm.absent.filter (fun c => decide (dieOfCore c = d))

/-- DIE_DEGRADED or DIE_RETIRED: the record's source block names the die (log 31). -/
def dieEvent (s : State) (d : Nat) (c : Code) : State := s.logRec (mkRec (dieBlock d) .event c)

/-- A die is taken out of service: all its logical cores become absent (R333). With fewer than 8 dies left the device stops
admission and reports DEVICE_FAILED. -/
def retireDie (s : State) (d : Nat) : State :=
  if s.dieIn d = false then s else
  let s1 := absentMore d 176 s
  let s2 := dieEvent { s1 with helm := { s1.helm with diesOut := Sparse.set false s1.helm.diesOut d true } } d .dieRetired
  if s2.diesIn.length < 8 then ({ s2 with helm := { s2.helm with admission := false } }).event 0 .deviceFailed 0 else s2

/-- What follows when a die's healthy sites fall: below 176 its logical cores become absent one by one, below 168 the die
goes out of service (R332, R333). -/
def dieCheck (s : State) (d : Nat) : State :=
  if s.dieIn d = false then s else
  let n := s.healthy d
  if n < 168 then retireDie s d else
  let have_ := (s.absentOn d).length
  if 176 - n ≤ have_ then s else
  let s1 := absentMore d (176 - n - have_) s
  if have_ = 0 then dieEvent s1 d .dieDegraded else s1

/-- A site gives a site-class fault: it becomes SUSPECT, or RETIRED the second time (R312). SITE_SUSPECT names the site, its
die and the core it held (R485). -/
def suspectSite (s : State) (block c seq pi : Nat) : State :=
  match siteOf s.helm c with
  | none => s
  | some t =>
    let m := s.mark t
    let s1 := s.setMark t (if m.strike then { m with retired := true } else { m with suspect := true })
    let s2 := s1.logRec { mkRec block .event .siteSuspect with
      core := c, stepSeq := BitVec.ofNat 32 seq, pat := pi, detail := BitVec.ofNat 256 (t + dieOfSite t * 2 ^ 16) }
    dieCheck s2 (dieOfSite t)

/-! ### Rectangles of the logical grid (R313) -/

/-- The logical cores of a rectangle in row-major order. -/
def rectCores (x y w h : Nat) : List Nat :=
  (List.range h).flatMap (fun j => (List.range w).map (fun i => (y + j) * 96 + x + i))

/-- Is a logical core free for a region: present, and in no region but number `r` of Pattern `pi` (R313)? -/
def State.coreFree (s : State) (pi r c : Nat) : Bool :=
  !s.isAbsent c && s.helm.pats.all (fun e =>
    match e.2 with
    | none => true
    | some p => (List.range p.regions.length).all (fun i =>
        decide (e.1 = pi ∧ i = r) ||
          (match p.regions[i]? with | none => true | some g => !decide (c ∈ g.cores))))

/-- Is the rectangle at an origin on the grid and free? -/
def State.rectFree (s : State) (pi r x y w h : Nat) : Bool :=
  decide (x + w ≤ 96 ∧ y + h ≤ 44) && (rectCores x y w h).all (s.coreFree pi r)

/-- Distance of two numbers. -/
def dist (a b : Nat) : Nat := (a - b) + (b - a)

/-- The free origin nearest to number `n` among those that satisfy `f`, the lower of two that are equally near. -/
def nearest (f : Nat → Bool) (n : Nat) (l : List Nat) : Option Nat :=
  leastBy (fun o => 2 * dist o n + (if n < o then 1 else 0)) (l.filter f)

/-- Where a region lies (R313): at its requested origin, or with PLACE set at the nearest free rectangle, first in the same
die row and then in any. -/
def State.placeRegion (s : State) (pi r : Nat) (g : RegionImage) : Option (List Nat) :=
  let w := g.width
  let h := g.height
  if s.rectFree pi r g.originX g.originY w h then some (rectCores g.originX g.originY w h)
  else if s.place = false then none
  else
    let n := g.originY * 96 + g.originX
    let free (o : Nat) : Bool := s.rectFree pi r (o % 96) (o / 96) w h
    let row := (List.range 4224).filter (fun o => decide (o / 96 / 11 = g.originY / 11))
    let go (o : Nat) : List Nat := rectCores (o % 96) (o / 96) w h
    match nearest free n row with
    | some o => some (go o)
    | none => (nearest free n (List.range 4224)).map go

end Sys2Proof.Machine
end

