-- ==== Sys2Proof/Machine/CoreReset.lean ====
section
/-! DEFINITION. Core reset, the loader's placement of a core, and the clearing that ends a cancellation (R249, R253, R433,
R434). -/

namespace Sys2Proof.Machine

/-! ### Core reset (R433) -/

/-- A queue after a reset: disabled, its epoch risen (R274). -/
def RecvQ.afterReset (q : RecvQ) : RecvQ := { RecvQ.reset with epoch := q.epoch + 1 }

/-- What a core reset leaves of a core: the command store with its entries, the Pattern it belongs to, the cycle counter and
the queue epochs. -/
def Core.afterReset (k : Core) : Core :=
  { Core.init with
    pat := k.pat, region := k.region, progLen := k.progLen, store := k.store, entry := k.entry, restart := k.restart,
    useRestart := true, rq := k.rq.map RecvQ.afterReset, cycles := k.cycles }

/-- A core leaves its place among those that wait at Darning. -/
def DarnWait.leave (w : DarnWait) (c : Nat) : DarnWait :=
  match w.issuer with
  | some (c', _) => if c' = c then { w with issuer := none, reply := false } else w
  | none => w

/-- Counters of a core that its reset clears. -/
def State.clearCtrs (s : State) (c : Nat) : State := { s with reg := { s.reg with ctrs := clearCoreCtrs s.reg.ctrs c } }

/-- A core reset (R433): its producer entries' credits go back, its locks are released and its orphan notices sent, and its
state is cleared; its stored items are discarded as the queue epochs rise (R274), and a word that Darning still rebuilds for it has
no one waiting (R311). -/
def coreReset (s : State) (c : Nat) : State :=
  let k := s.core c
  let s1 := discardAll (s.emits (k.prod.map (fun e => .disconnect e.dest e.q c e.epoch e.credits))) c
  let s2 := (releaseCore s1 c).setCore c k.afterReset
  { s2.clearCtrs c with
    helm := { s2.helm with clears := s2.helm.clears.filter (fun x => decide (x ≠ c)), darn := s2.helm.darn.map (·.leave c) } }

/-! ### Placement of a core by the loader (R56, R60, R170, R253) -/

/-- The command store that holds a program. -/
def storeOf (prog : List CmdWord) : Sparse CmdWord :=
  (List.range prog.length).filterMap (fun i => if prog.getD i 0 = 0 then none else some (i, prog.getD i 0))

/-- The initial semaphores of a core image (R60). -/
def semsOf (img : CoreImage) : Vector (BitVec 16) 64 :=
  img.sems.foldl (fun v e => if h : e.1 < 64 then v.set e.1 e.2 h else v) (Vector.replicate 64 0)

/-- A queue as declared (R264), under the epoch it has. -/
def RecvQ.declare (q : RecvQ) (d : QueueDecl) : RecvQ :=
  { q with depth := d.depth, grant := d.grant, cmode := d.cmode, thresh := d.thresh, tsem := d.tsem, pool := d.depth }

/-- The receive queues of a core image, under given epochs. -/
def queuesOf (img : CoreImage) (ep : Fin 8 → BitVec 8) : Vector RecvQ 8 :=
  img.queues.foldl (fun v e => if h : e.1 < 8 then v.set e.1 ((v.get ⟨e.1, h⟩).declare e.2) h else v)
    (Vector.ofFn (fun i => { RecvQ.reset with epoch := ep i }))

/-- The ring records of a core image, every slot EMPTY (R170). -/
def ringsOfImage (img : CoreImage) : List Ring :=
  img.rings.map Ring.ofDecl

/-- The scratch bytes of a core image with the bucket-table copies (R239, R253). -/
def scratchOf (m : Manifest) (img : CoreImage) : Memory :=
  let m1 := img.scratch.foldl (fun a e => wrBytes a (e.1 * 64) e.2) []
  (List.range m.buckets.length).foldl (fun a i =>
    wrBytes a ((m.params.bucketUnit + i) * 64)
      ((List.range 8).flatMap (fun j => toBytes 4 ((m.buckets.getD i []).getD j 0)))) m1

/-- The loader places a core from its image: it enters IDLE, unless the compute dies are held in reset (R30). At load queue epochs are zero and the first dispatch starts at
the entry command; after a reset the epochs stand and it starts at the restart entry (R250, R274). -/
def placeCore (s : State) (c pi ri : Nat) (m : Manifest) (img : CoreImage) (atLoad : Bool) : State :=
  let k := s.core c
  let ep (i : Fin 8) : BitVec 8 := if atLoad then 0 else (k.recvq i).epoch
  s.setCore c { Core.init with
    st := if s.refLost then .reset else .idle, pat := some pi, region := ri, progLen := img.program.length, store := storeOf img.program,
    entry := img.entry, restart := img.restart, useRestart := !atLoad, sems := semsOf img, queues := Core.init.queues,
    scratch := scratchOf m img, rings := ringsOfImage img, rq := queuesOf img ep, cycles := k.cycles }

/-- The image of a placed core. -/
def State.coreImage (s : State) (c : Nat) : Option CoreImage :=
  match s.coreRegion (s.core c) with
  | none => none
  | some r => r.image.cores[indexIn c r.cores]?

/-- Place every core of a region. -/
def placeRegionCores (s : State) (pi ri : Nat) (p : Pattern) (r : Region) (atLoad : Bool) : State :=
  (List.range r.cores.length).foldl (fun s i =>
    match r.image.cores[i]? with
    | none => s
    | some img => placeCore s (r.cores.getD i 0) pi ri p.manifest img atLoad) s

/-! ### The second phase of a cancellation (R249) -/

/-- The credits that a queue holds go back to their producers: those of stored items and of the return list. -/
def queueReturns (c : Nat) (q : Fin 8) (x : RecvQ) : List Emit :=
  (x.items.map (fun i => (i.src, itemWords i.len)) ++ x.ret).map (fun e => .creditReturn e.1 c q x.epoch e.2)

/-- A receive queue emptied. -/
def RecvQ.emptied (q : RecvQ) : RecvQ := { q with items := [], ret := [], armed := true, ptr := (0, 0), ptr2 := (0, 0) }

/-- A register file with S0 to S12 zero. -/
def clearRegs (r : Vector W64 16) : Vector W64 16 := Vector.ofFn (fun i => if i.val < 13 then 0 else r.get i)

/-- A core after CLEAR, with its semaphores' initial values. -/
def Core.cleared (k : Core) (sems : Vector (BitVec 16) 64) : Core :=
  { k.quiet with
    st := .idle, latch := none, loops := [], phase := Vector.replicate 4 false, regs := clearRegs k.regs, sems := sems,
    rings := k.rings.map (fun r => { r with slots := r.slots.map (fun _ => .empty) }), rq := k.rq.map RecvQ.emptied,
    pend := [], useRestart := true, cancelling := false }

/-- The barrier counts of a core's region go back to zero. -/
def clearArrivals (s : State) (c : Nat) : State :=
  let k := s.core c
  match k.pat, s.corePat k, s.coreRegion k with
  | some pi, some p, some r => s.setPat pi (p.setRegion k.region { r with arrived := [] })
  | _, _, _ => s

/-- CLEAR (R249): queues emptied and credits returned; slots, banks, loop stack, registers and semaphores reset; locks
released and orphan notices sent; the core enters IDLE, and its next dispatch starts at the restart entry (R250). A core
in RESET or STOPPED is left to its reset (R251). -/
def execClear (c : Nat) (s : State) : Host.Outcome State Fault Refusal :=
  onCore s c (fun k =>
    if k.st = .reset ∨ k.st = .stopped then s else
    let sems := match s.coreImage c with | none => Vector.replicate 64 0 | some img => semsOf img
    let s1 := s.emits ([0, 1, 2, 3, 4, 5, 6, 7].flatMap (fun q : Fin 8 => queueReturns c q (k.recvq q)))
    let s2 := clearArrivals (releaseCore s1 c) c
    let s3 := s2.setCore c ((s2.core c).cleared sems)
    { s3 with helm := { s3.helm with clears := s3.helm.clears.filter (fun x => decide (x ≠ c)) } })

/-- CORE_RESET (R433): the core leaves RESET when the loader places it again. -/
def execCoreReset (c : Nat) (s : State) : Host.Outcome State Fault Refusal :=
  onCore s c (fun _ => coreReset s c)

/-! ### Locks and claims of a core that was faulted or reset (R225, R229) -/

/-- The address a release's record names (R485). -/
def lockEvent (s : State) (pi c a : Nat) (code : Code) : State :=
  s.logRec { mkRec (helmBlock s pi) .event code with core := c, detail := BitVec.ofNat 256 a }

/-- LOCK_RELEASE (R229): the lock, of the Pattern whose release was sent, is broken if the core still holds it at the recorded epoch. A word that disagrees with its
complement, or that cannot be read, is left and the event says so. -/
def execLockRelease (c addr : Nat) (epoch : BitVec 16) (s : State) : Host.Outcome State Fault Refusal :=
  onCore s c (fun k =>
    let sent := s.helm.frees.find? (fun e => decide (e.1 = c ∧ e.2.1 = addr ∧ e.2.2.1 = epoch))
    let s1 := { s with helm := { s.helm with frees := match sent with | none => s.helm.frees | some e => s.helm.frees.erase e } }
    match (match sent with | none => k.pat | some e => some e.2.2.2) with
    | none => s1
    | some pi =>
      let p := s.pat pi
      match lockGet s1 p addr with
      | .error st => if st.code = .pairMismatch ∨ st.code = .vaultUe then lockEvent s1 pi c addr st.code else s1
      | .ok w =>
        if lockOwner w = c ∧ lockState w = 1 ∧ lockEpoch w = epoch.toNat then
          (lockPut s1 pi p addr w (lockWord c epoch.toNat 2 true)).bump32 (vaultCtr (recVault p addr) 0x3C) 1
        else s1)

/-- Set ORPHAN on a core's CLAIMED and APPLYING entries of one counter (R225). -/
def orphanClaims (s : State) (pi : Nat) (p : Option Pattern) (c : Nat) (r : RegCtr) : State :=
  if r.claim = false then s else
  (List.range r.limit).foldl (fun s i =>
    match recGet s p (r.cmap + 2 * i) 2 with
    | .error _ => s
    | .ok e =>
      if claimant e = c ∧ (claimState e = 1 ∨ claimState e = 2) then claimPut s pi p r.cmap i (claimEntry c true (claimState e))
      else s) s

/-- ORPHAN_NOTICE (R225): the NMU marks the core's entries in its registered counters of the Pattern for which the notice was
sent, and acknowledges. -/
def execOrphanNotice (vault c : Nat) (s : State) : Host.Outcome State Fault Refusal :=
  if Config.nSites ≤ vault then .fault .noSuchVault else
  onCore s c (fun k =>
    match (match s.helm.acks.find? (fun a => decide (a.1 = vault ∧ a.2.1 = c)) with | none => k.pat | some a => some a.2.2) with
    | none => s.emit (.orphanAck vault c)
    | some pi =>
      let mine := (s.regCtrs vault).filter (fun r => decide (r.pat = pi))
      (mine.foldl (fun s r => orphanClaims s pi (s.pat pi) c r) s).emit (.orphanAck vault c))

/-- ORPHAN_NOTICE_ACK (R225): one notice fewer stands between the region and its next dispatch. -/
def execOrphanNoticeAck (vault c : Nat) (s : State) : Host.Outcome State Fault Refusal :=
  if Config.nSites ≤ vault then .fault .noSuchVault else
  onCore s c (fun _ =>
    match s.helm.acks.find? (fun a => decide (a.1 = vault ∧ a.2.1 = c)) with
    | none => s
    | some a => { s with helm := { s.helm with acks := s.helm.acks.erase a } })

end Sys2Proof.Machine
end

