-- ==== Sys2Proof/Machine/Cancel.lean ====
section
/-! DEFINITION. How a step is cancelled, a region stopped, its faults sorted, and a region reset (R88, R248 to R251, R321 to
R324, R334, R434, R517). -/

namespace Sys2Proof.Machine

/-! ### Steps -/

/-- Replace the list of steps. -/
def State.setSteps (s : State) (l : List Step) : State := { s with helm := { s.helm with steps := l } }

/-- Change every step. -/
def State.mapSteps (s : State) (f : Step → Step) : State := s.setSteps (s.helm.steps.map f)

/-- The cores of a Pattern, region by region. -/
def Pattern.coresOf (p : Pattern) : List Nat := p.regions.flatMap (·.cores)

/-- Does one of some cores still run its part of a step of Pattern `pi` (R60, R88)? A core that was faulted in it never halts. -/
def State.runs (s : State) (pi : Nat) (cores : List Nat) : Bool :=
  s.helm.steps.any (fun t => decide (t.pat = pi ∧ (t.phase = .running ∨ t.phase = .cancelling)) &&
    cores.any (fun c => decide (c ∈ t.toHalt)))

/-- Is a step dispatched and neither committed nor stopped? -/
def Step.live (t : Step) : Bool := decide (t.phase = .running ∨ t.phase = .cancelling)

/-- The stream slots of a step. -/
def Step.slots (t : Step) : List Nat := t.batch.map (·.slot)

/-- Set the state of those streams of a list that belong to a step. -/
def setStreams (s : State) (slots : List Nat) (st : StreamState) : State :=
  slots.foldl (fun s q =>
    match s.stream q with
    | none => s
    | some x =>
      if x.st = .stepping ∨ x.st = .commit ∨ x.st = .replay then s.setStream q (some { x with st := st }) else s) s

/-- A Pattern whose step was cancelled waits for no collective round (R365). -/
def dropHold (s : State) (pi : Nat) : State :=
  match s.pat pi with
  | none => s
  | some p => s.setPat pi { p with updateHold := [] }

/-- Steps whose cancellation is over leave the list: their streams return to READY without advancing, and those that ended
are reported (R249, R305, R307). -/
def settle (s : State) : State :=
  let gone (t : Step) : Bool := decide (t.phase = .cancelling) && t.toDrain.isEmpty
  (s.helm.steps.filter gone).foldl (fun s t => reportEnded (setStreams (dropHold s t.pat) t.slots .ready) t.slots)
    (s.setSteps (s.helm.steps.filter (fun t => !gone t)))

/-- After the last drained report of a Pattern's cancellation the Helm sends CLEAR, and adds one to HELM_CANCEL (R249). -/
def drainDone (s : State) (pi : Nat) : State :=
  let mine := s.helm.steps.filter (fun t => decide (t.pat = pi))
  match mine.find? (fun t => !t.toClear.isEmpty) with
  | none => settle s
  | some t =>
    if mine.all (fun t => t.toDrain.isEmpty) then
      let h := (helmBlock s pi) - 2
      let s1 := s.mapSteps (fun u => if u.pat = pi then { u with toClear := [] } else u)
      let s2 := (s1.emits (t.toClear.map .clear)).bump (helmCtr h 0x148) 1
      settle { s2 with helm := { s2.helm with clears := s2.helm.clears ++ t.toClear } }
    else s

/-- Every step of a Pattern that is running or being cancelled goes to the phase that `ph` gives, and the running ones are
cancelled on every region that is not stopped (R248, R323). -/
def haltSteps (s : State) (pi : Nat) (p : Pattern) (ph : Step → StepPhase) : State :=
  let targets := (p.regions.filter (fun r => !r.stopped)).flatMap (·.cores)
  let fresh := s.helm.steps.any (fun t => decide (t.pat = pi ∧ t.phase = .running))
  let s1 := s.mapSteps (fun t =>
    if t.pat ≠ pi then t else
    match t.phase with
    | .running => { t with phase := ph t, toDrain := targets, toClear := targets }
    | .cancelling => { t with phase := ph t }
    | .stopped => { t with phase := ph t }
    | _ => t)
  drainDone (if fresh then s1.emits (targets.map .cancel) else s1) pi

/-- STEP_CANCEL (R248, R307): the Helm cancels a running step when every stream in it has become ENDING or its Pattern is
being unloaded, together with every later step of the Pattern; a step behind another one that still runs waits for it
(log 32). A second cancel is ignored (R251). -/
def execStepCancel (pi : Nat) (seq : BitVec 32) (s : State) : Host.Outcome State Fault Refusal :=
  .next (match s.pat pi, s.helm.steps.find? (fun t => decide (t.pat = pi) && t.live) with
    | some p, some t =>
      let ending := t.slots.all (fun q => match s.stream q with | none => true | some x => decide (x.st = .ending))
      if t.seq = seq ∧ t.phase = .running ∧ (ending = true ∨ p.unloading = true) then haltSteps s pi p (fun _ => .cancelling)
      else s
    | _, _ => s)

/-- CANCEL (R248): a RUNNING core stops, discards its queues and reports drained; the engines' commands take effect as they
start, so nothing stays in flight (log 20). An IDLE core empties its latch and reports at once. -/
def execCancel (c : Nat) (s : State) : Host.Outcome State Fault Refusal :=
  onCore s c (fun k =>
    if k.st = .running ∧ k.cancelling = false then
      (s.setCore c { k.quiet with cancelling := true }).emit (.drained c)
    else if k.st = .idle then (s.setCore c { k with latch := none }).emit (.drained c)
    else s)

/-- DRAINED (R249): a core's report reaches the Helm. -/
def execDrained (c : Nat) (s : State) : Host.Outcome State Fault Refusal :=
  onCore s c (fun k =>
    match k.pat with
    | none => s
    | some pi =>
      drainDone (s.mapSteps (fun t =>
        if t.pat = pi then { t with toDrain := t.toDrain.filter (fun x => decide (x ≠ c)) } else t)) pi)

/-- CANCEL_TIMEOUT (R251): a core has not reported within 65,536 control cycles of CANCEL; it is faulted, and REGION_STOP
follows as for any fault. -/
def execCancelTimeout (c : Nat) (s : State) : Host.Outcome State Fault Refusal :=
  onCore s c (fun k =>
    if s.helm.steps.any (fun t => decide (c ∈ t.toDrain)) then cmdFault s c 0 .faulted .cancelTimeout k.pos k.wordAt else s)

/-! ### Ends of a Pattern's work -/

/-- The streams of a step end with a code. -/
def endSteps (s : State) (pi : Nat) (f : Step → Bool) (code : Code) : State :=
  ((s.helm.steps.filter (fun t => decide (t.pat = pi) && f t)).flatMap (·.slots)).foldl (fun s q => endStream s q (some code)) s

/-- A parked stream goes: its sender is told, and its landing-zone space is zeroed and freed. One that an entry to L3 parked
(R440) holds pages and a key besides: it ends in its former slot, and is released from there (R305, R306; log 48). -/
def dropParked (s : State) (x : Stream) (code : Option Code) : State :=
  match x.slotWas, s.helm.resume.find? (fun r => decide (r.sid = x.sid)) with
  | some q, some r =>
    let s1 := { s with helm := { s.helm with resume := s.helm.resume.erase r } }
    endStream (s1.setStream q (some { r with st := .ready, slotWas := none })) q code
  | _, _ => lzRelease (reportEnd s x code) x.lzBase x.lzLen

/-- Refuse the parked streams of a Pattern (R305, R334). -/
def refuseParked (s : State) (pi : Nat) : State :=
  let s1 := s.setParked s.helm.parkHead (s.helm.parked.filter (fun x => decide (x.pat ≠ pi)))
  (s.helm.parked.filter (fun x => decide (x.pat = pi))).foldl (fun s x =>
    dropParked (s.refusal (helmBlock s pi) .refusedPattern 0) x (some .refusedPattern)) s1

/-- The active slots of a Pattern. -/
def State.slotsOf (s : State) (pi : Nat) : List Nat :=
  (s.helm.streams.filter (fun e => match e.2 with | none => false | some x => decide (x.pat = pi))).map (·.1)

/-- The Helm faults a Pattern (R334): no further step, its streams end with END_FAULT, its parked streams are refused, and
PATTERN_FAULTED is logged. -/
def faultPattern (s : State) (pi : Nat) : State :=
  match s.pat pi with
  | none => s
  | some p =>
    if p.faulted then s else
    let s1 := refuseParked (endStreams (s.setPat pi { p with faulted := true }) (s.slotsOf pi) (some .endFault)) pi
    let s2 := s1.logRec { mkRec (helmBlock s pi) .event .patternFaulted with pat := pi }
    haltSteps s2 pi { p with faulted := true } (fun _ => .cancelling)

/-! ### Region stop (R88, R321 to R323) -/

/-- Another core of a stopped region stops and logs REGION_STOP (R88). -/
def stopPeer (s : State) (c first : Nat) : State :=
  let k := s.core c
  if k.st = .running ∨ k.st = .idle then
    let d := coreDetail k.wordAt k.pos 0xFF 0xFF first 0
    let fr : FaultRec := { core := c, engine := 7, kind := .faulted, code := .regionStop, pos := k.pos, word := k.wordAt,
                           regs := k.regs, sems := k.sems, extra := d }
    (s.setCore c { k.quiet with st := .stopped, cancelling := false, fault := some fr }).logRec
      (coreRec k c 7 .faulted .regionStop d)
  else s

/-- Mark a region stopped: its cores drain no more. -/
def markStopped (s : State) (pi ri : Nat) : State :=
  match s.pat pi with
  | none => s
  | some p =>
    match p.regions[ri]? with
    | none => s
    | some r =>
      (s.setPat pi (p.setRegion ri { r with stopped := true })).mapSteps (fun t =>
        if t.pat = pi then
          { t with toDrain := t.toDrain.filter (fun c => !decide (c ∈ r.cores)),
                   toClear := t.toClear.filter (fun c => !decide (c ∈ r.cores)) }
        else t)

/-- What follows a region stop, once its class is known (R321 to R323, R329, R334). -/
def afterStop (s : State) (pi ri : Nat) (cls : FaultClass) (faults : List (Nat × Nat)) : State :=
  match s.pat pi with
  | none => s
  | some p =>
    if decide (cls ≠ .pattern) && !s.mend then faultPattern s pi
    else if cls = .pattern then
      (haltSteps (endSteps s pi Step.live .endFault) pi p (fun _ => .cancelling)).emit (.regionReset pi ri)
    else
      let s1 := endSteps s pi (fun t => t.live && decide (2 ≤ t.replays)) .endFault
      let s2 := s1.mapSteps (fun t => if t.pat = pi ∧ t.live = true then { t with faults := t.faults ++ faults } else t)
      let again := (s2.helm.steps.filter (fun t => decide (t.pat = pi) && t.live && decide (t.replays < 2))).flatMap (·.slots)
      let s3 := setStreams s2 again .replay
      (haltSteps s3 pi p (fun t => if t.replays < 2 then .stopped else .cancelling)).emit (.regionReset pi ri)

/-- A region that a loss of sites or of a die leaves without a core (R324, R332, R517): with a step running it stops as for a
site-class fault, naming 0x1FFF; with none it goes to its reset at once. -/
def loseRegion (s : State) (pi ri : Nat) : State :=
  match s.pat pi with
  | none => s
  | some p =>
    match p.regions[ri]? with
    | none => s
    | some r =>
      if r.stopped then s
      else if s.runs pi r.cores then
        afterStop (markStopped (r.cores.foldl (fun s c => stopPeer s c 0x1FFF) s) pi ri) pi ri .site []
      else (markStopped s pi ri).emit (.regionReset pi ri)

/-- The regions that hold a core satisfying `f`, as (Pattern, region). -/
def State.regionsWith (s : State) (f : Nat → Bool) : List (Nat × Nat) :=
  s.helm.pats.flatMap (fun e =>
    match e.2 with
    | none => []
    | some p => ((List.range p.regions.length).filter (fun i =>
        match p.regions[i]? with | none => false | some r => r.cores.any f)).map (fun i => (e.1, i)))

/-- Every region that holds an absent core is handled under R324. -/
def loseAbsent (s : State) : State := (s.regionsWith s.isAbsent).foldl (fun s e => loseRegion s e.1 e.2) s

/-- The faulted cores of a region with their records, in the region's order; a core that was only stopped is none. -/
def faultsIn (s : State) (cores : List Nat) : List FaultRec :=
  (cores.filterMap (fun c => if (s.core c).st = .stopped then (s.core c).fault else none)).filter
    (fun f => decide (f.code ≠ .regionStop))

/-- The class of a fault in a step (R321): one that recurs on a replay, in the same core at the same position, is
Pattern-class. -/
def faultIn (t : Option Step) (f : FaultRec) : FaultClass :=
  match t with
  | none => faultClass f.kind f.code
  | some t => if 0 < t.replays ∧ (f.core, f.pos) ∈ t.faults then .pattern else faultClass f.kind f.code

/-- The class of a stop (R321): Pattern-class if any of its faults is. -/
def stopClass (t : Option Step) (fs : List FaultRec) : FaultClass :=
  if fs.any (fun f => decide (faultIn t f = .pattern)) then .pattern
  else if fs.any (fun f => decide (faultIn t f = .site)) then .site else .data

/-- REGION_STOP (R88): the Helm learns of a core's fault. While a step runs on the region every other core stops; each
site-class fault makes its site SUSPECT under MEND (R321), and what follows goes by class. With none running, as when an IDLE core's
semaphore overflows after its region has halted, no core stops and no stream ends: the region goes to its reset (R60), and with MEND
clear a site-class or data-class fault faults the Pattern (R334). -/
def execRegionStop (c : Nat) (s : State) : Host.Outcome State Fault Refusal :=
  noted s (onCore s c (fun k =>
    match k.pat, s.corePat k, s.coreRegion k with
    | some pi, some _, some r =>
      let fs := faultsIn s r.cores
      if r.stopped ∨ k.st ≠ .stopped ∨ fs.isEmpty = true then s else
      let runs := s.runs pi r.cores
      let step := if runs then s.helm.steps.find? (fun t => decide (t.pat = pi) && t.live) else none
      let first := fs.foldl (fun m f => min m f.core) 0x1FFF
      let s1 := if runs then r.cores.foldl (fun s c => stopPeer s c first) s else s
      let s2 := markStopped s1 pi k.region
      let sites := fs.filter (fun f => decide (faultIn step f = .site))
      let s3 := if s.mend then
          sites.foldl (fun s f => suspectSite s (helmBlock s pi) f.core (f.regs.get 15).toNat pi) s2 else s2
      let cls := stopClass step fs
      let s4 := if runs || (decide (cls ≠ .pattern) && !s.mend) then
          afterStop s3 pi k.region cls (fs.map (fun f => (f.core, f.pos)))
        else s3.emit (.regionReset pi k.region)
      loseAbsent s4
    | _, _, _ => s))

/-! ### Region reset (R324, R434) -/

/-- The cores of a region as its reset leaves them placed: where one of them is absent the region is placed again, if it can
be (R324). -/
def regionCores (s : State) (pi ri : Nat) (r : Region) : Option (List Nat) :=
  if r.cores.any s.isAbsent then s.placeRegion pi ri r.image else some r.cores

/-- Cores that a region leaves belong to no Pattern. -/
def unplaceCores (s : State) (l : List Nat) : State :=
  l.foldl (fun s c => s.setCore c { s.core c with pat := none, progLen := 0, store := [], entry := 0, restart := 0 }) s

/-- The regions whose re-plan has waited for a load to finish go to their reset now (R252, R324). -/
def resumeReplans (s : State) : State :=
  s.emits ((s.regionsWith s.isAbsent).filterMap (fun e =>
    match (s.pat e.1).bind (fun p => p.regions[e.2]?) with
    | none => none
    | some r => if r.stopped then some (.regionReset e.1 e.2) else none))

/-- REGION_RESET (R434): every core of the region is reset, its barriers return to phase 0 with no arrivals, its cores move off
sites that are out of use (R323), and the loader writes them again from the image (log 30). A region that cannot be placed
faults its Pattern (R324); one that is to be placed again waits for a load in progress (R252). -/
def execRegionReset (pi ri : Nat) (s : State) : Host.Outcome State Fault Refusal :=
  .next (match s.pat pi with
    | none => s
    | some p =>
      match p.regions[ri]? with
      | none => s
      | some r =>
        if s.helm.load.isSome && r.cores.any s.isAbsent then s else
        let s1 := r.cores.foldl seatCore (r.cores.foldl coreReset s)
        match regionCores s1 pi ri r with
        | none => faultPattern (s1.setPat pi (p.setRegion ri { r with arrived := [], stopped := true })) pi
        | some l =>
          let r' : Region := { r with cores := l, arrived := [], stopped := false }
          let p' := p.setRegion ri r'
          let s2 := unplaceCores s1 (r.cores.filter (fun c => !decide (c ∈ l)))
          placeRegionCores (s2.setPat pi p') pi ri p' r' false)

end Sys2Proof.Machine
end

