-- ==== Sys2Proof/Machine/Steps.lean ====
section
/-! DEFINITION. How steps are formed, dispatched, committed, gated and replayed (R294, R297 to R303, R328 to R330). -/

namespace Sys2Proof.Machine

/-! ### Buckets and rows (R237, R238, R296) -/

/-- The declared buckets of a Pattern, ascending (R237). -/
def bucketsOf (p : Pattern) : List Nat :=
  ((List.range 7).filter (fun i => p.manifest.params.stepmask.getLsbD i)).map (fun i => 4 ^ i)

/-- The smallest declared bucket that holds `t` tokens (R238). -/
def bucketFor (p : Pattern) (t : Nat) : Nat := ((bucketsOf p).find? (fun b => decide (t ≤ b))).getD 0

/-- The largest declared bucket. -/
def bucketMax (p : Pattern) : Nat := ((bucketsOf p).getLast?).getD 0

/-- Bytes from one row to the next of STEPIN or STEPOUT: the row stride of the declared tensor (R45, R296). -/
def ioStride (p : Pattern) (seg ofs row : Nat) : Nat :=
  match p.manifest.tensors.find? (fun d => decide (d.seg = seg ∧ d.offset = ofs)) with
  | some d => ceilDiv (ceilDiv (d.pad.getD 0 1 * etBits d.etype) 8) 64 * 64
  | none => ceilDiv row 64 * 64

/-- Offset of a row of STEPIN or STEPOUT: the payload begins behind the header (R38). -/
def ioRow (p : Pattern) (seg ofs row r : Nat) : Nat := ofs + 64 + r * ioStride p seg ofs row

/-- The Helm writes bytes of a Pattern's segment. -/
def helmWrite (s : State) (pi : Nat) (p : Pattern) (seg ofs : Nat) (b : List Byte) : State :=
  match p.segs[seg]? with
  | none => s
  | some g => segPuts s pi seg g ofs b

/-- The Helm reads bytes of a Pattern's segment; none where one of them cannot be read. -/
def helmRead (s : State) (p : Pattern) (seg ofs n : Nat) : Option (List Byte) :=
  match p.segs[seg]? with
  | none => none
  | some g =>
    if (List.range n).all (fun i => (segGet s g (ofs + i)).isSome) then some (segBytes s g ofs n) else none

/-! ### KV pages (R303, R304, R328) -/

/-- The base die of a KV page (R316). -/
def kvBase (p : Pattern) (slot l g : Nat) : Nat := (slot + g * p.manifest.params.nlhg + l) % 24

/-- Write the page-table entry of a page at frame `f`. -/
def putPage (s : State) (p : Pattern) (slot : Nat) (x : Stream) (l g f : Nat) : State :=
  let s1 := { s with mem := wrNat s.mem (ptAddr x p.manifest.params.nlhg l g) 8 (ptBits f x.pki) }
  s1.setStream slot (some { x with pages := x.pages.filter (fun e => !decide (e.1 = l ∧ e.2.1 = g)) ++ [(l, g, f)] })

/-- Map the page for (l, g), if it is not mapped yet. -/
def mapPage (s : State) (p : Pattern) (slot l g : Nat) : State :=
  match s.stream slot with
  | none => s
  | some x =>
    if x.pages.any (fun e => decide (e.1 = l ∧ e.2.1 = g)) then s else
    let n := p.manifest.params.kvpitch / 256
    match s.kvRun p (kvBase p slot l g) n with
    | none => s
    | some f => putPage (s.takeFrames f n true) p slot x l g f

/-- KV_PAGE_MAP (R301, R303): the pages of blocks `g0` to `g1` of a stream, for every LHG. A page table that cannot be
reached ends the stream (R333), and so do stream keys that disagree with KEY_N (R287). -/
def mapBlocks (s : State) (p : Pattern) (slot g0 g1 : Nat) : State :=
  match s.stream slot with
  | none => s
  | some x =>
    if x.keyOk = false then keyMismatch s (helmBlock s x.pat) slot
    else if s.lostAt (ptAddr x p.manifest.params.nlhg 0 0) then endStream s slot (some .endLost) else
    (List.range (g1 + 1 - g0)).foldl (fun s i =>
      (List.range p.manifest.params.nlhg).foldl (fun s l => mapPage s p slot l (g0 + i)) s) s

/-- A lost page is zeroed, or mapped again where its die is lost (R328, R333). -/
def renewPage (s : State) (p : Pattern) (slot : Nat) (e : Nat × Nat) : State :=
  match s.stream slot with
  | none => s
  | some x =>
    match x.pages.find? (fun y => decide (y.1 = e.1 ∧ y.2.1 = e.2)) with
    | none => s
    | some y =>
      if s.lostAt (frameAddr y.2.2) then
        mapPage (s.setStream slot (some { x with pages := x.pages.filter (fun z => !decide (z = y)) })) p slot e.1 e.2
      else clearFrames s y.2.2 (p.manifest.params.kvpitch / 256)

/-- The mark under which a stream's page table stands in its list of lost pages. -/
def ptLost : Nat := 0xFFFF

/-- A stream that has lost state is rewound to its first lost block, or ends (R328); with MEND clear its Pattern is faulted
(R335). What was lost at or above POS alone is computed again. -/
def resolveLost (s : State) (slot : Nat) : State :=
  match s.stream slot with
  | none => s
  | some x =>
    match s.pat x.pat with
    | none => s
    | some p =>
      let gone := x.lost.filter (fun e => decide (e.1 = ptLost ∨ 256 * e.2 < x.pos))
      if x.st = .ending ∨ x.lost = [] then s
      else if gone ≠ [] ∧ s.mend = false then faultPattern s x.pat
      else if gone.any (fun e => decide (e.1 = ptLost)) || (decide (gone ≠ []) && decide (x.plen < x.pos)) then
        endStream s slot (some .endLost)
      else
        let first := (gone.map (·.2)).foldl min (x.pos / 256)
        let s1 := s.setStream slot (some { x with lost := [], pos := if gone = [] then x.pos else 256 * first })
        x.lost.foldl (fun s e => renewPage s p slot e) s1

/-- An empty step. -/
def Step.new (pi : Nat) (batch : List BatchEnt) : Step :=
  { pat := pi, seq := 0, drec := { stepSeq := 0, bucket := 0, ntoken := 0, nbatch := 0, lclass := 0 }, batch := batch,
    toHalt := [], toDrain := [], toClear := [], phase := .running, replays := 0, faults := [], taintAll := false,
    taintSlots := [], commitReport := 0, again := false, outputs := [] }

/-- A committed stream that R328 rewound from `upto` waits for a replay of its own, ahead of any new step of its Pattern (R329), under
the number of the Pattern's last step (log 33). -/
def queueReplay (s : State) (slot upto : Nat) : State :=
  match s.stream slot with
  | none => s
  | some x =>
    match s.pat x.pat with
    | none => s
    | some p =>
      if x.st ≠ .ready ∨ upto ≤ x.pos then s else
      let t := { Step.new x.pat [{ slot := slot, ntok := upto - x.pos, row0 := 0, pos0 := x.pos }] with
        seq := p.nextSeq - 1, phase := .stopped }
      (s.setStream slot (some { x with st := .replay })).setSteps (s.helm.steps ++ [t])

/-! ### Dispatch (R297, R301) -/

/-- The dispatch record's 64 bytes. -/
def dispatchBytes (d : DispatchRec) : List Byte :=
  toBytes 64 (d.stepSeq.toNat + d.bucket * 2 ^ 32 + d.ntoken * 2 ^ 48 + d.nbatch * 2 ^ 64 + d.lclass * 2 ^ 80)

/-- The input row of a position of a stream (R301). -/
def inputRow (s : State) (p : Pattern) (x : Stream) (q : Nat) : List Byte :=
  let n := p.manifest.params.inrow
  if q < x.plen then lzBytes s (x.lzBase * 4096 + 64 + q * n) n else x.lastOut

/-- Write the input rows of a batch entry. -/
def writeRows (s : State) (pi : Nat) (p : Pattern) (b : BatchEnt) : State :=
  let pr := p.manifest.params
  match s.stream b.slot with
  | none => s
  | some x => (List.range b.ntok).foldl (fun s i =>
      helmWrite s pi p pr.stepinSeg (ioRow p pr.stepinSeg pr.stepinOfs pr.inrow (b.row0 + i)) (inputRow s p x (b.pos0 + i))) s

/-- Zero rows `t` to `n` − 1 of STEPIN (R238). -/
def zeroRows (s : State) (pi : Nat) (p : Pattern) (t n : Nat) : State :=
  let pr := p.manifest.params
  (List.range (n - t)).foldl (fun s i =>
    helmWrite s pi p pr.stepinSeg (ioRow p pr.stepinSeg pr.stepinOfs pr.inrow (t + i)) (List.replicate pr.inrow 0)) s

/-- The copies in a core's scratch: the record and batch table in the dispatch area, and the batch table in the batch shadow,
whose further entries name no stream (R161, R297). -/
def writeDispatch (k : Core) (area : Nat) (rec batch : List Byte) : Core :=
  { k with scratch := wrBytes (zeroRange (wrBytes k.scratch area (rec ++ batch)) shadowBase 32768) shadowBase batch }

/-- The formed collective groups to which a Pattern's steps contribute (R347). -/
def groupsOf (s : State) (pi : Nat) : List Nat :=
  s.groups.filterMap (fun e =>
    match e.2 with
    | none => none
    | some g => if g.phase = .formed ∧ g.cfg.pat = pi then some e.1 else none)

/-- Dispatch a step (R297, R301): its pages are mapped, its input rows and its tables written, and its record sent to every
core of every region. It takes the Pattern's next STEPSEQ, and no further step follows until the Pattern's groups have ended
their round (R365). -/
def dispatchStep (s : State) (pi : Nat) (p : Pattern) (t : Step) (lclass : Nat) : Step × State :=
  let n := (t.batch.map (·.ntok)).foldl (· + ·) 0
  let b := bucketFor p n
  let rec_ : DispatchRec := { stepSeq := p.nextSeq, bucket := b, ntoken := n, nbatch := t.batch.length, lclass := lclass }
  let s1 := s.setPat pi { p with nextSeq := p.nextSeq + 1, updateHold := groupsOf s pi }
  let s2 := t.batch.foldl (fun s e => mapBlocks s p e.slot (e.pos0 / 256) ((e.pos0 + e.ntok - 1) / 256)) s1
  let s3 := zeroRows (t.batch.foldl (fun s e => writeRows s pi p e) s2) pi p n b
  let batch := t.batch.flatMap (fun e => toBytes 8 e.bits)
  let s4 := p.coresOf.foldl (fun s c =>
    s.setCore c (writeDispatch (s.core c) (p.manifest.params.dispatchUnit * 64) (dispatchBytes rec_) batch)) s3
  let h := helmBlock s pi - 2
  let s5 := ((s4.bump (helmCtr h 0x130) 1).bump (helmCtr h 0x138) (b - n)).emits (p.coresOf.map (fun c => .dispatch c rec_))
  ({ t with seq := p.nextSeq, again := false, drec := rec_, toHalt := p.coresOf, toDrain := [], toClear := [], phase := .running,
            taintAll := false, taintSlots := [], outputs := [] }, s5)

/-- Has core `c` done with the record of a running step: it runs it, or has halted its part? -/
def tookIt (s : State) (t : Step) (c : Nat) : Bool :=
  !decide (c ∈ t.toHalt) || (decide ((s.core c).st = .running) && decide ((s.core c).reg 15 = t.seq.setWidth 64))

/-- May the Helm dispatch to the cores of a Pattern (R58, R225, R299): every latch is empty, no core is stopped, resetting or
being cancelled, and no orphan notice is outstanding? Clock loss, low power and a commit of the Pattern's group hold
dispatch (R30, R359, R439). -/
def mayDispatch (s : State) (pi : Nat) (p : Pattern) : Bool :=
  p.resident && !p.faulted && !p.unloading && p.updateHold.isEmpty && !s.refLost && decide (s.pwr.state = 0) && !s.pwr.entering
    && p.regions.all (fun r => !r.stopped)
    && s.helm.steps.all (fun t => decide (t.pat ≠ pi) || (decide (t.phase ≠ .cancelling) &&
        (decide (t.phase ≠ .running) || p.coresOf.all (tookIt s t))))
    && p.coresOf.all (fun c => (s.core c).latch.isNone && decide ((s.core c).st = .idle ∨ (s.core c).st = .running)
        && !(s.core c).cancelling && !decide (c ∈ s.helm.clears) && s.helm.acks.all (fun a => decide (a.2.1 ≠ c)))
    && s.helm.acks.all (fun a => decide (a.2.2 ≠ pi))

/-! ### Formation (R294, R295, R299, R300) -/

/-- The READY streams of a Pattern, by slot. -/
def State.readyOf (s : State) (pi : Nat) : List (Nat × Stream) :=
  s.helm.streams.filterMap (fun e =>
    match e.2 with
    | none => none
    | some x => if x.pat = pi ∧ x.st = .ready then some (e.1, x) else none)

/-- The pointer walks to the first slot whose class has a READY stream (R294): the slot, the table in force there, and the
slots passed over. Past slot 255 the Pattern takes the newest table (R295). -/
def leadWalk (new : List Nat) (has : Nat → Bool) : Nat → Nat → List Nat → Nat → Option (Nat × List Nat × Nat)
  | 0, _, _, _ => none
  | fuel + 1, slot, tbl, skipped =>
    if has (tbl.getD slot 0) then some (slot, tbl, skipped)
    else leadWalk new has fuel ((slot + 1) % 256) (if slot = 255 then new else tbl) (skipped + 1)

/-- The classes of a table from slot `lead` on, each once (R300). -/
def classOrder (tbl : List Nat) (lead : Nat) : List Nat :=
  ((List.range 256).map (fun i => tbl.getD ((lead + i) % 256) 0)).foldl (fun l c => if c ∈ l then l else l ++ [c]) []

/-- Insert by a key, behind equal keys. -/
def insertBy {α : Type} (f : α → Nat) (a : α) : List α → List α
  | [] => [a]
  | b :: l => if f a < f b then a :: b :: l else b :: insertBy f a l

/-- Sort by a key. -/
def sortBy {α : Type} (f : α → Nat) (l : List α) : List α := l.foldl (fun acc a => insertBy f a acc) []

/-- Fill a step's batch from streams in order, while there is room (R300). -/
def fillBatch : List (Nat × Stream) → Nat → Nat → List BatchEnt
  | [], _, _ => []
  | (slot, x) :: l, room, rows =>
    if room = 0 then [] else
    let n := if x.plen ≤ x.pos then 1 else min (x.plen - x.pos) room
    { slot := slot, ntok := n, row0 := rows, pos0 := x.pos } :: fillBatch l (room - n) (rows + n)

/-- Age of an admission sequence number, older first: modulo 2^32 from the next one to be given (R292). -/
def aseqKey (s : State) (x : Stream) : Nat := (x.aseq - s.helm.nextAseq).toNat

/-- Form a step from the READY streams, and dispatch it (R294, R300, R301). -/
def formStep (s : State) (pi : Nat) (p : Pattern) : State :=
  let ready := s.readyOf pi
  let has (c : Nat) : Bool := ready.any (fun e => decide (e.2.sclass.val = c))
  match leadWalk (s.helm.sst.get p.helm) has 512 p.ptr p.sst 0 with
  | none => s
  | some (lead, tbl, skipped) =>
    let order := (classOrder tbl lead).flatMap (fun c =>
      sortBy (fun e => aseqKey s e.2) (ready.filter (fun e => decide (e.2.sclass.val = c))))
    let batch := fillBatch order (bucketMax p) 0
    let p1 := { p with ptr := (lead + 1) % 256, sst := if lead = 255 then s.helm.sst.get p.helm else tbl }
    let h := helmBlock s pi - 2
    let s1 := (batch.foldl (fun s b =>
      match s.stream b.slot with
      | none => s
      | some x => s.setStream b.slot (some { x with st := .stepping })) s).bump (helmCtr h 0x140) skipped
    let t := Step.new pi batch
    let (t1, s2) := dispatchStep (s1.setSteps (s1.helm.steps ++ [t])) pi p1 t (tbl.getD lead 0)
    s2.setSteps (s2.helm.steps.map (fun u => if u.pat = pi ∧ u.toHalt = [] ∧ u.phase = .running then t1 else u))

/-- STEP_FORM (R287, R299): streams whose keys disagree end first; a step is formed where one may be dispatched, a stream is
READY and no stopped step of the Pattern waits for its replay (R329). -/
def execStepForm (pi : Nat) (s : State) : Host.Outcome State Fault Refusal :=
  .next (match s.pat pi with
    | none => s
    | some p =>
      let s1 := ((s.readyOf pi).filter (fun e => !e.2.keyOk)).foldl (fun s e => keyMismatch s (helmBlock s pi) e.1) s
      if mayDispatch s1 pi p && s1.helm.steps.all (fun t => decide (t.pat ≠ pi ∨ t.phase ≠ .stopped))
          && !(s1.readyOf pi).isEmpty then formStep s1 pi p
      else s1)

/-! ### Replay (R329) -/

/-- The batch of a replay: the entries of streams that still wait for it, in rows without gaps. A stream that R328 rewound
computes again from its POS, as far as the rows of the largest bucket go (log 33). -/
def replayBatch (s : State) (room : Nat) : List BatchEnt → Nat → List BatchEnt
  | [], _ => []
  | b :: l, rows =>
    match s.stream b.slot with
    | none => replayBatch s room l rows
    | some x =>
      let n := min (b.pos0 + b.ntok - x.pos) (room - rows)
      if x.st = .replay ∧ 0 < n then { b with row0 := rows, pos0 := x.pos, ntok := n } :: replayBatch s room l (rows + n)
      else replayBatch s room l rows

/-- Mark the cores of a Pattern to start at their restart entries (R250). -/
def restartCores (s : State) (p : Pattern) : State :=
  p.coresOf.foldl (fun s c => s.setCore c { s.core c with useRestart := true }) s

/-- STEP_REPLAY (R328, R329): the oldest stopped step of a Pattern is dispatched again, without the streams that ended, once
every core of it is IDLE. STREAM_REPLAY names the step. -/
def execStepReplay (pi : Nat) (seq : BitVec 32) (s : State) : Host.Outcome State Fault Refusal :=
  .next (match s.pat pi, s.helm.steps.find? (fun t => decide (t.pat = pi ∧ t.phase = .stopped)) with
    | some p, some t =>
      if t.seq ≠ seq ∨ t.toDrain ≠ [] ∨ t.toClear ≠ [] ∨ mayDispatch s pi { p with updateHold := [] } = false
          ∨ p.coresOf.any (fun c => decide ((s.core c).st ≠ .idle)) = true then s else
      let s1 := t.slots.foldl resolveLost s
      let batch := replayBatch s1 (bucketMax p) t.batch 0
      let out := t.slots.filter (fun q => !batch.any (fun b => decide (b.slot = q)))
      let others (s : State) : List Step := s.helm.steps.filter (fun u => !decide (u.pat = pi ∧ u.seq = seq ∧ u.phase = .stopped))
      if batch.isEmpty then reportEnded (setStreams (s1.setSteps (others s1)) out .ready) out else
      let t' := { t with batch := batch, replays := t.replays + 1 }
      let s2 := setStreams (setStreams s1 out .ready) (batch.map (·.slot)) .stepping
      let s3 := s2.logRec { mkRec (helmBlock s pi) .event .streamReplay with stepSeq := t.seq, pat := pi }
      let (t1, s4) := dispatchStep (restartCores s3 p) pi ((s3.pat pi).getD p) t' t.drec.lclass
      reportEnded (s4.setSteps (s4.helm.steps.map (fun u =>
        if u.pat = pi ∧ u.seq = seq ∧ u.phase = .stopped then t1 else u))) out
    | _, _ => s)

/-! ### Commit and gating (R302, R305, R330) -/

/-- A batch entry at the commit: its POS advances, and from PLEN − 1 on its output row is taken. A row that cannot be read is
lost state (R328, R333). -/
def commitEntry (p : Pattern) (a : State × List (Nat × List Byte)) (b : BatchEnt) : State × List (Nat × List Byte) :=
  let pr := p.manifest.params
  match a.1.stream b.slot with
  | none => a
  | some x =>
    if x.st = .ending then a else
    let s1 := a.1.setStream b.slot (some { x with st := .commit, pos := b.pos0 + b.ntok })
    if b.pos0 + b.ntok < x.plen then (s1, a.2) else
    match helmRead s1 p pr.stepoutSeg (ioRow p pr.stepoutSeg pr.stepoutOfs (pr.inrow + 64) (b.row0 + b.ntok - 1)) (pr.inrow + 64) with
    | none => (endStream s1 b.slot (some .endLost), a.2)
    | some row => (s1, a.2 ++ [(b.slot, row)])

/-- A step of a Pattern has halted on every region: the page moves that waited for one dispatched after their copy may end (R319). -/
def noteHalt (s : State) (pi : Nat) (seq : BitVec 32) : State :=
  { s with helm := { s.helm with migs := s.helm.migs.map (fun m =>
    if m.pat = pi ∧ m.copied = true ∧ (seq - m.waitSeq).toNat < 2 ^ 31 then { m with halted := true } else m) } }

/-- HALT_REPORT (R302): a core has done its part of the oldest running step; after the last the step commits. -/
def execHaltReport (c : Nat) (s : State) : Host.Outcome State Fault Refusal :=
  onCore s c (fun k =>
    match k.pat, s.corePat k with
    | some pi, some p =>
      match s.helm.steps.find? (fun t => decide (t.pat = pi ∧ t.phase = .running ∧ c ∈ t.toHalt)) with
      | none => s
      | some t =>
        let left := t.toHalt.filter (fun x => decide (x ≠ c))
        let put (s : State) (u : Step) : State :=
          s.setSteps (s.helm.steps.map (fun v => if v.pat = pi ∧ v.seq = t.seq ∧ v.phase = .running then u else v))
        if left ≠ [] then put s { t with toHalt := left } else
        let (s1, outs) := t.batch.foldl (commitEntry p) (s, [])
        noteHalt (put s1 { t with toHalt := [], phase := .committed, commitReport := s.helm.nextReport, outputs := outs }) pi t.seq
    | _, _ => s)

/-- Do all reports of Darning issued before a commit stand resolved (R330)? -/
def reportsDone (s : State) (t : Step) : Bool := s.helm.reports.all (fun r => decide (t.commitReport ≤ r.num) || r.resolved)

/-- Undo a batch entry's advance: its output is discarded. -/
def undoEntry (st : StreamState) (s : State) (b : BatchEnt) : State :=
  match s.stream b.slot with
  | none => s
  | some x => if x.st = .ending then s else s.setStream b.slot (some { x with st := st, pos := b.pos0 })

/-- A batch entry at the gate (R287, R302, R305, R330): a tainted stream's output is discarded, what it lost is dealt
with, and it waits for its replay; an untainted one's goes out, and the stream ends on END or at LIMIT, or is READY again. -/
def gateEntry (t : Step) (s : State) (b : BatchEnt) : State :=
  match s.stream b.slot with
  | none => s
  | some x =>
    if x.st = .ending then s
    else if x.keyOk = false then keyMismatch s (helmBlock s t.pat) b.slot
    else if b.slot ∈ t.taintSlots ∨ x.lost ≠ [] then resolveLost (undoEntry .replay s b) b.slot
    else
      match t.outputs.find? (fun o => decide (o.1 = b.slot)) with
      | none => s.setStream b.slot (some { x with st := .ready })
      | some (_, row0) =>
        let row := if t.again then row0.set 0 (row0.headD 0 ||| 2) else row0
        let s1 := (respond s (pdOf x.port) x.crec 1 row).setStream b.slot (some { x with st := .ready, lastOut := row.drop 64 })
        if rdBit row ∨ x.limit ≤ x.pos then endStream s1 b.slot (some .endDone) else s1
where
  /-- END, bit 0 of the flag word. -/
  rdBit (row : List Byte) : Bool := (row.headD 0).getLsbD 0

/-- The batch entries of a step whose streams wait for their replay. -/
def toReplay (s : State) (t : Step) : List BatchEnt :=
  t.batch.filter (fun b => match s.stream b.slot with | none => false | some x => decide (x.st = .replay))

/-- The gate of a step that no report taints whole: the entries go out or wait, and what waits stays behind as a stopped step with
their part of the batch table; a third replay ends its streams (R328 to R330). -/
def gateStep (s : State) (t : Step) (mine : Step → Bool) : State :=
  let s1 := t.batch.foldl (gateEntry t) s
  let wait := toReplay s1 t
  let others := s1.helm.steps.filter (fun u => !mine u)
  if wait.isEmpty then s1.setSteps others
  else if 2 ≤ t.replays then (endStreams s1 (wait.map (·.slot)) (some .endFault)).setSteps others
  else s1.setSteps (s1.helm.steps.map (fun u =>
    if mine u then { u with batch := wait, phase := .stopped, outputs := [], taintSlots := [] } else u))

/-- OUTPUT_GATE (R330): once every earlier report is resolved, the outputs of an untainted step pass to sealing; a tainted
step's are discarded, and it waits for its replay, at most the second (R329), as a tainted stream of it does alone. With MEND clear
the Pattern of a tainted step or stream is faulted (log 33). -/
def execOutputGate (pi : Nat) (seq : BitVec 32) (s : State) : Host.Outcome State Fault Refusal :=
  .next (match s.helm.steps.find? (fun t => decide (t.pat = pi ∧ t.phase = .committed)) with
    | none => s
    | some t =>
      let held := match s.pat pi with | none => false | some p => !p.updateHold.isEmpty
      if t.seq ≠ seq ∨ reportsDone s t = false ∨ held = true then s else
      let mine (u : Step) : Bool := decide (u.pat = pi ∧ u.seq = seq ∧ u.phase = .committed)
      let dirty := t.taintAll || t.slots.any (fun q => decide (q ∈ t.taintSlots))
      if t.taintAll = true ∧ s.mend = true ∧ t.replays < 2 then
        (t.batch.foldl (undoEntry .replay) s).setSteps (s.helm.steps.map (fun u =>
          if mine u then { u with phase := .stopped, outputs := [], taintAll := false, taintSlots := [] } else u))
      else
        let s1 :=
          if dirty = true ∧ s.mend = false then
            let s2 := faultPattern s pi
            s2.setSteps (s2.helm.steps.filter (fun u => !mine u))
          else if t.taintAll then
            let s2 := t.slots.foldl (fun s q => endStream s q (some .endFault)) s
            s2.setSteps (s2.helm.steps.filter (fun u => !mine u))
          else gateStep s t mine
        reportEnded s1 t.slots)

end Sys2Proof.Machine
end

