-- ==== Sys2Proof/Machine/Frames.lean ====
section
/-! DEFINITION. What a frame of vault space holds, how Darning rebuilds a word, and how pages move (R315, R319, R325 to R328,
R331, R333). -/

namespace Sys2Proof.Machine

/-- What a frame holds: a page or parity page of a segment, a part of its page list, a KV page, a page table, a page of the landing
zone or of the parked-list area, a spill region, or nothing. -/
inductive Owner
  | seg (pat seg page : Nat)
  | parity (pat seg stripe : Nat)
  | kv (slot l g : Nat)
  | table (slot : Nat)
  | area (stripe page : Nat)
  | park (stripe page : Nat)
  | list (pat seg : Nat)
  | spill (pat : Nat)
  | none
  deriving DecidableEq, Repr

/-- The first place of a frame in a list of frames. -/
def frameIn (f : Nat) (l : List Nat) : Option Nat := (List.range l.length).find? (fun i => decide (l[i]? = some f))

/-- The owner of a frame among a Pattern's segments and spill regions. -/
def patOwner (pi : Nat) (p : Pattern) (f : Nat) : Option Owner :=
  let segs := (List.range p.segs.length).findSome? (fun i =>
    match p.segs[i]? with
    | none => none
    | some g =>
      match frameIn f g.frames, frameIn f g.parity with
      | some j, _ => some (Owner.seg pi i j)
      | _, some k => some (Owner.parity pi i k)
      | _, _ => if f ∈ g.lists then some (Owner.list pi i) else none)
  match segs with
  | some o => some o
  | none => if f ∈ p.spills then some (.spill pi) else none

/-- Frames of a stream's page table (R298). -/
def ptFrames (p : Pattern) (x : Stream) : Nat := ceilDiv (ceilDiv x.limit 256 * p.manifest.params.nlhg * 8) 65536

/-- The owner of a frame among a stream's pages. -/
def streamOwner (s : State) (slot : Nat) (x : Stream) (f : Nat) : Option Owner :=
  match s.pat x.pat with
  | none => none
  | some p =>
    let n := p.manifest.params.kvpitch / 256
    let t := x.ptVault * 16384 + x.ptFrame
    match x.pages.find? (fun e => decide (e.2.2 ≤ f ∧ f < e.2.2 + n)) with
    | some (l, g, _) => some (.kv slot l g)
    | none => if t ≤ f ∧ f < t + ptFrames p x then some (.table slot) else none

/-- The owner of a frame of the device areas, as stripes of the landing zone lie (R420). -/
def areaOwner (s : State) (f : Nat) : Option Owner :=
  let back := (s.helm.areaMap.find? (fun e => decide (e.2 = some f))).map (·.1)
  let g := back.getD f
  if !s.inArea g then none else
  match (List.range lzStripes).findSome? (fun k =>
    ((List.range 8).find? (fun j => decide (lzFrame s k j = f))).map (fun j => (k, j))) with
  | some (k, j) => some (.area k j)
  | none => (List.range parkStripes).findSome? (fun k =>
    ((List.range 8).find? (fun j => decide (parkFrame s k j = f))).map (fun j => .park k j))

/-- What a frame holds. -/
def ownerOf (s : State) (f : Nat) : Owner :=
  let a := s.helm.pats.findSome? (fun e => match e.2 with | none => none | some p => patOwner e.1 p f)
  let b := s.helm.streams.findSome? (fun e => match e.2 with | none => none | some x => streamOwner s e.1 x f)
  ((a.or b).or (areaOwner s f)).getD .none

/-- A segment of a Pattern. -/
def State.segment (s : State) (pi seg : Nat) : Option Segment := (s.pat pi).bind (fun p => p.segs[seg]?)

/-- Put a segment back. -/
def setSegment (s : State) (pi seg : Nat) (g : Segment) : State :=
  match s.pat pi with
  | none => s
  | some p => s.setPat pi { p with segs := p.segs.set seg g }

/-- The other frames of the stripe that a frame belongs to (R315): none where it carries no parity. -/
def stripeMates (s : State) (f : Nat) : Option (List Nat) :=
  match ownerOf s f with
  | .seg pi i j => (s.segment pi i).bind (fun g => if g.protected' then some (g.stripeOthers j) else none)
  | .parity pi i k => (s.segment pi i).map (fun g => ((List.range 7).map (· + 7 * k)).filterMap (fun j => g.frames[j]?))
  | .area k j => some (((List.range 8).filter (fun i => decide (i ≠ j))).map (lzFrame s k))
  | .park k j => some (((List.range 8).filter (fun i => decide (i ≠ j))).map (parkFrame s k))
  | _ => none

/-- A word of a frame as its stripe rebuilds it (R325). -/
def rebuilt (s : State) (mates : List Nat) (ofs n : Nat) : List Byte :=
  (List.range n).map (fun i => (mates.map (fun g => rdByte s.mem (frameAddr g + ofs + i))).foldl (· ^^^ ·) 0)

/-- The bytes of a frame, rebuilt where its die is lost. -/
def frameBytes (s : State) (f : Nat) : List Byte :=
  if s.lostAt (frameAddr f) then
    match stripeMates s f with
    | some m => rebuilt s m 0 65536
    | none => List.replicate 65536 0
  else rdBytes s.mem (frameAddr f) 65536

/-- Put bytes into memory; their rows stay open (R233). -/
def State.wrMemBytes (s : State) (a : Nat) (b : List Byte) : State := openRows { s with mem := wrBytes s.mem a b } a b.length

/-- A new frame for a page whose stripe lies on other dies (R315, R319): with PLACE set on the die with the most free frames,
otherwise in the lowest-numbered vault of the lowest die (log 36). -/
def newFrame (s : State) (mates : List Nat) (n : Nat) : Option Nat :=
  let used := mates.map (fun f => dieOfSite (f / 16384))
  let ds := s.diesIn.filter (fun d => !decide (d ∈ used))
  if s.place then s.runSpread ds n else ds.findSome? (fun d => s.runOnDie d n)

/-- Replace a frame by another in what holds it. -/
def swapFrame (s : State) (f f' : Nat) : State :=
  match ownerOf s f with
  | .seg pi i j =>
    match s.segment pi i with
    | none => s
    | some g => setSegment s pi i { g with frames := g.frames.set j f' }
  | .parity pi i k =>
    match s.segment pi i with
    | none => s
    | some g => setSegment s pi i { g with parity := g.parity.set k f' }
  | .area k j =>
    let d := stripeDie s.helm.areaDies k j
    let base := (reserveAt s d 192 0 (stripesOn s.helm.areaDies 0 k d)).getD 0
    { s with helm := { s.helm with areaMap := Sparse.set none s.helm.areaMap base (some f') } }
  | .park k j =>
    let dies := s.helm.areaDies
    let d := stripeDie dies (1 + k) j
    let base := (reserveAt s d 192 0 (stripesOn dies 0 lzStripes d + stripesOn dies 1 k d)).getD 0
    { s with helm := { s.helm with areaMap := Sparse.set none s.helm.areaMap base (some f') } }
  | .list pi i =>
    match s.segment pi i with
    | none => s
    | some g => setSegment s pi i { g with lists := g.lists.map (fun x => if x = f then f' else x) }.seal
  | .spill pi =>
    match s.pat pi with
    | none => s
    | some p => s.setPat pi { p with spills := p.spills.map (fun x => if x = f then f' else x) }
  | _ => s

/-- The event of R485 that names a vault, row and frame. -/
def whereDetail (a : Nat) : Nat := physVault a + physRow a * 2 ^ 16 + a / 65536 % 16384 * 2 ^ 32

/-- Darning's records come from Helm die HA (log 36). -/
def darnEvent (s : State) (c : Code) (a num : Nat) : State := s.event 2 c (whereDetail a + num * 2 ^ 64)

/-- A new frame for what a frame holds: a page list stays in its vault (R189). -/
def frameFor (s : State) (f : Nat) : Option Nat :=
  match ownerOf s f with
  | .list _ _ => s.runIn (f / 16384) 1
  | _ => newFrame s ((stripeMates s f).getD []) 1

/-- Move a single-frame page to a new frame and retire the old one until the next device-level reset (R325, R327, R331);
`zero` lists offsets of 64 B words that the copy writes as zero. The copy rebuilds each word of the frame that waits at Darning. -/
def moveFrame (s : State) (f : Nat) (zero : List Nat) : State :=
  match frameFor s f with
  | none => s
  | some f' =>
    let s1 := (s.wrMemBytes (frameAddr f') (frameBytes s f)).takeFrames f' 1 true
    let s2 := { s1 with mem := zero.foldl (fun m o => zeroRange m (frameAddr f' + o) 64) s1.mem }
    let bad := (s.helm.darn.filter (fun d => decide (d.addr / 65536 = f))).map (fun d => d.addr % 65536 / 64 * 64)
    let s3 := match stripeMates s f with
      | none => s2
      | some m => bad.foldl (fun s2 o => s2.wrMemBytes (frameAddr f' + o) (rebuilt s m o 64)) s2
    let s4 := swapFrame s3 f f'
    { s4 with helm := { s4.helm with darn := s4.helm.darn.map (fun d =>
      if d.addr / 65536 = f then { d with addr := frameAddr f' + d.addr % 65536 } else d) } }

/-- Move a KV page with all its frames to new ones. -/
def moveKv (s : State) (slot l g : Nat) : State :=
  match s.stream slot with
  | none => s
  | some x =>
    match s.pat x.pat, x.pages.find? (fun e => decide (e.1 = l ∧ e.2.1 = g)) with
    | some p, some (_, _, f) =>
      let n := p.manifest.params.kvpitch / 256
      match s.kvRun p (kvBase p slot l g) n with
      | none => s
      | some f' =>
        putPage ((s.wrMemBytes (frameAddr f') (rdBytes s.mem (frameAddr f) (n * 65536))).takeFrames f' n true) p slot x l g f'
    | _, _ => s

/-- Move a stream's page table. -/
def moveTable (s : State) (slot : Nat) : State :=
  match s.stream slot with
  | none => s
  | some x =>
    match s.pat x.pat with
    | none => s
    | some p =>
      let n := ptFrames p x
      match s.kvRun p (kvBase p slot 0 0) n with
      | none => s
      | some f' =>
        ((s.wrMemBytes (frameAddr f') (rdBytes s.mem (frameAddr (x.ptVault * 16384 + x.ptFrame)) (n * 65536))).takeFrames
          f' n true).setStream slot (some { x with ptVault := f' / 16384, ptFrame := f' % 16384 }.seal)

/-- Is the page of a frame one of a pinned segment (R318)? -/
def isPinned (s : State) (f : Nat) : Bool :=
  match ownerOf s f with
  | .seg pi i _ => match s.segment pi i with | none => false | some g => g.pinned
  | .parity pi i _ => match s.segment pi i with | none => false | some g => g.pinned
  | _ => false

/-- PAGE_MOVE (R325, R327): Darning moves the page that holds a failing row or a second bad word, and retires its frame. A pinned
page moves under R325 alone, which `failed` says (R318). -/
def movePage (s : State) (f : Nat) (failed : Bool) : State :=
  if isPinned s f && !failed then s else
  match ownerOf s f with
  | .kv slot l g => moveKv s slot l g
  | .table slot => moveTable s slot
  | .none => s.takeFrames f 1 true
  | _ => moveFrame s f []

/-- A page of a stream has been lost or tainted (R326, R328): the stream's own steps are tainted for it, and outside a step it
is dealt with at once: a stream that was rewound waits for its replay (R329). -/
def losePage (s : State) (slot l g : Nat) : State :=
  match s.stream slot with
  | none => s
  | some x =>
    let s1 := s.setStream slot (some { x with lost := x.lost ++ [(l, g)] })
    let s2 := s1.mapSteps (fun t => if slot ∈ t.slots then { t with taintSlots := t.taintSlots ++ [slot] } else t)
    if s2.inStep slot then s2 else queueReplay (resolveLost s2 slot) slot x.pos

/-- Does a stream's landing-zone space hold byte `a` of the zone? -/
def Stream.holdsLz (x : Stream) (a : Nat) : Bool := decide (x.lzBase * 4096 ≤ a ∧ a < (x.lzBase + x.lzLen) * 4096)

/-- A byte of the landing zone could not be rebuilt (R328): the active stream whose space holds it has lost state, and a parked one
ends with END_LOST. -/
def loseLz (s : State) (a : Nat) : State :=
  match s.helm.streams.find? (fun e => match e.2 with | none => false | some x => x.holdsLz a) with
  | some e => losePage s e.1 ptLost 0
  | none =>
    match s.helm.parked.find? (fun x => x.holdsLz a) with
    | none => s
    | some x => dropParked (s.setParked s.helm.parkHead (s.helm.parked.erase x)) x (some .endLost)

/-- What an unreadable word means for what holds it (R328, R331, R333): a KV page or page table is lost, a writable or spill page moves
to a fresh frame with the word zero, a landing-zone space that could not be rebuilt loses its stream's state. -/
def loseWord (s : State) (a : Nat) : State :=
  let f := a / 65536
  match ownerOf s f with
  | .kv slot l g => losePage s slot l g
  | .table slot => losePage s slot ptLost 0
  | .area k j => if j = 7 then s else loseLz s ((k * 7 + j) * 65536 + a % 65536)
  | .seg pi i _ =>
    match s.segment pi i with
    | none => s
    | some g => if s.mend && !g.protected' then moveFrame s f [a % 65536 / 64 * 64] else s
  | .spill _ => if s.mend then moveFrame s f [a % 65536 / 64 * 64] else s
  | _ => s

end Sys2Proof.Machine
end

