-- ==== Sys2Proof/Machine/Vaults.lean ====
section
/-! DEFINITION. Vault reads and writes, patrol, refresh, Darning, migration, site tests, and loss of clocks (R30, R198 to R205,
R282, R312, R319 to R327, R333, R517). -/

namespace Sys2Proof.Machine

/-! ### Issuers -/

/-- The command word and position that engine `eng` of a core works on. -/
def engineAt (k : Core) (eng : Fin 6) : Nat × CmdWord :=
  if h : eng.val = 0 then (k.pos, k.wordAt) else
  let q := k.queue ⟨eng.val - 1, by omega⟩
  match q.prog.find? (fun p => !p.done), q.issue with
  | some p, _ => (p.entry.pos, p.entry.word)
  | none, e :: _ => (e.pos, e.word)
  | none, [] => (k.pos, k.wordAt)

/-- A running core is faulted at the command of one of its engines. -/
def faultEngine (s : State) (c : Nat) (eng : Fin 6) (code : Code) (x56 : Nat) : State :=
  let k := s.core c
  if k.st ≠ .running then s else
  let (pos, word) := engineAt k eng
  coreFault s c eng .faulted code pos word (coreDetail word pos 0xFF 0xFF 0 x56)

/-- The core that issued a read is faulted with VAULT_UE (R202); the record names vault and row (R485). -/
def faultIssuer (s : State) (issuer : Option (Nat × Fin 6)) (a : Nat) : State :=
  match issuer with
  | none => s
  | some (c, eng) => faultEngine s c eng .vaultUe (physVault a + physRow a * 2 ^ 13)

/-- The command that issued a read waits at Darning, or goes on (R202). -/
def holdIssuer (s : State) (issuer : Option (Nat × Fin 6)) (b : Bool) : State :=
  match issuer with
  | none => s
  | some (c, eng) =>
    if h : eng.val = 0 then s else
    let k := s.core c
    let e : Fin 5 := ⟨eng.val - 1, by omega⟩
    match (k.queue e).prog with
    | [] => s
    | f :: rest => s.setCore c (k.setQueue e { k.queue e with prog := { f with held := b } :: rest })

/-- Is the issuer, if there is one, a core of the grid? -/
def issuerOk (issuer : Option (Nat × Fin 6)) : Bool :=
  match issuer with | none => true | some (c, _) => decide (c < Config.nCores)

/-- A command of a byte of a vault, or the fault of what does not exist. -/
def onByte (vault offset : Nat) (issuer : Option (Nat × Fin 6)) (f : Nat → State) : Host.Outcome State Fault Refusal :=
  if Config.nSites ≤ vault ∨ Config.vaultBytes ≤ offset then .fault .noSuchVault
  else if issuerOk issuer = false then .fault .noSuchCore
  else .next (f (vault * Config.vaultBytes + offset / 32 * 32))

/-! ### Reads (R198 to R202, R204) -/

/-- The bytes of a codeword as a number's little-endian bytes. -/
def cwBytes (b : BitVec 256) : List Byte := toBytes 32 b.toNat

/-- A correction (R201, R326, R327): the decoded codeword is written back and counted; the sixteenth of a row in one patrol
pass logs VAULT_CE_ROW, and under MEND moves the page; the word is reported to Darning. -/
def correctWord (s : State) (a : Nat) (b : BitVec 256) : State :=
  let v := s.vault (physVault a)
  let row := physBank a * 8192 + physRow a
  let n := Sparse.get 0 v.ceRows row + 1
  let s1 := (s.setVault (physVault a) { v with ceRows := Sparse.set 0 v.ceRows row n }).bump (vaultCtr (physVault a) 0x18) 1
  let s2 := s1.wrMemBytes a (cwBytes b)
  let flying := (s2.helm.steps.filter (fun t => decide (t.phase ≠ .committed))).map (fun t => (t.pat, t.seq))
  let r : Report := { num := s2.helm.nextReport, addr := a, decoded := b, resolved := false, steps := flying }
  let s3 := { s2 with helm := { s2.helm with nextReport := s2.helm.nextReport + 1, reports := s2.helm.reports ++ [r] } }
  if n = 16 then
    let s4 := s3.event (dieBlock (dieOfSite (physVault a))) .vaultCeRow (whereDetail a)
    if s4.mend then movePage s4 (a / 65536) false else s4
  else s3

/-- Where a failed read goes: to Darning, which rebuilds a protected word under MEND, or nowhere (R202, R325, R331, R334). `reply`
says that a read waits for the data. -/
def toDarning (s : State) (a : Nat) (issuer : Option (Nat × Fin 6)) (reply : Bool) (write : Option (Nat × BitVec 256 × BitVec 32)) : State :=
  let s0 := { s with helm := { s.helm with migs := s.helm.migs.filter (fun m => m.copied || !decide (m.oldF = a / 65536)) } }
  let dropped := s.helm.migs.filter (fun m => !m.copied && decide (m.oldF = a / 65536))
  let s1 := dropped.foldl (fun s m => s.takeFrames m.newF 1 false) s0
  if (s.mend || s.lostAt a) && (stripeMates s (a / 65536)).isSome then
    let w : DarnWait := { addr := a, issuer := issuer, reply := reply, write := write }
    holdIssuer { s1 with helm := { s1.helm with darn := s1.helm.darn ++ [w] } } issuer true
  else loseWord (faultIssuer s1 issuer a) a

/-- What one read of the array comes to: the state, and whether the word can be used. -/
def readArray (s : State) (a : Nat) (first retry : DecodeOut) : State × Bool :=
  let v := physVault a
  match first with
  | .clean => (s, true)
  | .corrected b => (correctWord s a b, true)
  | .uncorrectable =>
    match retry with
    | .clean => (s.bump32 (vaultCtr v 0x30) 1, true)
    | .corrected b => (correctWord (s.bump32 (vaultCtr v 0x30) 1) a b, true)
    | .uncorrectable => (s.bump32 (vaultCtr v 0x34) 1, false)

/-- VAULT_READ_REQUEST (R200 to R202, R333): the codeword is read and decoded, retried once, and goes to Darning when it still
fails; a read on a lost die goes there at once. -/
def execVaultReadRequest (vault offset : Nat) (issuer : Option (Nat × Fin 6)) (first retry : DecodeOut) (s : State) :
    Host.Outcome State Fault Refusal :=
  onByte vault offset issuer (fun a =>
    if s.lostAt a then toDarning s a issuer true none else
    let (s1, ok) := readArray (openRow s a) a first retry
    if ok then s1.emit (.readData (rdNat s1.mem a 32)) else toDarning s1 a issuer true none)

/-- The bytes of a codeword after a masked write. -/
def merged (old data : List Byte) (mask : BitVec 32) : List Byte :=
  (List.range 32).map (fun i => if mask.getLsbD i then data.getD i 0 else old.getD i 0)

/-- Write a codeword, and the other frame of a page that is DUAL (R319). -/
def putCodeword (s : State) (a : Nat) (b : List Byte) : State :=
  let s1 := s.wrMemBytes a b
  match s.helm.migs.find? (fun m => decide (m.oldF = a / 65536 ∨ m.newF = a / 65536)) with
  | none => s1
  | some m => s1.wrMemBytes (frameAddr (if m.oldF = a / 65536 then m.newF else m.oldF) + a % 65536) b

/-- A write to a page of a lost die (R333): a protected data page's parity takes parity XOR old XOR new; a parity page's write
is left to its rebuild; a page without parity cannot be reached. -/
def writeLost (s : State) (a : Nat) (issuer : Option (Nat × Fin 6)) (data : List Byte) (mask : BitVec 32) : State :=
  let f := a / 65536
  match ownerOf s f, stripeMates s f with
  | .parity _ _ _, _ => s
  | .area _ 7, _ => s
  | .park _ 7, _ => s
  | _, none => loseWord (faultIssuer s issuer a) a
  | _, some m =>
    match m.getLast? with
    | none => s
    | some par =>
      let old := rebuilt s m (a % 65536) 32
      let new := merged old data mask
      let pa := frameAddr par + a % 65536
      s.wrMemBytes pa ((List.range 32).map (fun i => rdByte s.mem (pa + i) ^^^ old.getD i 0 ^^^ new.getD i 0))

/-- VAULT_WRITE_REQUEST (R203): a whole codeword is written directly; a masked one is read, merged and written, and not
written where its read fails. -/
def execVaultWriteRequest (vault offset : Nat) (data : BitVec 256) (mask : BitVec 32) (issuer : Option (Nat × Fin 6))
    (first retry : DecodeOut) (s : State) : Host.Outcome State Fault Refusal :=
  onByte vault offset issuer (fun a =>
    if s.lostAt a then writeLost s a issuer (cwBytes data) mask else
    if mask = BitVec.allOnes 32 then putCodeword (openRow s a) a (cwBytes data) else
    let (s1, ok) := readArray (openRow s a) a first retry
    if ok then putCodeword s1 a (merged (rdBytes s1.mem a 32) (cwBytes data) mask)
    else toDarning s1 a issuer false (some (a, data, mask)))

/-- PATROL_READ (R204): as a read that no core waits for. The pass begins again at byte 0, and the rows' counts of the last
one are dropped (R201). -/
def execPatrolRead (vault offset : Nat) (first retry : DecodeOut) (s : State) : Host.Outcome State Fault Refusal :=
  onByte vault offset none (fun a =>
    let s0 := if offset < 32 then s.setVault vault { s.vault vault with ceRows := [] } else s
    if s0.lostAt a then s0 else
    let (s1, ok) := readArray (openRow s0 a) a first retry
    if ok then s1 else toDarning s1 a none false none)

/-- REFRESH_OPERATION (R205, R233): the bank whose turn it is in the vault's rotation is refreshed: its open row is closed, and the
rotation, which begins at bank 0 (log 14), goes on to the next bank. No other bank is refreshed out of its turn. -/
def execRefreshOperation (vault : Nat) (bank : Fin 64) (s : State) : Host.Outcome State Fault Refusal :=
  if Config.nSites ≤ vault then .fault .noSuchVault else
  let v := s.vault vault
  if bank.val ≠ v.refreshed then .next s else
  .next (s.setVault vault { v with openRows := Sparse.set none v.openRows bank.val none, refreshed := (bank.val + 1) % 64 })

/-! ### Darning (R325, R326, R333) -/

/-- A rebuilt word reaches its frame: the second one of a frame moves the page (R325). On a lost die the whole page is rebuilt
into a new frame (R333). -/
def placeRebuilt (s : State) (a : Nat) (b : List Byte) : State :=
  let f := a / 65536
  if s.lostAt a then moveFrame s f [] else
  let n := Sparse.get 0 s.helm.ueWords f + 1
  let s1 := s.wrMemBytes (a / 64 * 64) b
  let s2 := { s1 with helm := { s1.helm with ueWords := Sparse.set 0 s1.helm.ueWords f n } }
  if n = 2 then movePage s2 f true else s2

/-- A masked write that waited for its word goes on (R203). -/
def finishWrite (s : State) (w : DarnWait) (word : List Byte) : State :=
  match w.write with
  | none => s
  | some (a, data, mask) =>
    let m := merged ((word.drop (a % 64)).take 32) (cwBytes data) mask
    if s.lostAt a then writeLost s a w.issuer (cwBytes data) mask else putCodeword s a m

/-- The waiting read completes with the rebuilt word's codeword (R202, R325). -/
def replyRead (s : State) (w : DarnWait) (word : List Byte) : State :=
  if w.reply then s.emit (.readData (ofBytes ((word.drop (w.addr % 64)).take 32))) else s

/-- DARN_REBUILD (R325): the seven reads return. The word is rebuilt, written back and logged, and the waiting read completes;
if one of the seven is unreadable the issuing core is faulted. A page of a lost die is rebuilt with or without a waiting
read (R333). -/
def execDarnRebuild (vault offset : Nat) (readable : Bool) (s : State) : Host.Outcome State Fault Refusal :=
  onByte vault offset none (fun a =>
    let w := s.helm.darn.find? (fun d => decide (d.addr / 64 = a / 64))
    let s1 := { s with helm := { s.helm with darn := match w with | none => s.helm.darn | some x => s.helm.darn.erase x } }
    if w.isNone && !s.lostAt a then s else
    let x : DarnWait := w.getD { addr := a, issuer := none, reply := false, write := none }
    match stripeMates s (a / 65536) with
    | none => loseWord (faultIssuer (holdIssuer s1 x.issuer false) x.issuer a) a
    | some m =>
      if readable = false ∨ m.any (fun f => s.lostAt (frameAddr f)) = true then
        loseWord (faultIssuer (holdIssuer s1 x.issuer false) x.issuer a) a
      else
        let word := rebuilt s m (a % 65536 / 64 * 64) 64
        holdIssuer (replyRead (finishWrite (darnEvent (placeRebuilt s1 a word) .darnRebuild a 0) x word) x word) x.issuer false)

/-- A report taints the steps of a Pattern that were dispatched and had not committed when it was made, though they may have committed
since (R326, R330). -/
def taintSteps (s : State) (pi : Nat) (r : Report) : State :=
  s.mapSteps (fun t => if t.pat = pi ∧ (pi, t.seq) ∈ r.steps then { t with taintAll := true } else t)

/-- The Pattern of the active stream whose landing-zone space holds byte `a`. -/
def lzPattern (s : State) (a : Nat) : Option Nat :=
  s.helm.streams.findSome? (fun e => match e.2 with | none => none | some x => if x.holdsLz a then some x.pat else none)

/-- What Darning finds of one report (R326). -/
def resolveReport (s : State) (r : Report) : State :=
  let f := r.addr / 65536
  match ownerOf s f, stripeMates s f with
  | .kv slot l g, _ => losePage s slot l g
  | .table slot, _ => losePage s slot ptLost 0
  | .spill pi, _ => taintSteps s pi r
  | .seg pi _ _, none => taintSteps s pi r
  | o, some m =>
    if s.mend = false then s else
    let good := rebuilt s m (r.addr % 65536) 32
    if good = cwBytes r.decoded then s else
    let s1 := darnEvent (s.wrMemBytes r.addr good) .darnMiscorrect r.addr r.num
    match o with
    | .seg pi _ _ => taintSteps s1 pi r
    | .parity pi _ _ => taintSteps s1 pi r
    | .area k j => match lzPattern s ((k * 7 + j) * 65536 + r.addr % 65536) with | none => s1 | some pi => taintSteps s1 pi r
    | _ => s1
  | _, none => s

/-- MISCORRECTION_RESOLVE (R326): Darning resolves a reported word. -/
def execMiscorrectionResolve (n : Nat) (s : State) : Host.Outcome State Fault Refusal :=
  .next (match s.helm.reports.find? (fun r => decide (r.num = n)) with
    | none => s
    | some r =>
      resolveReport { s with helm := { s.helm with reports := s.helm.reports.filter (fun x => decide (x.num ≠ n)) } } r)

/-! ### Migration (R319, R320) -/

/-- Does a registered counter of a Pattern, or its claim bitmap, lie in a page of a segment (R320)? -/
def countersIn (s : State) (pi seg page : Nat) : Bool :=
  s.vaults.any (fun e => e.2.ctrs.any (fun r =>
    let hits (a n : Nat) : Bool := decide (segOf a = seg ∧ ofsOf a < (page + 1) * 65536 ∧ page * 65536 < ofsOf a + n)
    decide (r.pat = pi) && (hits r.addr 64 || (r.claim && hits r.cmap (2 * r.limit)))))

/-- MIGRATION_START (R319): a page of a protected segment whose vault port waited for more than 1/8 of 2^24 vault cycles
gets a frame in the vault of lower load that the command names, and is DUAL. The exclusions of R320 hold. -/
def execMigrationStart (pi seg page toVault waits : Nat) (s : State) : Host.Outcome State Fault Refusal :=
  if Config.nSites ≤ toVault then .fault .noSuchVault else
  .next (match s.segment pi seg with
    | none => s
    | some g =>
      match g.frames[page]?, s.runIn toVault 1 with
      | some f, some f' =>
        let mates := g.stripeOthers page
        let busy := s.helm.migs.any (fun m => decide (m.oldF / 16384 = f / 16384))
        let clash := mates.any (fun x => decide (dieOfSite (x / 16384) = dieOfSite toVault))
        if s.place = false ∨ g.protected' = false ∨ g.pinned = true ∨ countersIn s pi seg page = true ∨ busy = true
            ∨ clash = true ∨ waits ≤ 2 ^ 21 ∨ s.lostAt (frameAddr f) = true ∨ s.dieIn (dieOfSite toVault) = false
            ∨ s.helm.darn.any (fun d => decide (d.addr / 65536 = f)) = true then s
        else
          let m : Migration := { pat := pi, seg := seg, page := page, oldF := f, newF := f', copied := false, waitSeq := 0, halted := false }
          let s1 := s.takeFrames f' 1 true
          { s1 with helm := { s1.helm with migs := s1.helm.migs ++ [m] } }
      | _, _ => s)

/-- Replace a migration, or drop it. -/
def setMig (s : State) (m : Migration) (m' : Option Migration) : State :=
  { s with helm := { s.helm with migs := s.helm.migs.flatMap (fun x => if x = m then m'.toList else [x]) } }

/-- The migration of a page. -/
def State.migOf (s : State) (pi seg page : Nat) : Option Migration :=
  s.helm.migs.find? (fun m => decide (m.pat = pi ∧ m.seg = seg ∧ m.page = page))

/-- MIGRATION_COPY_END (R319): the page has been copied, and the new frame enters the page list. -/
def execMigrationCopyEnd (pi seg page : Nat) (s : State) : Host.Outcome State Fault Refusal :=
  .next (match s.migOf pi seg page, s.pat pi, s.segment pi seg with
    | some m, some p, some g =>
      if m.copied then s else
      let s1 := s.wrMemBytes (frameAddr m.newF) (frameBytes s m.oldF)
      setMig (setSegment s1 pi seg { g with frames := g.frames.set page m.newF }) m
        (some { m with copied := true, waitSeq := p.nextSeq })
    | _, _, _ => s)

/-- MIGRATION_END (R319): once a step dispatched after the copy has halted on every region, DUAL ends and the old frame is
zeroed and returned. -/
def execMigrationEnd (pi seg page : Nat) (s : State) : Host.Outcome State Fault Refusal :=
  .next (match s.migOf pi seg page with
    | none => s
    | some m => if m.copied ∧ m.halted = true then setMig ((clearFrames s m.oldF 1).takeFrames m.oldF 1 false) m none else s)

/-! ### Sites and clocks (R30, R312, R332, R333, R517) -/

/-- The most recently absent logical core of a die becomes present again, held by a site (R332). -/
def returnCore (s : State) (t : Nat) : State :=
  match (s.absentOn (dieOfSite t)).getLast? with
  | none => s
  | some c =>
    let s1 := s.setPlace c (if t = identSite c then .ident else .at t)
    { s1 with helm := { s1.helm with absent := s1.helm.absent.erase c } }

/-- SITE_TEST_END (R312, R332): a SUSPECT site that passes becomes SPARE with a strike, and one that fails RETIRED. -/
def execSiteTestEnd (t : Nat) (pass : Bool) (s : State) : Host.Outcome State Fault Refusal :=
  if Config.nSites ≤ t then .fault .noSuchVault else
  let m := s.mark t
  noted s (.next (
    if m.suspect = false then s
    else if pass = false then s.setMark t { m with suspect := false, retired := true }
    else
      let s1 := s.setMark t { m with suspect := false, strike := true }
      if (s1.heldBy t).isNone && s1.siteOk t then returnCore s1 t else s1))

/-- The KV pages and page tables on a lost die (R333). -/
def loseKv (s : State) (d : Nat) : State :=
  s.helm.streams.foldl (fun s e =>
    match e.2 with
    | none => s
    | some x =>
      let on (f : Nat) : Bool := decide (dieOfSite (f / 16384) = d)
      let s1 := (x.pages.filter (fun y => on y.2.2)).foldl (fun s y => losePage s e.1 y.1 y.2.1) s
      if on (x.ptVault * 16384 + x.ptFrame) then losePage s1 e.1 ptLost 0 else s1) s

/-- A core that is lost with its die: its held locks are still to be released (R229, R323). -/
def Core.lostWithDie (k : Core) : Core := { Core.init with pat := k.pat, region := k.region, locks := k.locks }

/-- COMPUTE_PLL_LOSS (R30, R333, R517): the die leaves service with its cores and vaults; regions that hold its cores stop or
go to their reset; the streams' state on it is lost. -/
def execComputePllLoss (d : Nat) (s : State) : Host.Outcome State Fault Refusal :=
  if 24 ≤ d then .fault .noSuchBlock else
  noted s (.next (
    if s.dieIn d = false then s else
    let s1 := (dieCores d).foldl (fun s c => s.setCore c (s.core c).lostWithDie) (retireDie s d)
    let s2 := { s1 with helm := { s1.helm with diesLost := Sparse.set false s1.helm.diesLost d true } }
    loseKv (loseAbsent s2) d))

/-- The compute dies are held in reset: every core is reset (R30, R421). -/
def holdCores (s : State) : State := { s with cores := (s.cores.map (fun e => (e.1, e.2.lostWithDie))).filter (fun e => decide (e.2 ≠ Core.init)) }

/-- Close every Ethernet port and Nelzan link. -/
def closePorts (s : State) : State :=
  { s with ports := s.ports.map (fun p => { p with up := false, training := false }),
           links := s.links.map (fun l => { l with st := .down, replay := [] }), routed := [],
           pds := s.pds.map (fun x => { x with closed := true }) }

/-- REFCLK_LOSS (R30, R421): the ports and links close, admission and dispatch stop, and the compute dies are held in reset. But
for RECOVERY the device is in FAILED (log 52). Service returns only through a cold reset or RST_IN_N. -/
def execRefclkLoss (_cause : ClockLoss) (s : State) : Host.Outcome State Fault Refusal :=
  noted s (.next (
    if s.refLost then s else
    let s1 := holdCores (closePorts s)
    let start := if s.start.stage = 7 ∨ s.start.stage = 8 then s.start else { s.start with stage := 7, failcode := codeValue .refclkLoss }
    ({ s1 with refLost := true, start := start, helm := { s1.helm with admission := false } }).event 0 .refclkLoss 0))

/-! ### Arbitration (R279, R282, R283) -/

/-- The counter of preemptions at a resource (R284); scratch banks and accumulator banks have none. -/
def preemptCtr (s : State) : Resource → Option Nat
  | .injection c => (siteOf s.helm c).map (fun _ => coreCtr c 0xC0)
  | .vaultPort v => some (vaultCtr v 0x20)
  | .nmuPath v => some (vaultCtr v 0x28)
  | _ => none

/-- Does a resource exist? -/
def resourceOk : Resource → Bool
  | .scratchBank c b => decide (c < Config.nCores ∧ b < 32)
  | .injection c => decide (c < Config.nCores)
  | .vaultPort v => decide (v < Config.nSites)
  | .nmuPath v => decide (v < Config.nSites)
  | .accBank c b => decide (c < Config.nCores ∧ b < 2)

/-- PREEMPTION (R279): a holder of at least 64 cycles gives way to a waiter of at least 128 at a unit boundary, and keeps its
progress count. -/
def execPreemption (res : Resource) (held waited progress : Nat) (s : State) : Host.Outcome State Fault Refusal :=
  if resourceOk res = false then .fault .noSuchBlock else
  .next (
    if held < 64 ∨ waited < 128 then s else
    let s1 := { s with preempted := s.preempted ++ [(res, progress)] }
    match preemptCtr s res with
    | none => s1
    | some o => s1.bump o 1)

end Sys2Proof.Machine
end

