-- ==== Sys2Proof/Machine/Admission.lean ====
section
/-! DEFINITION. Admission of requests, activation and parking of streams, their release and zeroing (R285 to R292, R298, R306,
R380). -/

namespace Sys2Proof.Machine

/-! ### The KV pool (R298) -/

/-- Frames of a vault that device areas take (R420). -/
def State.areaIn (s : State) (v : Nat) : Nat :=
  let d := dieOfSite v
  let n := stripesOn s.helm.areaDies 0 lzStripes d + stripesOn s.helm.areaDies 1 parkStripes d
  let before := ((List.range 192).filter (fun i => decide (vaultOf d i < v))).map (fun i => (s.reserveOf (vaultOf d i)).length)
  min (s.reserveOf v).length (n - before.foldl (· + ·) 0)

/-- Frames of a vault that the pool may use. -/
def State.usableIn (s : State) (v : Nat) : Nat :=
  if (s.vault v).out || Sparse.get false s.helm.diesLost (dieOfSite v) then 0 else
  let bad := match s.chart with | none => 0 | some c => (c.badFrames.filter (fun e => decide (e.1 = v))).length
  16384 - bad - s.areaIn v

/-- Frames that streams hold: their KV pages and page tables, until they have been zeroed. -/
def State.kvTaken (s : State) : Nat :=
  let live := s.helm.streams.map (fun e =>
    match e.2 with
    | none => 0
    | some x => match s.pat x.pat with
      | none => 0
      | some p => x.pages.length * (p.manifest.params.kvpitch / 256) + ptFrames p x)
  let dead := s.helm.zeroing.map (fun z => (z.ranges.map (·.2)).foldl (· + ·) 0)
  (live ++ dead).foldl (· + ·) 0

/-- Frames of the KV pool: what Pattern segments, spill regions, their parity and the device areas leave (R298). -/
def State.kvPool (s : State) : Nat :=
  ((List.range Config.nSites).map s.usableIn).foldl (· + ·) 0 - ((s.helm.frames.filter (·.2)).length - s.kvTaken)

/-- A stream's KV reservation in frames (R298). -/
def kvNeed (p : Pattern) (limit : Nat) : Nat :=
  let pages := ceilDiv limit 256 * p.manifest.params.nlhg
  pages * (p.manifest.params.kvpitch / 256) + ceilDiv (pages * 8) 65536

/-! ### Refusals (R288) -/

/-- Refuse an opened request: its sender is told under its staging key, its space is zeroed and freed, and the refusal is
logged and counted by the Helm that makes it. -/
def refuseReq (s : State) (h : Nat) (i : ReqItem) (c : Code) : State :=
  let s1 := finalStatus s (pdOf i.port) i.crec c
  let s2 := (lzRelease s1 i.lzBase i.lzLen).bump (helmCtr h 0x120) 1
  s2.refusal (2 + h) c 0

/-- The resident Pattern that a request names, by number (R288, check 1). -/
def matchPat (s : State) (hash : BitVec 384) : Option (Nat × Pattern) :=
  s.helm.pats.findSome? (fun e =>
    match e.2 with
    | none => none
    | some p => if p.resident ∧ p.manifest.hash = hash ∧ p.unloading = false ∧ p.faulted = false then some (e.1, p) else none)

/-- Checks 1 to 3 of R288. -/
def reqCheck (s : State) (i : ReqItem) : Option Code :=
  match matchPat s i.inner.pattern with
  | none => some .refusedPattern
  | some (_, p) =>
    let n := i.inner
    if n.limit = 0 ∨ 2097152 < n.limit ∨ n.plen = 0 ∨ n.limit < n.plen ∨ i.bodyLen ≠ n.plen * p.manifest.params.inrow then
      some .refusedLength
    else if s.kvPool < kvNeed p n.limit then some .refusedLength
    else none

/-! ### Ingress queues (R275) -/

/-- Words that an ingress queue holds: each REQ item is a header and 128 B (R275, R380). -/
def Ingress.words (q : Ingress) : Nat := 3 * q.items.length

/-- Do both copies of a queue's pointers agree (R273)? -/
def Ingress.ptrOk (q : Ingress) : Bool := decide (q.ptr = q.ptr2)

/-- Both copies of a queue's pointers go on by `h` and `t` words. -/
def Ingress.advance (q : Ingress) (h t : Nat) : Ingress :=
  { q with ptr := (q.ptr.1 + h, q.ptr.2 + t), ptr2 := (q.ptr2.1 + h, q.ptr2.2 + t) }

/-- A queue of which only the items `l` stay: the words of the others are credit again. -/
def Ingress.keep (q : Ingress) (l : List ReqItem) : Ingress :=
  let n := 3 * (q.items.length - l.length)
  { q with items := l, credits := q.credits + n }.advance n 0

/-- A queue whose epoch rises (R274): it is empty, and every credit is back at the port die. -/
def Ingress.newEpoch (q : Ingress) : Ingress := { Ingress.init with epoch := q.epoch + 1 }

/-- An ingress queue is reset under R273 (R275, R384): its epoch rises, MSG_STALE names the port die for each item that is discarded
(R274), and each request sent into it that is not yet admitted or refused, checked ones among them, is answered with a sealed
REFUSED_RETRY. -/
def resetIngress (s : State) (h : Fin 2) (pd : Fin 4) : State :=
  let q := (s.pd pd).ingress.get h
  let mine (e : ReqItem × Nat) : Bool := decide (e.1.pd = pd ∧ e.2 = h.val)
  let retry (s : State) (i : ReqItem) : State :=
    (lzRelease (finalStatus s (pdOf i.port) i.crec .refusedRetry) i.lzBase i.lzLen).refusal (2 + h.val) .refusedRetry 0
  let s1 := ((s.helm.checked.filter mine).map (·.1)).foldl retry
    { s with helm := { s.helm with checked := s.helm.checked.filter (fun e => !mine e) } }
  q.items.foldl (fun s i => (retry s i).logRec
      { mkRec (2 + h.val) .event .msgStale with detail := BitVec.ofNat 256 (pd.val + h.val * 2 ^ 16 + q.epoch.toNat * 2 ^ 24) })
    (s1.setPd pd { s1.pd pd with ingress := (s1.pd pd).ingress.set h.val q.newEpoch h.isLt })

/-- REQ_ITEM (R288, R292): a Helm checks the oldest item of one of its ingress queues; Helm B passes what it accepts to
Helm A. Where the queue's pointer copies disagree, as with `ptrOk` clear one of them has come to, the queue is reset. -/
def execReqItem (h : Fin 2) (pd : Fin 4) (ptrOk : Bool) (s : State) : Host.Outcome State Fault Refusal :=
  let q := (s.pd pd).ingress.get h
  .next (if ptrOk = false ∨ q.ptrOk = false then resetIngress s h pd else
    match s.helm.admission, q.items with
    | true, i :: rest =>
      let s1 := s.setPd pd { s.pd pd with ingress := (s.pd pd).ingress.set h.val (q.keep rest) h.isLt }
      match reqCheck s1 i with
      | some c => refuseReq s1 h.val i c
      | none => { s1 with helm := { s1.helm with checked := s1.helm.checked ++ [(i, h.val)] } }
    | _, _ => s)

/-! ### Activation (R290, R292, R380) -/

/-- Entries of a half of the stream table. -/
def halfSlots : Nat := 131072

/-- Free entries of a half. -/
def State.freeSlots (s : State) (h : Nat) : Nat :=
  halfSlots - (s.helm.streams.filter (fun e => e.2.isSome && decide (e.1 / halfSlots = h))).length

/-- The lowest free slot of a half. -/
def State.lowSlot (s : State) (h : Nat) : Option Nat := findFrom (fun q => (s.stream q).isNone) halfSlots (h * halfSlots)

/-- The slot that an activation takes: the former one of a stream that returns from L3 (R441), else the lowest of the half
with more free slots, of HA's on a tie (log 29). -/
def State.slotFor (s : State) (x : Stream) : Option Nat :=
  match x.slotWas with
  | some q => if (s.stream q).isNone then some q else none
  | none => s.lowSlot (if s.freeSlots 0 < s.freeSlots 1 then 1 else 0)

/-- Active key slots of a port die in use. -/
def State.keysIn (s : State) (k : Fin 4) : Nat := ((s.pd k).slots.filter (·.2.isSome)).length

/-- The port die with the most of its active key slots free, the lowest on a tie. -/
def State.keyDie (s : State) : Fin 4 := ((fins 4).foldl (fun b k => if s.keysIn k < s.keysIn b then k else b) 0)

/-- The lowest free active key slot of a port die. -/
def State.keySlot (s : State) (k : Fin 4) : Option Nat :=
  findFrom (fun q => (Sparse.get none (s.pd k).slots q).isNone) 65536 0

/-- Move a connection's staging key to an active slot (R380). -/
def moveKey (s : State) (x : Stream) (k : Fin 4) (q : Nat) : State :=
  match s.conn (pdOf x.port) x.crec with
  | none => s
  | some y =>
    let s1 := s.setConn (pdOf x.port) x.crec (some { y with staging := none })
    s1.setPd k { s1.pd k with slots := Sparse.set none (s1.pd k).slots q y.staging }

/-- Does a stream's staging key pair agree (R379, R488)? -/
def stagingOk (s : State) (x : Stream) : Bool :=
  match s.conn (pdOf x.port) x.crec with | none => true | some y => y.stagingOk

/-- Write the entry of an activated stream; HELM_ADMIT counts it (R292), one that returns from L3 too (R441). -/
def activate (s : State) (x : Stream) (p : Pattern) (slot : Nat) : State :=
  let need := kvNeed p x.limit
  let s1 := { s with helm := { s.helm with kvReserved := s.helm.kvReserved + need } }
  let s2 := (s1.bump (helmCtr (slot / halfSlots) 0x110) 1).emit (.activation slot)
  match s.helm.resume.find? (fun r => decide (r.sid = x.sid)) with
  | some r =>
    let s3 := { s with helm := { s.helm with resume := s.helm.resume.erase r } }
    ((s3.bump (helmCtr (slot / halfSlots) 0x110) 1).emit (.activation slot)).setStream slot (some { r with st := .ready, slotWas := none })
  | none =>
    let kd := s2.keyDie
    let ks := (s2.keySlot kd).getD 0
    let n := ptFrames p x
    let f := (s2.kvRun p (kvBase p slot 0 0) n).getD 0
    let s3 := (moveKey s2 x kd ks).takeFrames f n true
    s3.setStream slot (some { x with st := .ready, kdie := kd, rkh := ks, ptVault := f / 16384, ptFrame := f % 16384 }.seal)

/-- Why the head of the parked list is not activated. -/
inductive HeadState | none | noSlot | noRoom | ready (x : Stream) (p : Pattern) (slot : Nat) | bad (x : Stream)

/-- What stands between the head of the parked list and its activation. -/
def headOf (s : State) : HeadState :=
  match s.helm.parked with
  | [] => .none
  | x :: _ =>
    match s.pat x.pat, s.slotFor x with
    | some p, some q =>
      if (s.helm.resume.any (fun r => decide (r.sid = x.sid))) then .ready x p q
      else if stagingOk s x = false then .bad x
      else if s.kvPool < s.helm.kvReserved + kvNeed p x.limit then .noRoom
      else .ready x p q
    | none, _ => .bad x
    | _, none => .noSlot

/-- Steps 2 and 4 of R290: the head is activated while it can be. A staging key whose pair disagrees answers the request with
REFUSED_RETRY (R488). -/
def activateAll : Nat → State → State
  | 0, s => s
  | n + 1, s =>
    let pop := s.setParked (s.helm.parkHead + 1) (s.helm.parked.drop 1)
    match headOf s with
    | .ready x p q => activateAll n (activate pop x p q)
    | .bad x =>
      let s1 := pop.logRec { mkRec 2 .event .pairMismatch with sid := x.sid, pat := x.pat }
      activateAll n ((dropParked s1 x (some .refusedRetry)).refusal 2 .refusedRetry 0)
    | _ => s

/-- The record of a checked request (R286, R291). -/
def parkedRec (s : State) (i : ReqItem) (pi : Nat) : Stream :=
  let x : Stream := {
    sid := s.helm.nextSid, pat := pi, sclass := i.inner.sclass, st := .parked, pos := 0, plen := i.inner.plen,
    limit := i.inner.limit, port := i.port, crec := i.crec, conn := i.conn, ptVault := 0, ptFrame := 0, kdie := 0,
    pki := i.pki, rkh := 0, keyN := 0, aseq := s.helm.nextAseq, lzBase := i.lzBase, lzLen := i.lzLen, pages := [],
    lastOut := [], lost := [], endCode := none, slotWas := none }
  x.seal

/-- A checked item reaches HA's check 4 and the tail of the parked list (R288, R290). Its Pattern may have gone since. -/
def parkItem (s : State) (e : ReqItem × Nat) : State :=
  if 1048576 ≤ s.helm.parked.length then refuseReq s 0 e.1 .refusedCapacity else
  match matchPat s e.1.inner.pattern with
  | none => refuseReq s e.2 e.1 .refusedPattern
  | some (pi, _) =>
    let x := parkedRec s e.1 pi
    let s0 := s.setParked s.helm.parkHead (s.helm.parked ++ [x])
    let s1 := { s0 with helm := { s0.helm with nextAseq := s.helm.nextAseq + 1, nextSid := s.helm.nextSid + 1 } }
    match s1.conn (pdOf x.port) x.crec with
    | none => s1
    | some y => s1.setConn (pdOf x.port) x.crec (some { y with sid := some x.sid })

/-- The order in which HA takes a cycle's items (R292): its own, from P0 to P3, then Helm B's as sent. -/
def checkedOrder (l : List (ReqItem × Nat)) : List (ReqItem × Nat) :=
  (fins 4).flatMap (fun k => l.filter (fun e => decide (e.2 = 0 ∧ e.1.pd = k))) ++ l.filter (fun e => decide (e.2 ≠ 0))

/-- ADMISSION_CYCLE (R290): the parked head is activated while it can be, this cycle's items join the list, and the head is
tried again. A head that waits for KV room beside a free slot adds one to HELM_HOL_WAIT. -/
def execAdmissionCycle (s : State) : Host.Outcome State Fault Refusal :=
  .next (
    if s.helm.admission = false ∨ s.pwr.entering = true ∨ s.pwr.state ≠ 0 then s else
    let s1 := activateAll s.helm.parked.length s
    let items := checkedOrder s1.helm.checked
    let s2 := items.foldl parkItem { s1 with helm := { s1.helm with checked := [] } }
    let s3 := activateAll s2.helm.parked.length s2
    let fresh := (s3.helm.parked.filter (fun x => decide ((x.aseq - s.helm.nextAseq).toNat < items.length))).length
    let s4 := s3.bump (helmCtr 0 0x118) fresh
    match headOf s4 with
    | .noRoom => s4.bump (helmCtr 0 0x128) 1
    | _ => s4)

/-! ### Release (R230, R306) -/

/-- An ending stream that is in no step gives up its slot; its key slot is wiped, and its ranges go to be zeroed. Where KEY_N
disagrees the event names it (R287). -/
def releaseSlot (s : State) (slot : Nat) : State :=
  match s.stream slot with
  | none => s
  | some x =>
    if x.st ≠ .ending ∨ s.inStep slot = true then s else
    match s.pat x.pat with
    | none => s
    | some p =>
      let n := p.manifest.params.kvpitch / 256
      let ranges := x.pages.map (fun e => (e.2.2, n)) ++ [(x.ptVault * 16384 + x.ptFrame, ptFrames p x)]
      let z : Zeroing := { sid := x.sid, ranges := ranges, lzBase := x.lzBase, lzLen := x.lzLen, kv := kvNeed p x.limit }
      let s0 := if x.keyOk then s else s.logRec { mkRec (helmBlock s x.pat) .event .pairMismatch with sid := x.sid, pat := x.pat }
      let s1 := s0.setStream slot none
      let s2 := s1.setPd x.kdie { s1.pd x.kdie with slots := Sparse.set none (s1.pd x.kdie).slots x.rkh none }
      ({ s2 with helm := { s2.helm with zeroing := s2.helm.zeroing ++ [z] } }).emit (.zeroing x.sid ranges)

/-- STREAM_RELEASE (R306). -/
def execStreamRelease (slot : Nat) (s : State) : Host.Outcome State Fault Refusal := .next (releaseSlot s slot)

/-- ZEROING_COMPLETE (R230, R306): the last FILL of an ended stream's ranges completes; they return to the pool, and its
reservation is released. -/
def execZeroingComplete (sid : BitVec 32) (s : State) : Host.Outcome State Fault Refusal :=
  .next (match s.helm.zeroing.find? (fun z => decide (z.sid = sid)) with
    | none => s
    | some z =>
      let s1 := z.ranges.foldl (fun s r =>
        (clearFrames s r.1 r.2).takeFrames r.1 r.2 false) s
      let s2 := lzRelease s1 z.lzBase z.lzLen
      { s2 with helm := { s2.helm with zeroing := s2.helm.zeroing.erase z, kvReserved := s2.helm.kvReserved - z.kv } })

end Sys2Proof.Machine
end

