-- ==== Sys2Proof/Machine/Chain.lean ====
section
/-! DEFINITION. Fused chains (R116, R145 to R152): the chain record, its checks, and its products taken one after another. -/

namespace Sys2Proof.Machine

/-- The chain record (R146). -/
structure ChainRec where
  ops1 : Nat
  ops2 : Nat
  band : Nat
  rs : Nat
  t1 : Nat
  p1n : Nat
  nkb : Nat
  nsets : Nat
  imul : Nat
  rfn : Nat
  sh1 : Nat
  sh2 : Nat
  eop2 : Nat
  red2 : Nat
  rinit : Bool
  lastn : Nat
  deriving DecidableEq, Repr

/-- The fields of a chain record (R146). -/
def chainRecOf (w : Nat) : ChainRec :=
  { ops1 := bitsOf w 0 16, ops2 := bitsOf w 16 16, band := bitsOf w 32 16, rs := bitsOf w 48 16, t1 := bitsOf w 64 5,
    p1n := bitsOf w 69 4, nkb := bitsOf w 80 16, nsets := bitsOf w 96 7, imul := bitsOf w 112 16, rfn := bitsOf w 128 2,
    sh1 := bitsOf w 130 3, sh2 := bitsOf w 133 3, eop2 := bitsOf w 136 2, red2 := bitsOf w 138 2, rinit := bitOf w 140,
    lastn := bitsOf w 141 9 }

/-- Rows, product-1 columns and band columns (R147). -/
def ChainRec.m (r : ChainRec) : Nat := shapeM r.sh1
def ChainRec.n1 (r : ChainRec) : Nat := shapeN r.sh1
def ChainRec.w (r : ChainRec) : Nat := r.t1 * r.n1

/-- The row band: a DENSE tensor of M rows and W columns, with the smallest row stride of R45 (log 22). -/
def bandOpnd (mem : Memory) (r : ChainRec) : Opnd :=
  let h := hdrOf (hdrWord mem (r.band * 64))
  { mem := mem, base := r.band * 64, h := h, rstr := ceilDiv (r.w * etBits h.etype) 512 * 64, rows := r.m, cols := r.w }

/-- Operand set of product 1 for a key block, tile and chunk, and of product 2 for a chunk (R147). -/
def ChainRec.set1 (r : ChainRec) (kb t c : Nat) : Nat := r.ops1 + ((kb % r.nsets) * r.t1 + t) * r.p1n + c
def ChainRec.set2 (r : ChainRec) (kb c2 chunks : Nat) : Nat := r.ops2 + (kb % r.nsets) * chunks + c2

/-- Product 2's reduction chunk and its chunks per band, from the band's type and B's (R90, R147). -/
def chunk2 (mem : Memory) (r : ChainRec) (unit : Nat) : Nat :=
  chunkK (rateClass (bandOpnd mem r).h.etype (hdrOf (hdrWord mem ((opSetOf (unitBits mem unit)).bBase * 64))).etype)
def chunks2 (mem : Memory) (r : ChainRec) : Nat := r.w / chunk2 mem r r.ops2

/-- Every operand set of the chain; of product 2's, where the headers that give its chunk cannot be read, the first. -/
def ChainRec.sets (mem : Memory) (r : ChainRec) (known : Bool) : List Nat :=
  (List.range (r.nsets * r.t1 * r.p1n)).map (· + r.ops1)
    ++ (if known then (List.range (r.nsets * chunks2 mem r)).map (· + r.ops2) else [r.ops2])

/-- The acceptance checks of R152, in order. Row 2 looks at the band's extent only where its header's halves agree, since R39
computes nothing from a header whose halves disagree (log 77). `sBand` and `sB2` say that the band's header and the header of
product 2's first B can be read: an engine reads both, and the loader makes of each check what it can without (log 43). -/
def chainRows (k : Core) (unit : Nat) (run : Bool) (bank : Fin 2) (sBand sB2 : Bool) : List (Bool × Stop) :=
  let w := unitBits k.scratch unit
  let r := chainRecOf w
  let band := bandOpnd k.scratch r
  let sets := r.sets k.scratch (sBand && sB2)
  let q : Fin 2 := if bank = 0 then 1 else 0
  let rsSpan : Span := [(r.rs * 64, 32 * r.m)]
  [ (decide (Config.topUnit ≤ unit), rejectS .scratchRange),
    (!compl 64 (bitsOf w 0 64) (bitsOf w 192 64), faultS .pairMismatch),
    (sets.any (fun u => decide (Config.topUnit ≤ u)) || decide (Config.topUnit ≤ r.ops1) || decide (Config.topUnit ≤ r.ops2)
      || decide (Config.topUnit ≤ r.band) || (sBand && hdrPair k.scratch (r.band * 64) && pastTop band.parts) || pastTop rsSpan,
      rejectS .scratchRange),
    (decide (r.rfn = 3) || decide (4 < r.sh1) || decide (4 < r.sh2) || decide (r.eop2 = 3) || decide (r.red2 = 3)
      || decide (16 < r.t1) || decide (64 < r.nsets) || decide (bitsOf w 73 7 ≠ 0) || decide (bitsOf w 103 9 ≠ 0)
      || decide (bitsOf w 150 42 ≠ 0) || decide (bitsOf w 256 256 ≠ 0), rejectS .badChain),
    (sets.any (fun u => (opSetOf (unitBits k.scratch u)).ws), rejectS .badChain),
    (decide (r.t1 = 0) || decide (r.p1n = 0) || decide (r.nkb = 0) || decide (r.nsets = 0), rejectS .zeroExtent),
    (sBand && !hdrPair k.scratch (r.band * 64), faultS .pairMismatch),
    (sBand && !hdrValid k.scratch (r.band * 64), rejectS .badHeader),
    (sBand && decide (band.h.form ≠ 0), rejectS .outForm),
    (sBand && band.h.modular, rejectS .oclassMismatch),
    (decide (shapeM r.sh1 ≠ shapeM r.sh2) || (sBand && sB2 && decide (r.w % chunk2 k.scratch r r.ops2 ≠ 0))
      || (run && (decide (r.t1 ≠ 1) || decide (r.n1 < r.lastn))), rejectS .chainShape),
    (sBand && decide (2 ^ 20 < (band.parts.map (·.2)).foldl (· + ·) 0), rejectS .bandSize),
    (run && (decide (r.eop2 ≠ 0) || decide (r.red2 ≠ 0) || (!r.rinit && decide ((k.bank q).st ≠ .open))), rejectS .accState),
    (sBand && (spansMeet band.parts rsSpan || spansMeet band.parts (sets.map (fun u => (u * 64, 64)))), rejectS .overlap) ]

/-- The first check that fails. -/
def chainChecks (k : Core) (unit : Nat) (run : Bool) (bank : Fin 2) : Option Stop := firstStop (chainRows k unit run bank true true)

/-! ### Products and row functions (R116, R147 to R151) -/

/-- The columns of a row's K-blocks that product 2's chunk `c2` takes from the band (R147). -/
def bandBlocks (band : Opnd) (c2 kc : Nat) : List (List KB) :=
  band.allBlocks.map (fun row => (row.drop (c2 * (kc / 16))).take (kc / 16))

/-- The plain row function over bank P (R148): lanes and their exponent. -/
def plainFn (tb : Option LTable) (rfn imul : Nat) (b : Bank) : List (List Int) × Int × Nat :=
  let l := loadBank b
  if rfn = 0 then (l.rows, l.r, 0) else laneFn tb (if rfn = 1 then 0 else 4) imul l

/-- What a chain finds wrong with its band's header when it reads it again (R39, R40). -/
def bandStop (mem : Memory) (r : ChainRec) : Option Stop :=
  firstStop [ (!hdrPair mem (r.band * 64), faultS .pairMismatch), (!hdrValid mem (r.band * 64), rejectS .badHeader) ]

/-- Write band columns from `col` on (R129), the band's header checked as it is read. At SCALE_RANGE no column of this write has
been written (log 18). -/
def wrBand (mem : Memory) (r : ChainRec) (col : Nat) (rows : List (List Int)) (x : Int) : Except Stop (Memory × Nat) :=
  match bandStop mem r with
  | some st => .error st
  | none =>
    let band := bandOpnd mem r
    match rows.mapM (fun row => (runsOf 32 2048 row).mapM (requant band.h x)) with
    | none => .error (faultS .scaleRange)
    | some qs => .ok (wrTile mem band.base band.h band.rstr 0 col qs, (qs.flatMap (fun g => g.map (·.sat))).foldl (· + ·) 0)

/-- Steps 2 to 5 of R149 for one key block: the inputs u, the new maxima, the shifts and the weights. -/
structure Running where
  m : List Int
  d : List Int
  p : List (List Int)
  deriving DecidableEq, Repr

/-- The running maximum, its shift and the weights of a key block (R149, steps 2 and 4). `valid` columns take part. -/
def runningStep (b : Bank) (imul valid : Nat) (m : List Int) : Running :=
  let us := (loadBank b).rows.map (fun row => row.map (fun v => laneIn v b.x imul))
  let new := List.zipWith (fun (row : List Int) (old : Int) =>
    let bi := (row.take valid).foldl max (row.headD 0)
    max old (-((-bi) / 65536))) us m
  { m := new, d := List.zipWith (fun n o => min (n - o) 32) new m,
    p := List.zipWith (fun (row : List Int) (mi : Int) =>
      (List.range row.length).map (fun j => if j < valid then laneExp2 (row.getD j 0 - 65536 * mi) else 0)) us new }

/-- The stored band values of a row, aligned to exponent −24 and summed (R149, step 5). -/
def bandSum (band : Opnd) (i : Nat) : Int :=
  ((List.range band.cols).map (fun j => rq (band.elem i j * band.h.mult) (15 - 24 - band.exp i j))).foldl (· + ·) 0

/-- Counters with their amounts, and whether a counter has 32 bits. -/
abbrev Ctrs := List (Nat × Nat × Bool)

/-- How a chain goes on: it stalls at a slot, stops, takes its next place, or has ended (`out` is the bank in its output
stage, `ws` the slots it writes beside those taken as it started). -/
inductive ChainOut
  | stall (k : Core) (ch : Chain) (ring slot : Nat)
  | stop (k : Core) (st : Stop) (ctrs : Ctrs)
  | next (k : Core) (ch : Chain) (ctrs : Ctrs)
  | ended (k : Core) (ch : Chain) (out : Option (Fin 2)) (ws : List (Nat × Nat)) (ctrs : Ctrs)

/-- A chain held up at a slot. -/
def SlotHold.chain (k : Core) (ch : Chain) : SlotHold → ChainOut
  | .stop st => .stop k st []
  | .stall r sl => .stall k ch r sl

/-- An operand-set record with PLOAD clear (R147). -/
def noPload (w : Nat) : Nat := if bitOf w 249 then w - 2 ^ 249 else w

/-- One chunk of a product: its operand set's unit and bits, how it acts, its operands, and whether it writes the output. -/
structure Chunk1 where
  unit : Nat
  w : Nat
  t : Tmul
  a : Opnd
  b : Opnd
  ownA : Bool
  withOut : Bool
  deriving DecidableEq, Repr

/-- The fields of a chunk's operand set. WS is refused in a chain (R152). -/
def Chunk1.o (x : Chunk1) : OpSet := { opSetOf x.w with ws := false }

/-- R121 on a chunk's operand set, but row 12: XACC is checked of every set. -/
def Chunk1.stop (k : Core) (x : Chunk1) : Option Stop :=
  (setChecks k x.w x.t x.unit x.a x.b x.ownA x.withOut (fun _ => true)).orElse (fun _ =>
    if x.o.xacc < -1024 ∨ 1023 < x.o.xacc then some (rejectS .scaleRange) else none)

/-- The headers that a chunk reads: B's, A's where A is its own, and E's and the image's base. -/
def Chunk1.reads (x : Chunk1) : List Nat :=
  if opSetPair x.w = false then [] else
    (((if x.ownA then [x.o.aBase] else []) ++ [x.o.bBase] ++ (if x.withOut && decide (x.t.eopNow ≠ 0) then [x.o.eBase] else [])
      ++ (if x.t.ploadNow x.o then [x.o.pBase] else [])).map (· * 64))

/-- The inputs of a chunk that may lie in a ring (R165): A where it is its own, B, E and the image. -/
def Chunk1.inputs (k : Core) (x : Chunk1) : List Span :=
  (if x.ownA then [x.a.parts] else []) ++ [x.b.parts]
    ++ (if x.withOut && decide (x.t.eopNow ≠ 0) then [(opndE k x.o x.t.shape).parts] else [])
    ++ (if x.t.ploadNow x.o then [imageSpan x.o.pBase] else [])

/-- The rows of several chunks side by side: their K-blocks follow one another along the reduction. -/
def sideBySide (l : List (List (List KB))) : List (List KB) :=
  match l with
  | [] => []
  | x :: xs => xs.foldl (fun a b => List.zipWith (· ++ ·) a b) x

/-- The counters of several chunks, run `n` times. -/
def chunkCtrs (l : List (Chunk1 × List (List KB) × List (List KB))) (n : Nat) : Ctrs :=
  l.flatMap (fun x => productCtrs (slotCap (rateClass x.1.a.h.etype x.1.b.h.etype)) x.2.1 x.2.2 n)

/-- Run one replay unit of a chain, the chunks of a product over one bank (R116): one entry image, one replay count. The
sums of R100 over all of its chunks are taken at one exponent. -/
def chainProduct (k : Core) (bank : Fin 2) (l : List (Chunk1 × List (List KB) × List (List KB)))
    (post : List Int → Int → Option (Option (List Int × List Int))) : RunOut (Option (List Int × List Int)) :=
  match l with
  | [] => .fail .overflowUnresolved 0
  | x :: _ =>
    let en := tmulEntry k 0 x.1.o { x.1.t with bank := bank }
    guarded (sideBySide (l.map (fun y => y.2.1))) (sideBySide (l.map (fun y => y.2.2))) post 3 0 en.1 en.2

/-- Chunk `c` of product 1 for tile `tile` (R147): START at chunk 0, which always clears, and CONT after it. -/
def firstChunk (k : Core) (r : ChainRec) (p : Fin 2) (kb tile c : Nat) : Chunk1 :=
  let unit := r.set1 kb tile c
  let w := noPload (unitBits k.scratch unit)
  let o := { opSetOf w with ws := false }
  { unit := unit, w := w, a := opndA k o r.sh1, b := opndB k o r.sh1, ownA := true, withOut := false,
    t := { shape := r.sh1, acc := if c = 0 then .start else .cont, bank := p, eop := 0, red := 0, mod := false } }

/-- The running row function over bank P (R149, steps 2 to 5). -/
def runningFn (k : Core) (r : ChainRec) (p q : Fin 2) (bk : Bank) (ch : Chain) (cs : Ctrs) : ChainOut :=
  let valid := if ch.kb + 1 = r.nkb ∧ r.lastn ≠ 0 then r.lastn else r.n1
  let y := runningStep bk r.imul valid ch.m
  let bq := k.bank q
  let opn := decide (bq.st = .open)
  let bq' := if opn then { bq with acc := (List.range bq.acc.length).map (fun i =>
    rq (bq.acc.getD i 0) (y.d.getD (i / shapeN bq.shape) 0)) } else bq
  let l1 := if opn then List.zipWith rq ch.l y.d else ch.l
  match wrBand k.scratch r 0 y.p (-30) with
  | .error st => .stop k st cs
  | .ok (mem, sat) =>
    let band := bandOpnd mem r
    let l2 := (List.range l1.length).map (fun i => l1.getD i 0 + bandSum band i)
    .next ((({ k with scratch := mem }).setBank q bq').setBank p Bank.reset) { ch with m := y.m, l := l2 }
      (cs ++ [(0xE4, sat, true)])

/-- The plain row function over bank P for tile `tile` (R148, step 2). -/
def plainTile (k : Core) (r : ChainRec) (p : Fin 2) (bk : Bank) (tile : Nat) (ch : Chain) (cs : Ctrs) : ChainOut :=
  let y := plainFn k.table r.rfn r.imul bk
  match wrBand k.scratch r (tile * r.n1) y.1 y.2.1 with
  | .error st => .stop k st cs
  | .ok (mem, sat) =>
    .next (({ k with scratch := mem }).setBank p Bank.reset) ch (cs ++ [(0xD8, y.2.2, true), (0xE4, sat, true)])

/-- The tiles of product 1, each a replay unit that its row function follows (R116, R148, R149; log 78). The slots `rs` that the
product reads are given back as its last tile has been read (R167). -/
def chainTiles (r : ChainRec) (run : Bool) (p q : Fin 2) (rs : List (Nat × Nat)) : List Nat → Core → Chain → Ctrs → ChainOut
  | [], k, ch, cs => .next k ch cs
  | tile :: rest, k, ch, cs =>
    let l := (List.range r.p1n).map (firstChunk k r p ch.kb tile)
    match l.findSome? (fun x => walkErr x.a x.b) with
    | some c => .stop k (faultS c) cs
    | none =>
      let ps := l.map (fun x => (x, x.a.allBlocks, x.b.allBlocks))
      match chainProduct k p ps (fun _ _ => some none) with
      | .fail c n => .stop k (faultS c) (cs ++ chunkCtrs ps (n + 1) ++ [(0xD0, n, true)])
      | .done acc x n _ =>
        let cs1 := cs ++ chunkCtrs ps (n + 1) ++ [(0xD0, n, true)]
        let bk : Bank := { st := .open, shape := r.sh1, mod := false, x := x, acc := acc }
        let k0 := if rest.isEmpty then { k with rings := slotsEnd k.rings rs [] } else k
        match (if run then runningFn k0 r p q bk ch cs1 else plainTile k0 r p bk tile ch cs1) with
        | .next k1 ch1 cs2 => chainTiles r run p q rs rest k1 ch1 cs2
        | out => out

/-- Product 1 of a band or key block: its operand sets are checked and its slots taken as it starts (R152, R167), and its tiles
run in order. -/
def chainFirst (k : Core) (r : ChainRec) (run : Bool) (p q : Fin 2) (ch : Chain) : ChainOut :=
  let l := (List.range r.t1).flatMap (fun t => (List.range r.p1n).map (firstChunk k r p ch.kb t))
  match slotsWait 1 k.rings (l.flatMap Chunk1.reads) with
  | some h => h.chain k ch
  | none =>
  match l.findSome? (Chunk1.stop k) with
  | some st => .stop k st []
  | none =>
  match ringsOf 1 false k.rings (l.flatMap (Chunk1.inputs k)) with
  | .error st => .stop k st []
  | .ok rs =>
  match slotBlocked k.rings rs [] with
  | some x => .stall k ch x.1 x.2
  | none =>
  match chainTiles r run p q rs (List.range r.t1) { k with rings := slotsStart k.rings rs [] } ch [] with
  | .next k1 ch1 cs => .next k1 { ch1 with second := true } cs
  | out => out

/-- m and ℓ written back to RS as a running chain ends (R150). -/
def wrRunning (mem : Memory) (r : ChainRec) (ch : Chain) : Memory :=
  wrScalars mem r.rs (ch.l.map (fun v => { s := v, e := -24, idx := 0 }) ++ ch.m.map (fun v => { s := v, e := 0, idx := 0 }))

/-- Chunk `c` of product 2 (R147, R148, R149): its A is the band. Only the chain's first set supplies PLOAD, and only its last,
in plain mode, the output. -/
def secondChunk (k : Core) (r : ChainRec) (run : Bool) (q : Fin 2) (kb chunks : Nat) (begins : Bool) (c : Nat) : Chunk1 :=
  let unit := r.set2 kb c chunks
  let w0 := unitBits k.scratch unit
  let w := if begins && decide (kb = 0) && decide (c = 0) then w0 else noPload w0
  let o := { opSetOf w with ws := false }
  let band := bandOpnd k.scratch r
  let ends := !run && decide (c + 1 = chunks) && decide (kb + 1 = r.nkb)
  { unit := unit, w := w, a := band, ownA := false, withOut := ends,
    b := { opndB k o r.sh2 with cols := chunkK (rateClass band.h.etype (hdrOf (hdrWord k.scratch (o.bBase * 64))).etype) },
    t := { shape := r.sh2, bank := q, eop := r.eop2, red := r.red2, mod := false,
           acc := if begins && decide (c = 0) then (if ends then .only else .start) else if ends then .last else .cont } }

/-- Row 12 of R121 for product 2 (R96, R97): CONT on a bank that is not OPEN with its shape and class, or an image of another. -/
def secondState (k : Core) (r : ChainRec) (q : Fin 2) (begins : Bool) (x : Chunk1) : Bool :=
  let bq := k.bank q
  (!begins && (decide (bq.st ≠ .open) || decide (bq.shape ≠ r.sh2) || bq.mod))
    || (x.t.ploadNow x.o && (decide (imageShape k.scratch x.o.pBase ≠ r.sh2) || imageMod k.scratch x.o.pBase))

/-- What a product 2 writes in scratch with its output stage (R117, R118). -/
def Chunk1.outs (k : Core) (x : Chunk1) : List Span :=
  if x.withOut = false then [] else
    (if x.o.ronly && decide (x.t.redNow ≠ 0) then [] else [(x.o.oBase * 64, 64) :: outSpan k x.o x.t.shape])
      ++ (if x.t.redNow ≠ 0 then [entrySpan x.o x.t.shape] else [])

/-- Product 2 of a band or key block, one replay unit over all of its chunks (R116); the last one of a plain chain runs the final
output stage (R148, R149). `taken` are the slots that the chain writes and took as it started. -/
def chainSecond (k : Core) (r : ChainRec) (run : Bool) (q : Fin 2) (taken : List (Nat × Nat)) (ch : Chain) : ChainOut :=
  let chunks := chunks2 k.scratch r
  let begins := if run then decide ((k.bank q).st = .empty) else decide (ch.kb = 0)
  let l := (List.range chunks).map (secondChunk k r run q ch.kb chunks begins)
  match bandStop k.scratch r with
  | some st => .stop k st []
  | none =>
  match slotsWait 1 k.rings (l.flatMap Chunk1.reads) with
  | some h => h.chain k ch
  | none =>
  match l.findSome? (fun x => setChecks k x.w x.t x.unit x.a x.b x.ownA x.withOut (fun _ => true)) with
  | some st => .stop k st []
  | none =>
  if chunks = 0 ∨ l.any (fun x => decide (x.b.cols * chunks ≠ r.w)) then .stop k (rejectS .chainShape) [] else
  if (l.take 1).any (secondState k r q begins) then .stop k (rejectS .accState) [] else
  match l.findSome? (Chunk1.stop k) with
  | some st => .stop k st []
  | none =>
  match ringsOf 1 false k.rings (l.flatMap (Chunk1.inputs k)), ringsOf 1 true k.rings (l.flatMap (Chunk1.outs k)) with
  | .error st, _ => .stop k st []
  | _, .error st => .stop k st []
  | .ok rs, .ok ws0 =>
  let ws := ws0.filter (fun x => !taken.contains x)
  match slotBlocked k.rings rs ws with
  | some x => .stall k ch x.1 x.2
  | none =>
  let k0 := { k with rings := slotsStart k.rings rs ws }
  match l.findSome? (fun x => (firstErr x.b.errs).map (·.2.2)) with
  | some c => .stop k0 (faultS c) []
  | none =>
  let ps := (List.range chunks).zipWith (fun c x => (x, bandBlocks x.a c x.b.cols, x.b.allBlocks)) l
  let o := (l.getLast?.map Chunk1.o).getD (opSetOf 0)
  let ends := !run && decide (ch.kb + 1 = r.nkb)
  let post (acc : List Int) (x : Int) : Option (Option (List Int × List Int)) :=
    if ends then (outFirst false r.eop2 r.red2 o (opndE k o r.sh2) (shapeN r.sh2) acc x).map some else some none
  match chainProduct k q ps post with
  | .fail c n => .stop k0 (faultS c) (chunkCtrs ps (n + 1) ++ [(0xD0, n, true)])
  | .done acc x n res =>
    let cs := chunkCtrs ps (n + 1) ++ [(0xD0, n, true)]
    let bk : Bank := { st := .open, shape := r.sh2, mod := false, x := x, acc := acc }
    let k1 := { k0 with rings := slotsEnd k0.rings rs [] }
    match res with
    | some (accE, sc) =>
      match outSecond k.scratch false r.red2 o (outHdr k o) (shapeN r.sh2) x accE sc with
      | none => .stop k1 (faultS .scaleRange) cs
      | some (m, sat) => .ended (({ k1 with scratch := m }).setBank q { bk with st := .output, acc := accE }) ch (some q) ws
          (cs ++ [(0xE4, sat, true)])
    | none =>
      let k2 := k1.setBank q bk
      if ch.kb + 1 < r.nkb then .next k2 { ch with kb := ch.kb + 1, second := false } cs
      else .ended { k2 with scratch := wrRunning k2.scratch r ch } ch none ws cs

/-- Take the chain's products one after another until it stalls, stops or ends. -/
def chainGo (r : ChainRec) (run : Bool) (p q : Fin 2) (taken : List (Nat × Nat)) : Nat → Core → Chain → Ctrs → ChainOut × Ctrs
  | 0, k, ch, cs => (.next k ch [], cs)
  | n + 1, k, ch, cs =>
    match (if ch.second then chainSecond k r run q taken ch else chainFirst k r run p q ch) with
    | .next k' ch' c' => chainGo r run p q taken n k' ch' (cs ++ c')
    | .stall k' ch' a b => (.stall k' ch' a b, cs)
    | .stop k' st c' => (.stop k' st [], cs ++ c')
    | .ended k' ch' o ws c' => (.ended k' ch' o ws [], cs ++ c')

/-! ### The slots of the chain itself (R165, R167) -/

/-- What a chain writes as a command, as it starts: the final output of a plain chain, by its last operand set, and RS of a
running one. A set or header whose halves disagree names nothing yet: it stops its product. -/
def chainOuts (k : Core) (r : ChainRec) (run : Bool) (q : Fin 2) : List Span :=
  if run then [[(r.rs * 64, 32 * r.m)]] else
    let chunks := chunks2 k.scratch r
    let x := secondChunk k r run q (r.nkb - 1) chunks (decide (r.nkb = 1)) (chunks - 1)
    if opSetPair x.w && hdrPair k.scratch (x.o.oBase * 64) then x.outs k else []

/-- The slots that a chain takes as it starts. The band, and RS where the chain begins from it, are read and written, so that they
break R165 in a ring of the engine. -/
def chainSlots (k : Core) (r : ChainRec) (run : Bool) (q : Fin 2) : Except Stop (List (Nat × Nat)) :=
  let band := (bandOpnd k.scratch r).parts
  let old : List Span := if run && !r.rinit then [[(r.rs * 64, 32 * r.m)]] else []
  match ringsOf 1 true k.rings (band :: chainOuts k r run q), ringsOf 1 false k.rings (band :: old) with
  | .error st, _ => .error st
  | _, .error st => .error st
  | .ok ws, .ok _ => .ok ws

/-- The slot of product 2's first B, whose element type the acceptance of R152 reads, where it may not be read yet. -/
def chainEarly (k : Core) (unit : Nat) : Option SlotHold :=
  let w := unitBits k.scratch unit
  let o := unitBits k.scratch (chainRecOf w).ops2
  if compl 64 (bitsOf w 0 64) (bitsOf w 192 64) && opSetPair o then slotWait 1 k.rings ((opSetOf o).bBase * 64) else none

end Sys2Proof.Machine
end

