-- ==== Sys2Proof/Machine/Encode.lean ====
section
/-! DEFINITION. Command words from the fields of a command (R66 to R80), for the records of R87 and R485. -/

namespace Sys2Proof.Machine

/-- Put a field of value `v` at bit `lo`. -/
def at_ (v lo : Nat) : Nat := v * 2 ^ lo

/-- A word of a sequencer class. -/
def seqWord (cls op rest : Nat) : CmdWord := BitVec.ofNat 128 (cls + at_ op 4 + rest)

/-- Bits [31:8] of an engine command word (R66). -/
def commonBits (k : Common) : Nat :=
  at_ (b2n k.wen) 8 + at_ k.wsem 9 + at_ (b2n k.sen) 15 + at_ k.ssem 16 + at_ (b2n k.xen) 22 + at_ k.xreg 23 + at_ k.xsh 27

/-- A word of an engine class. -/
def engWord (cls op : Nat) (k : Common) (rest : Nat) : CmdWord :=
  BitVec.ofNat 128 (cls + at_ op 4 + commonBits k + rest)

/-- Scalar words (R69): D, A and B at bits 32, 36 and 40. -/
def scalarWord (op d a b rest : Nat) : CmdWord := seqWord 0 op (at_ d 32 + at_ a 36 + at_ b 40 + rest)

/-- LOOP (R71). -/
def loopWord (count : BitVec 16) (creg : Reg) (csrc : Bool) (ireg : Reg) (ien : Bool) (last : Fin 2048) : CmdWord :=
  seqWord 1 0 (at_ count.toNat 32 + at_ creg 48 + at_ (b2n csrc) 52 + at_ ireg 53 + at_ (b2n ien) 57 + at_ last 64)

/-- JMP, BRZ, BRNZ and BRLT (R71): A and B at bits 32 and 36, TARGET at bit 64. -/
def branchWord (op a b target : Nat) : CmdWord := seqWord 1 op (at_ a 32 + at_ b 36 + at_ target 64)

/-- SEMWAIT, SEMSIG and SEMSET (R75). -/
def semWord (op sem : Nat) (n : BitVec 16) : CmdWord := seqWord 2 op (at_ sem 32 + at_ n.toNat 48)

/-- TMUL (R76). -/
def tmulWord (k : Common) (opset : BitVec 16) (shape acc : Fin 8) (bank : Fin 2) (eop red : Fin 4) (mod : Bool) : CmdWord :=
  engWord 3 0 k (at_ opset.toNat 32 + at_ shape 48 + at_ acc 51 + at_ bank 54 + at_ eop 55 + at_ red 57 + at_ (b2n mod) 59)

/-- FCHAIN (R76). -/
def fchainWord (k : Common) (chain : BitVec 16) (run : Bool) (bank : Fin 2) : CmdWord :=
  engWord 3 1 k (at_ chain.toNat 32 + at_ (b2n run) 48 + at_ bank 49)

/-- ACCRD (R76). -/
def accrdWord (k : Common) (dst : BitVec 16) (bank : Fin 2) : CmdWord :=
  engWord 3 2 k (at_ dst.toNat 32 + at_ bank 48)

/-- A row command (R77). -/
def rowWord (op : Nat) (k : Common) (f : RowFields) : CmdWord :=
  engWord 4 op k (at_ f.src.toNat 32 + at_ f.dst.toNat 48 + at_ f.param.toNat 64 + at_ f.sub.toNat 80 + at_ f.bank 88)

/-- A stream command (R78). -/
def streamWord (op : Nat) (k : Common) (desc list : BitVec 16) : CmdWord :=
  engWord 5 op k (at_ desc.toNat 32 + at_ list.toNat 48)

/-- A vault command (R79). -/
def vaultWord (op : Nat) (k : Common) (desc : BitVec 16) (dreg : Reg) (den : Bool) : CmdWord :=
  engWord 6 op k (at_ desc.toNat 32 + at_ dreg 48 + at_ (b2n den) 52)

/-- SEND (R80). -/
def sendWord (k : Common) (dest : BitVec 13) (dq : Fin 8) (src : BitVec 16) (len : BitVec 13) (tag : BitVec 16) : CmdWord :=
  engWord 7 0 k (at_ dest.toNat 32 + at_ dq 45 + at_ src.toNat 48 + at_ len.toNat 64 + at_ tag.toNat 80)

/-- RECV (R80). -/
def recvWord (k : Common) (q : Fin 8) (blk : Bool) (dsts : BitVec 16) (maxlen : BitVec 13) (lreg : Reg) (lenEn : Bool) :
    CmdWord :=
  engWord 7 1 k (at_ q 32 + at_ (b2n blk) 35 + at_ dsts.toNat 48 + at_ maxlen.toNat 64 + at_ lreg 80 + at_ (b2n lenEn) 84)

/-- CREDIT (R80). -/
def creditWord (k : Common) (q : Fin 8) (n : BitVec 16) : CmdWord := engWord 7 2 k (at_ q 32 + at_ n.toNat 48)

end Sys2Proof.Machine
end

