-- ==== Sys2Proof/Machine/Static.lean ====
section
/-! DEFINITION. The static checks of one command word (R66 to R80, R96, R131), made by the loader and repeated at issue. -/

namespace Sys2Proof.Machine

/-- The bits that a field of `n` bits at bit `lo` takes. -/
def fieldMask (lo n : Nat) : Nat := (2 ^ n - 1) * 2 ^ lo

/-- Is every set bit of `w` inside the listed fields (R66)? -/
def onlyFields (w : Nat) (fs : List (Nat × Nat)) : Bool :=
  let m := fs.foldl (fun m f => m ||| fieldMask f.1 f.2) 0
  decide (w &&& m = w)

/-- A static scratch field above 48,127 without XEN (R68). -/
def badUnit (w lo : Nat) : Bool := decide (Config.topUnit ≤ bitsOf w lo 16)

/-- The first failing check of a list. -/
def firstCode : List (Bool × Code) → Option Code
  | [] => none
  | (b, c) :: l => if b then some c else firstCode l

/-- Fields of the scalar operations (R69). -/
def scalarFields (op : Nat) : List (Nat × Nat) :=
  if op = 0 then [(32, 4), (64, 64)] else if op = 1 then [(32, 8), (64, 32)]
  else if op ≤ 3 then [(32, 12)] else if op ≤ 5 then [(32, 8), (64, 6)]
  else if op ≤ 7 then [(32, 8), (64, 32)] else [(32, 4), (64, 4)]

/-- Fields of the flow operations (R71). -/
def flowFields (op : Nat) : List (Nat × Nat) :=
  if op = 0 then [(32, 16), (48, 4), (52, 1), (53, 4), (57, 1), (64, 11)]
  else if op = 2 then [(64, 11)] else if op = 3 ∨ op = 4 then [(32, 4), (64, 11)]
  else if op = 5 then [(32, 8), (64, 11)] else if op = 7 then [(32, 16)] else []

/-- Fields of the synchronisation operations (R75). -/
def syncFields (op : Nat) : List (Nat × Nat) :=
  if op ≤ 2 then [(32, 6), (48, 16)] else if op = 3 then [(32, 5)] else [(32, 3)]

/-- The row class (R77, R127, R131). -/
def rowStatic (w op : Nat) (xen : Bool) : Option Code :=
  let src := bitsOf w 32 16
  let dst := bitsOf w 48 16
  let param := bitsOf w 64 16
  let sub := bitsOf w 80 8
  let fn := sub % 8
  let bankSrc := decide (src = 0xFFFF)
  let srcBad := if bankSrc then xen else !xen && badUnit w 32
  let vec := !xen && badUnit w 32 || (xen && bankSrc)
  firstCode
    [ (decide (5 < op) || !onlyFields w [(0, 32), (32, 16), (48, 16), (64, 16), (80, 8), (88, 1)], .badCommand),
      (match op with
        | 0 => if fn = 2 ∨ fn = 3 then vec || badUnit w 48 || decide (256 < param)
               else decide (sub ≠ 0 ∧ sub ≠ 1 ∧ sub ≠ 4) || srcBad || badUnit w 48
        | 1 => decide (3 < sub) || srcBad || badUnit w 48 || decide (if sub = 3 then 63 < param else param ≠ 0)
        | 2 => decide (7 < sub) || srcBad || badUnit w 48 || (decide (sub = 2) && decide (63 < param))
               || (decide (4 < sub) && decide (Config.topUnit ≤ param))
        | 3 => !bankSrc || xen || decide (dst ≠ 0xFFFF) || decide (sub ≠ 0) || decide (32 < param)
        | 4 => vec || decide (dst ≠ 0) || decide (sub ≠ 0) || decide (param ≠ 0)
        | _ => srcBad || badUnit w 48 || decide (sub ≠ 0), .badCommand),
      (decide (op = 0) && decide (fn = 2 ∨ fn = 3) && decide (param = 0), .zeroExtent),
      (decide (op = 5) && decide (param = 0), .zeroExtent) ]

/-- Bytes from unit `u` reach unit 48,128 or beyond (R80). -/
def reachTop (u bytes : Nat) : Bool := decide (Config.scratchTop < u * 64 + bytes)

/-- The static checks of a command word: reserved classes, operations, encodings and bits, WEN or SEN in a sequencer
class, XEN without an indexed field, scratch fields, DEN, and static zeros (R68, R73, R75, R80, R96, R131). In a sequencer-class
word no command waits, signals or is indexed, so WSEM, SSEM, XREG and XSH are taken as reserved there and have to be zero (the model's
choice: log 99). -/
def staticCheck (word : CmdWord) : Option Code :=
  let w := word.toNat
  let op := bitsOf w 4 4
  let xen := bitOf w 22
  match bitsOf w 0 4 with
  | 0 => firstCode [(decide (8 < op) || !onlyFields w ((0, 8) :: scalarFields op), .badCommand),
      (decide (op = 8) && decide (5 < bitsOf w 64 4), .badCommand)]
  | 1 => firstCode [(decide (8 < op) || !onlyFields w ((0, 8) :: flowFields op), .badCommand),
      (decide (op = 0) && !bitOf w 52 && decide (bitsOf w 32 16 = 0), .zeroExtent)]
  | 2 => firstCode [(decide (4 < op) || !onlyFields w ((0, 8) :: syncFields op), .badCommand),
      (decide (op ≤ 1) && decide (bitsOf w 48 16 = 0), .zeroExtent),
      (decide (op = 3) && decide (bitsOf w 32 5 = 0), .zeroExtent)]
  | 3 =>
    let ok := if op = 0 then
        onlyFields w [(0, 32), (32, 28)] && decide (bitsOf w 48 3 ≤ 4) && decide (bitsOf w 51 3 ≤ 4)
          && decide (bitsOf w 55 2 ≤ 2) && decide (bitsOf w 57 2 ≤ 2)
          && (decide (1 < bitsOf w 51 3) || decide (bitsOf w 55 4 = 0))
      else if op = 1 then onlyFields w [(0, 32), (32, 18)]
      else decide (op = 2) && onlyFields w [(0, 32), (32, 17)]
    firstCode [(!ok || (!xen && badUnit w 32), .badCommand)]
  | 4 => rowStatic w op xen
  | 5 => firstCode [(decide (3 < op) || !onlyFields w [(0, 32), (32, 32)] || (!xen && badUnit w 32) || badUnit w 48
      || (decide (op = 0 ∨ op = 3) && decide (bitsOf w 48 16 ≠ 0)), .badCommand)]
  | 6 => firstCode [(decide (10 < op) || !onlyFields w [(0, 32), (32, 21)] || (!xen && badUnit w 32)
      || decide (bitOf w 52 ≠ decide (op = 7 ∨ op = 9)), .badCommand)]
  | 7 =>
    if op = 0 then firstCode
      [(!onlyFields w [(0, 32), (32, 45), (80, 16)] || (!xen && badUnit w 48), .badCommand),
       (decide (4096 < bitsOf w 64 13), .msgLength),
       (!xen && decide (bitsOf w 64 13 ≠ 0) && reachTop (bitsOf w 48 16) (bitsOf w 64 13), .scratchRange)]
    else if op = 1 then firstCode
      [(!onlyFields w [(0, 32), (32, 4), (48, 29), (80, 5)] || (!xen && badUnit w 48), .badCommand),
       (!xen && reachTop (bitsOf w 48 16) (64 + ceilDiv (bitsOf w 64 13) 64 * 64), .scratchRange)]
    else firstCode [(decide (2 < op) || !onlyFields w [(0, 32), (32, 3), (48, 16)] || xen, .badCommand)]
  | _ => some .badCommand

end Sys2Proof.Machine
end

