-- ==== Sys2Proof/Machine/Engines.lean ====
section
/-! DEFINITION. Engine commands: their issue (R62, R66 to R68), their start (R63, R168), their completion (R64). -/

namespace Sys2Proof.Machine

/-! ### Stops -/

/-- A command stops its core (R87): what it did before is kept, a stream whose key pair disagreed ends (R287), and the
record names what R485 asks for. -/
def stopCore (s : State) (c : Nat) (e : Fin 5) (q : QEntry) (st : Stop) : State :=
  let s0 := engineMarks s c e
  let s1 := match st.key with | none => s0 | some slot => keyMismatch s0 (dieBlock (dieOfCore c)) slot
  coreFault s1 c (e.val + 1) st.kind st.code q.pos q.word (coreDetail q.word q.pos st.ring st.slot 0 st.x56)

/-! ### Fused chains (R145 to R152) -/

/-- The record of a chain in progress. -/
def chainAt (k : Core) (unit : Nat) : ChainRec := chainRecOf (unitBits k.scratch unit)

/-- More products than a chain has: two for each band or key block. -/
def chainFuel (r : ChainRec) : Nat := 2 * r.nkb + 1

/-- Take a chain's products from where it stands. It stalls, stops, or ends: in its output stage, or in running mode with
bank Q OPEN. A stall at another product than the one it last stalled at is a stall of its own (R168). -/
def chainRun (s : State) (c : Nat) (k : Core) (fl : InFlight) (ch : Chain) (unit : Nat) (run : Bool) (p : Fin 2) : StartOut :=
  let q : Fin 2 := if p = 0 then 1 else 0
  let r := chainAt k unit
  match chainGo r run p q fl.writes (chainFuel r) k ch [] with
  | (.stall k1 ch1 a b, cs) =>
    let new := decide (fl.entry.stalled = none) || decide (ch1.kb ≠ ch.kb) || decide (ch1.second ≠ ch.second)
    .go (coreBumps (s.setCore c k1) c (cs ++ [(0x60, b2n new, false)]))
      { fl with chain := some ch1, entry := { fl.entry with stalled := some (a, b) } }
  | (.stop k1 st _, cs) => .stop (coreBumps (s.setCore c k1) c cs) st
  | (.next k1 ch1 _, cs) => .go (coreBumps (s.setCore c k1) c cs) { fl with chain := some ch1 }
  | (.ended k1 _ out ws _, cs) =>
    .go (coreBumps (s.setCore c k1) c cs)
      { fl with chain := none, output := out, writes := fl.writes ++ ws, entry := { fl.entry with stalled := none } }

/-- FCHAIN at the head of the queue (R145, R150): it waits for the Row Function Engine and for a bank in its output stage,
and begins at the first product. -/
def startChain (s : State) (c : Nat) (k : Core) (e : QEntry) (unit : Nat) (run : Bool) (p : Fin 2) : StartOut :=
  if decide ((k.queue 1).active ≠ 0) || decide ((k.bank 0).st = .output) || decide ((k.bank 1).st = .output) then .wait else
  match chainEarly k unit with
  | some h => h.out s
  | none =>
  match chainChecks k unit run p with
  | some st => .stop s st
  | none =>
    let q : Fin 2 := if p = 0 then 1 else 0
    let r := chainAt k unit
    match chainSlots k r run q with
    | .error st => .stop s st
    | .ok ws =>
    match slotBlocked k.rings [] ws with
    | some x => .stall x.1 x.2
    | none =>
    let rows := List.range r.m
    let old (f : Nat) : List Int := rows.map (fun i => (rdScalar k.scratch r.rs (f + i)).s)
    let ch : Chain := { kb := 0, second := false,
                        m := if r.rinit then rows.map (fun _ => -32768) else old r.m,
                        l := if r.rinit then rows.map (fun _ => 0) else old 0 }
    let k1 := if run && r.rinit then k.setBank q Bank.reset else k
    chainRun s c { k1 with bhold := none, rings := slotsStart k.rings [] ws } (inFlight e [] ws) ch unit run p

/-! ### Starts (R63, R168) -/

/-- The command at the head of an engine's queue, whose wait has been granted, tries to start. -/
def startEntry (s : State) (c : Nat) (k : Core) (e : QEntry) : StartOut :=
  match e.op with
  | .tmul opset shape acc bank eop red mod =>
    startTmul s c k e opset { shape := shape, acc := acc, bank := bank, eop := eop, red := red, mod := mod }
  | .fchain unit run bank => startChain s c k e unit run bank
  | .accrd dst bank => startAccrd s c k e dst bank
  | .row op src bankSrc f => startRow s c k e op src bankSrc f
  | .stream op desc list => startStream s c k e op desc list
  | .vault op desc dreg => startVault s c k e op desc dreg
  | .send _ _ _ _ _ => startMessage s c k e
  | .recv _ _ _ _ _ => startMessage s c k e
  | .credit _ _ => startMessage s c k e

/-- Put a command in progress in place of number `i` of an engine's list. -/
def putProg (s : State) (c : Nat) (e : Fin 5) (i : Nat) (fl : InFlight) : State :=
  let k := s.core c
  s.setCore c (k.setQueue e { k.queue e with prog := (k.queue e).prog.set i fl })

/-- The head of an engine's queue has started: it leaves the queue. -/
def headStarted (s : State) (c : Nat) (e : Fin 5) (fl : InFlight) : State :=
  let k := s.core c
  let q := k.queue e
  engineMarks (s.setCore c (k.setQueue e { issue := q.issue.drop 1, prog := q.prog ++ [fl] })) c e

/-- The head of an engine's queue stalls at a slot; a stall that begins adds one to SP_SLOT_WAIT (R168). -/
def headStalls (s : State) (c : Nat) (e : Fin 5) (ring slot : Nat) : State :=
  let k := s.core c
  match (k.queue e).issue with
  | [] => s
  | h :: t =>
    let s1 := engineMarks (s.setCore c (k.setQueue e { k.queue e with issue := { h with stalled := some (ring, slot) } :: t })) c e
    if h.stalled = none then s1.bump (coreCtr c 0x60) 1 else s1

/-- An unfinished chain goes on where it stands. -/
def chainMore (s : State) (c : Nat) (k : Core) (i : Nat) (fl : InFlight) (ch : Chain) : State :=
  match fl.entry.op with
  | .fchain unit run p =>
    match chainRun s c k fl ch unit run p with
    | .go s1 fl1 => putProg s1 c 0 i fl1
    | .stop s1 st => stopCore s1 c 0 fl.entry st
    | _ => s
  | _ => s

/-- The unfinished chain of a core: its number in the Matrix Engine's list, its command and its place. -/
def chainOpen (k : Core) : Option (Nat × InFlight × Chain) :=
  (List.range (k.queue 0).prog.length).findSome? (fun i =>
    match (k.queue 0).prog[i]? with
    | none => none
    | some fl => fl.chain.map (fun ch => (i, fl, ch)))

/-- Engine `e + 1` of a RUNNING core starts the head of its queue, if it may (R61, R63, R168). An unfinished chain goes on
first. -/
def tryStart (s : State) (c : Nat) (e : Fin 5) : State :=
  let k0 := s.core c
  if k0.st ≠ .running ∨ k0.cancelling = true then s else
  match (if e = 0 then chainOpen k0 else none) with
  | some (i, fl, ch) => chainMore s c k0 i fl ch
  | none =>
    let k := k0.grantEngines
    let s1 := s.setCore c k
    match (k.queue e).issue with
    | [] => s1
    | h :: _ =>
      if (h.wait.isSome && !h.granted) || !k.room e then s1 else
      match startEntry s1 c k { h with stalled := none } with
      | .wait => s1
      | .stall r sl => headStalls s1 c e r sl
      | .stop s2 st => stopCore s2 c e h st
      | .go s2 fl => headStarted s2 c e fl

/-! ### Issue (R62, R67, R81) -/

/-- The indexed field as formed (R67); the sum is taken over the integers (log 17). -/
def formed (k : Core) (kc : Common) (fld : Nat) : Nat :=
  if kc.xen then fld + (k.reg kc.xreg).toNat * 2 ^ kc.xsh.val else fld

/-- Issue an engine command: the registers it reads or names are not pending, its word passes the static checks (R68), its
queue has a place (R62), and its indexed field fits (R67). A result register becomes pending (R81). The engine then
starts it if it may. -/
def issueEng (c : Nat) (e : Fin 5) (kc : Common) (word : CmdWord) (fld : Nat) (dest : Option Reg) (mk : Core → Nat → EngineOp)
    (s : State) : Host.Outcome State Fault Refusal :=
  seqTake c ((if kc.xen then [kc.xreg] else []) ++ dest.toList) s (fun k =>
    match staticCheck word with
    | some code => cmdFault (s.setCore c k) c 0 .rejected code k.pos word
    | none =>
      if 16 ≤ (k.queue e).issue.length then s.setCore c { k with wait := .queue e }
      else if kc.xen && decide (Config.topUnit ≤ formed k kc fld) then
        cmdFault (s.setCore c k) c 0 .rejected .indexRange k.pos word
      else
        let q : QEntry := { word := word, pos := k.pos, wait := if kc.wen then some kc.wsem else none, granted := false,
                            signal := if kc.sen then some kc.ssem else none, stalled := none, op := mk k (formed k kc fld) }
        let k1 := k.setQueue e { k.queue e with issue := (k.queue e).issue ++ [q] }
        let k2 := { k1 with pend := k1.pend ++ dest.toList.map (fun r => (r, none)) }
        tryStart (seqGoto s c k2 (k2.pos + 1)) c e)

/-! ### Completion (R64) -/

/-- Raise the signals of the commands at the front of an engine's list that have completed, in queue order, and take them
off it (R64). -/
def retire (c : Nat) (e : Fin 5) : Nat → State → State
  | 0, s => s
  | n + 1, s =>
    let k := s.core c
    match (k.queue e).prog with
    | [] => s
    | f :: rest =>
      if f.done = false then s else
      let s1 := s.setCore c (k.setQueue e { k.queue e with prog := rest })
      match f.entry.signal with
      | none => retire c e n s1
      | some i =>
        let s2 := raiseSem s1 c (e.val + 1) i 1 f.entry.pos f.entry.word
        if (s2.core c).st = .stopped then s2 else retire c e n s2

/-- A result word arrives for the register that waits for it (R79, R81). -/
def deliver (k : Core) (r : Option (Reg × W64)) : Core :=
  match r with
  | none => k
  | some (d, v) => { k with pend := k.pend.map (fun p => if p.1 = d then (d, some v) else p) }

/-- A command completes: its slots change (R167), a bank in its output stage becomes EMPTY (R95), a linked index is DONE
(R224), and its result word is delivered. -/
def finishCmd (s : State) (c : Nat) (e : Fin 5) (i : Nat) (fl : InFlight) : State :=
  let k := s.core c
  let k1 := { k with rings := slotsEnd k.rings fl.reads fl.writes }
  let k2 := match fl.output with | none => k1 | some b => k1.setBank b Bank.reset
  let k3 := deliver k2 fl.result
  let k4 := k3.setQueue e { k3.queue e with prog := (k3.queue e).prog.set i { fl with done := true } }
  let s1 := s.setCore c k4
  let s2 := match fl.link with
    | none => s1
    | some a => ctrApplied s1 c (k.pat.getD 0) (s.corePat k) a
  retire c e ((k3.queue e).prog.length + 1) s2

/-- May a command complete: it is in progress, not held, and no unfinished chain? -/
def mayFinish (fl : InFlight) : Bool := !fl.done && !fl.held && fl.chain.isNone

end Sys2Proof.Machine
end

