-- ==== Sys2Proof/Machine/EngineCommands.lean ====
section
/-! DEFINITION. The engine commands of the sequencer's program, and their start and completion (R63, R64, R76 to R80,
R227). -/

namespace Sys2Proof.Machine

/-- How ACC acts (R76): LOOP is settled by the innermost loop as the command is issued. -/
def accOf (k : Core) (acc : Fin 8) : AccAct :=
  match acc.val with
  | 0 => .start
  | 1 => .cont
  | 2 => .last
  | 3 => .only
  | _ =>
    match k.loops with
    | [] => .only
    | e :: _ => if e.count = 1 then .only else if e.iter = 0 then .start else if e.iter + 1 = e.count then .last else .cont

/-- TMUL (R76). -/
def execTmul (c : Nat) (k : Common) (opset : BitVec 16) (shape acc : Fin 8) (bank : Fin 2) (eop red : Fin 4) (mod : Bool)
    (s : State) : Host.Outcome State Fault Refusal :=
  issueEng c 0 k (tmulWord k opset shape acc bank eop red mod) opset.toNat none
    (fun x v => .tmul v shape (accOf x acc) bank eop red mod) s

/-- FCHAIN (R76). -/
def execFchain (c : Nat) (k : Common) (chain : BitVec 16) (run : Bool) (bank : Fin 2) (s : State) :
    Host.Outcome State Fault Refusal :=
  issueEng c 0 k (fchainWord k chain run bank) chain.toNat none (fun _ v => .fchain v run bank) s

/-- ACCRD (R76). -/
def execAccrd (c : Nat) (k : Common) (dst : BitVec 16) (bank : Fin 2) (s : State) : Host.Outcome State Fault Refusal :=
  issueEng c 0 k (accrdWord k dst bank) dst.toNat none (fun _ v => .accrd v bank) s

/-- Issue a row command (R77): SRC 0xFFFF without XEN names the bank (R127). -/
def issueRow (c : Nat) (op : RowOp) (n : Nat) (k : Common) (f : RowFields) (s : State) : Host.Outcome State Fault Refusal :=
  issueEng c 1 k (rowWord n k f) f.src.toNat none (fun _ v => .row op v (!k.xen && decide (f.src = 0xFFFF)) f) s

/-- RFUNC (R77). -/
def execRfunc (c : Nat) (k : Common) (f : RowFields) (s : State) : Host.Outcome State Fault Refusal := issueRow c .rfunc 0 k f s
/-- RRED of the row class (R77). -/
def execRred (c : Nat) (k : Common) (f : RowFields) (s : State) : Host.Outcome State Fault Refusal := issueRow c .rred 1 k f s
/-- RALU (R77). -/
def execRalu (c : Nat) (k : Common) (f : RowFields) (s : State) : Host.Outcome State Fault Refusal := issueRow c .ralu 2 k f s
/-- RRESCALE (R77). -/
def execRrescale (c : Nat) (k : Common) (f : RowFields) (s : State) : Host.Outcome State Fault Refusal :=
  issueRow c .rrescale 3 k f s
/-- RTLOAD (R77). -/
def execRtload (c : Nat) (k : Common) (f : RowFields) (s : State) : Host.Outcome State Fault Refusal := issueRow c .rtload 4 k f s
/-- RQUANT (R77). -/
def execRquant (c : Nat) (k : Common) (f : RowFields) (s : State) : Host.Outcome State Fault Refusal := issueRow c .rquant 5 k f s

/-- Issue a stream command (R78). -/
def issueStream (c : Nat) (op : StreamOp) (n : Nat) (k : Common) (desc list : BitVec 16) (s : State) :
    Host.Outcome State Fault Refusal :=
  issueEng c 2 k (streamWord n k desc list) desc.toNat none (fun _ v => .stream op v list.toNat) s

/-- COPY (R78). -/
def execCopy (c : Nat) (k : Common) (desc list : BitVec 16) (s : State) : Host.Outcome State Fault Refusal :=
  issueStream c .copy 0 k desc list s
/-- GATHER of the stream class (R78). -/
def execStreamGather (c : Nat) (k : Common) (desc list : BitVec 16) (s : State) : Host.Outcome State Fault Refusal :=
  issueStream c .gather 1 k desc list s
/-- SCATTER (R78). -/
def execScatter (c : Nat) (k : Common) (desc list : BitVec 16) (s : State) : Host.Outcome State Fault Refusal :=
  issueStream c .scatter 2 k desc list s
/-- TCOPY (R78). -/
def execTcopy (c : Nat) (k : Common) (desc list : BitVec 16) (s : State) : Host.Outcome State Fault Refusal :=
  issueStream c .tcopy 3 k desc list s

/-- Issue a vault command (R79): with DEN set its result goes to S[DREG]. -/
def issueVault (c : Nat) (op : VaultOp) (n : Nat) (k : Common) (desc : BitVec 16) (dreg : Reg) (den : Bool) (s : State) :
    Host.Outcome State Fault Refusal :=
  let res := if den then some dreg else none
  issueEng c 3 k (vaultWord n k desc dreg den) desc.toNat res (fun _ v => .vault op v res) s

/-- GATHER of the vault class (R79). -/
def execVaultGather (c : Nat) (k : Common) (f : VaultFields) (s : State) : Host.Outcome State Fault Refusal :=
  issueVault c .gather 0 k f.desc f.dreg false s
/-- SCADD (R79). -/
def execScadd (c : Nat) (k : Common) (f : VaultFields) (s : State) : Host.Outcome State Fault Refusal :=
  issueVault c .scadd 1 k f.desc f.dreg false s
/-- MERGE (R79). -/
def execMerge (c : Nat) (k : Common) (f : VaultFields) (s : State) : Host.Outcome State Fault Refusal :=
  issueVault c .merge 2 k f.desc f.dreg false s
/-- TOPK (R79). -/
def execTopk (c : Nat) (k : Common) (f : VaultFields) (s : State) : Host.Outcome State Fault Refusal :=
  issueVault c .topk 3 k f.desc f.dreg false s
/-- RRED of the vault class (R79). -/
def execVaultRred (c : Nat) (k : Common) (f : VaultFields) (s : State) : Host.Outcome State Fault Refusal :=
  issueVault c .rred 4 k f.desc f.dreg false s
/-- FILL (R79). -/
def execFill (c : Nat) (k : Common) (f : VaultFields) (s : State) : Host.Outcome State Fault Refusal :=
  issueVault c .fill 5 k f.desc f.dreg false s
/-- DECOMP (R79). -/
def execDecomp (c : Nat) (k : Common) (f : VaultFields) (s : State) : Host.Outcome State Fault Refusal :=
  issueVault c .decomp 6 k f.desc f.dreg false s
/-- CTRADD (R79). -/
def execCtradd (c : Nat) (k : Common) (desc : BitVec 16) (dreg : Reg) (s : State) : Host.Outcome State Fault Refusal :=
  issueVault c .ctradd 7 k desc dreg true s
/-- CTRSET, whose descriptor names INIT (R79, R214, R222): the variant is the descriptor's SUB when the command starts. -/
def execCtrsetInit (c : Nat) (k : Common) (f : VaultFields) (s : State) : Host.Outcome State Fault Refusal :=
  issueVault c .ctrset 8 k f.desc f.dreg false s
/-- CTRSET, whose descriptor names DONE (R79, R214, R224). -/
def execCtrsetDone (c : Nat) (k : Common) (f : VaultFields) (s : State) : Host.Outcome State Fault Refusal :=
  issueVault c .ctrset 8 k f.desc f.dreg false s
/-- CTRSET, whose descriptor names RELEASE (R79, R214, R222). -/
def execCtrsetRelease (c : Nat) (k : Common) (f : VaultFields) (s : State) : Host.Outcome State Fault Refusal :=
  issueVault c .ctrset 8 k f.desc f.dreg false s
/-- LOCK (R79). -/
def execLock (c : Nat) (k : Common) (desc : BitVec 16) (dreg : Reg) (s : State) : Host.Outcome State Fault Refusal :=
  issueVault c .lock 9 k desc dreg true s
/-- UNLOCK (R79). -/
def execUnlock (c : Nat) (k : Common) (f : VaultFields) (s : State) : Host.Outcome State Fault Refusal :=
  issueVault c .unlock 10 k f.desc f.dreg false s

/-- SEND (R80). -/
def execSend (c : Nat) (k : Common) (dest : BitVec 13) (dq : Fin 8) (src : BitVec 16) (len : BitVec 13) (tag : BitVec 16)
    (s : State) : Host.Outcome State Fault Refusal :=
  issueEng c 4 k (sendWord k dest dq src len tag) src.toNat none (fun _ v => .send dest.toNat dq v len.toNat tag) s

/-- RECV (R80). -/
def execRecv (c : Nat) (k : Common) (q : Fin 8) (blk : Bool) (dsts : BitVec 16) (maxlen : BitVec 13) (lreg : Reg) (lenEn : Bool)
    (s : State) : Host.Outcome State Fault Refusal :=
  issueEng c 4 k (recvWord k q blk dsts maxlen lreg lenEn) dsts.toNat (if lenEn then some lreg else none)
    (fun _ v => .recv q blk v maxlen.toNat (if lenEn then some lreg else none)) s

/-- CREDIT (R80). -/
def execCredit (c : Nat) (k : Common) (q : Fin 8) (n : BitVec 16) (s : State) : Host.Outcome State Fault Refusal :=
  issueEng c 4 k (creditWord k q n) 0 none (fun _ _ => .credit q n.toNat) s

/-- ENGINE_COMMAND_START (R63): an engine starts the head of its issue queue once its wait is granted and its slots are in
state; nothing happens while it may not. -/
def execEngineCommandStart (c : Nat) (e : Fin 5) (s : State) : Host.Outcome State Fault Refusal :=
  onCore s c (fun _ => tryStart s c e)

/-- ENGINE_COMMAND_COMPLETE (R64): command number `i` in progress of an engine completes. -/
def execEngineCommandComplete (c : Nat) (e : Fin 5) (i : Nat) (s : State) : Host.Outcome State Fault Refusal :=
  onCore s c (fun k =>
    match (k.queue e).prog[i]? with
    | none => s
    | some fl => if mayFinish fl && decide (k.st = .running) then finishCmd s c e i fl else s)

/-- The LOCKs of a core that wait for their lock try again, in queue order (R227). -/
def lockTries (c : Nat) : List Nat → State → State
  | [], s => s
  | i :: is, s =>
    let k := s.core c
    match (k.queue 3).prog[i]? with
    | none => lockTries c is s
    | some fl =>
      match fl.held, fl.link, fl.entry.op with
      | true, some a, .vault .lock _ dreg =>
        match lockOut (recVault (s.corePat k) a) fl dreg s a (fl.tries - 1) (lockTry s c (k.pat.getD 0) (s.corePat k) a) with
        | .go s1 fl1 => lockTries c is (putProg s1 c 3 i fl1)
        | .stop s1 st => stopCore s1 c 3 fl.entry st
        | _ => lockTries c is s
      | _, _, _ => lockTries c is s

/-- LOCK_RETRY (R227): every waiting LOCK of the core tries the lock word again, until its retries run out. -/
def execLockRetry (c : Nat) (s : State) : Host.Outcome State Fault Refusal :=
  onCore s c (fun k => if k.st = .running then lockTries c (List.range (k.queue 3).prog.length) s else s)

end Sys2Proof.Machine
end

