-- ==== Sys2Proof/Machine/EventLog.lean ====
section
/-! DEFINITION. The event log, the telemetry ring, the challenge, the host side's reset, and the Lodestar pair (R29, R386 to R389,
R404, R432, R455 to R459, R464, R482 to R484, R493). -/

namespace Sys2Proof.Machine

/-! ### The record's bits (R467, R482) -/

/-- KIND and INDEX of a register block (R467). -/
def blkKind (b : Nat) : Nat := if b = 0 then 1 else if b = 1 then 2 else if b < 4 then 3 else if b < 8 then 4 else 5
def blkIndex (b : Nat) : Nat := if b < 2 then 0 else if b < 4 then b - 2 else if b < 8 then b - 4 else b - 8

/-- The 64 B of a record (R482). LOCAL, a cycle counter's value, is free (log 16). -/
def recBits (r : EventRec) : BitVec 512 :=
  BitVec.ofNat 512 (r.evseq.toNat + codeValue r.code * 2 ^ 32 + kindValue r.kind * 2 ^ 48 + blkKind r.block * 2 ^ 56
    + blkIndex r.block * 2 ^ 64 + min 255 r.lost * 2 ^ 72 + min 65535 r.repeats * 2 ^ 80
    + (Config.cycles r.evseq.toNat).toNat % 2 ^ 48 * 2 ^ 96 + r.core % 2 ^ 13 * 2 ^ 144 + r.engine % 8 * 2 ^ 157
    + r.sid.toNat * 2 ^ 160 + r.stepSeq.toNat * 2 ^ 192 + r.pat % 256 * 2 ^ 224 + r.detail.toNat * 2 ^ 256)

/-! ### The telemetry ring (R456 to R458) -/

/-- Records of the ring; zero while TEL_SIZE is reserved. -/
def HostIf.telN (h : HostIf) : Nat := if 12 ≤ h.telSize ∧ h.telSize ≤ 20 then 2 ^ h.telSize / 64 else 0

/-- Unread records. -/
def HostIf.telUnread (h : HostIf) : Nat := (h.telHead - h.telTail).toNat

/-- A logged record goes to the ring if it is armed and not full, and TEL_THRESH follows (R457). In D3hot and while the link is
down the function sends nothing (R444). -/
def telWrite (s : State) (r : EventRec) : State :=
  let h := s.host
  if h.telEnable = false ∨ h.telN = 0 ∨ h.d3hot = true ∨ h.linkUp = false ∨ h.telN ≤ h.telUnread then s else
  let addr := h.telBaseLo.toNat + h.telBaseHi.toNat * 2 ^ 32 + h.telHead.toNat % h.telN * 64
  let s1 := ({ s with host := { h with telHead := h.telHead + 1 } }).emit (.telRecord addr (recBits r))
  let n := h.telUnread + 1
  if h.telThresh = 0 ∨ n = h.telThresh * 64 ∨ n = h.telN then raiseIrq s1 2 else s1

/-! ### Delivery (R29, R464, R493) -/

/-- The active Lodestar gives a record its EVSEQ and logs it; a fault, rejection or refusal raises FAULT_EVENT. -/
def toLog (s : State) (r : EventRec) : State :=
  let r' := { r with evseq := s.log.evNext }
  let s1 := { s with log := { s.log with log := Sparse.set none s.log.log (s.log.evNext.toNat % 65536) (some r'),
                                         evNext := s.log.evNext + 1 } }
  let s2 := telWrite s1 r'
  if r.kind = .event then s2 else raiseIrq s2 3

/-- A command of a register block, or the fault of a block that does not exist. -/
def onBlock (b : Nat) (s : State) : Host.Outcome State Fault Refusal :=
  if b < 32 then .next s else .fault .noSuchBlock

/-- EVENT_RECORD_ARRIVAL (R29, R483): the oldest record of a block reaches the active Lodestar, with the number lost before
it. -/
def execEventRecordArrival (b : Nat) (s : State) : Host.Outcome State Fault Refusal :=
  onBlock b (
    if s.lode.activeOk = false then s else
    match (s.buf b).recs with
    | [] => s
    | r :: rs => toLog (s.setBuf b { s.buf b with recs := rs, lost := 0 }) { r with lost := min 255 (s.buf b).lost })

/-- FOLD_WINDOW_END (R484): a window with occurrences held makes one record of them and opens the next window; one without is
closed. -/
def execFoldWindowEnd (b code : Nat) (s : State) : Host.Outcome State Fault Refusal :=
  onBlock b (
    match Sparse.get none (s.buf b).wins code with
    | none => s
    | some w =>
      let x := s.buf b
      if w.count = 0 then s.setBuf b { x with wins := Sparse.set none x.wins code none }
      else
        let y := x.push { w.last with repeats := min 65535 w.count }
        s.setBuf b { y with wins := Sparse.set none y.wins code (some { w with count := 0 }) })

/-! ### The challenge (R404) -/

/-- A new challenge is issued; the old one is void. -/
def newChallenge (s : State) : State :=
  { s with drawn := s.drawn + 1, lode := { s.lode with challenge := Config.challenge s.drawn },
           host := { s.host with chalSeq := s.host.chalSeq + 1 } }

/-- CHALLENGE_EXPIRY (R404). -/
def execChallengeExpiry (s : State) : Host.Outcome State Fault Refusal :=
  .next (if s.lode.activeOk then newChallenge s else s)

/-! ### The host side (R432, R458, R459, R472) -/

/-- The host-interface block and BAR2 return to their reset values; what was staged for the ring is dropped, and a sealed command
in hand will find no mailbox for its result. The link is up or down as given. -/
def hostReset (s : State) (up : Bool) : State :=
  let h := s.host
  let host : HostIf := if up then { HostIf.init with linkUp := h.linkUp, rate := h.rate, width := h.width, flit := h.flit }
    else HostIf.init
  { s with host := { host with perst := h.perst },
           lode := { s.lode with bells := s.lode.bells.map (fun b => (b.1, false)) },
           reg := { s.reg with
             snapSeq := Sparse.set 0 s.reg.snapSeq 1 0,
             held := s.reg.held.filter (fun e => decide (e.1 < blockBase 1 ∨ blockBase 2 ≤ e.1)),
             staged := s.reg.staged.filter (fun e => decide (e.1 < blockBase 1 ∨ blockBase 2 ≤ e.1)),
             strobed := s.reg.strobed.filter (fun e => decide (e.1 ≠ 1)) } }

/-! ### The Lodestar pair (R386 to R389) -/

/-- HEARTBEAT (R387): the standby learns the last event number, the challenge and the last committed command. -/
def execHeartbeat (s : State) : Host.Outcome State Fault Refusal :=
  .next (if s.lode.activeOk && s.lode.standbyOk then
    ({ s with lode := { s.lode with beatEvseq := s.log.evNext - 1, beatChallenge := s.lode.challenge,
                                    beatCommitted := s.lode.committed } }).emit .heartbeat
    else s)

/-- The other Lodestar. -/
def otherLode (l : Fin 2) : Fin 2 := if l = 0 then 1 else 0

/-- The standby becomes active (R388): the former active is held in reset, host-side state is lost, a sealed command in hand has
no effect (R406), the host link trains anew, and LODESTAR_TAKEOVER takes the next event number. -/
def takeOver (s : State) : State :=
  let s1 := { s with lode := { s.lode with active := otherLode s.lode.active, activeOk := true, standbyOk := false, bells := [] } }
  toLog ((newChallenge (hostReset s1 false)).emit .pcieTrain) (mkRec 0 .event .lodestarTakeover)

/-- LODESTAR_TAKEOVER (R388, R389): on 65,536 control cycles without a heartbeat, or on the active's own report. With no
standby the active's own failure leaves no Lodestar, and the PCI Express link goes with it. -/
def execLodestarTakeover (selfReport : Bool) (s : State) : Host.Outcome State Fault Refusal :=
  noted s (.next (
    if s.lode.standbyOk && s.lode.activeOk then takeOver s
    else if s.lode.activeOk && selfReport then
      hostReset { s with lode := { s.lode with activeOk := false, bells := [] } } false
    else s))

/-- LODESTAR_STANDBY_LOST (R389). -/
def execLodestarStandbyLost (s : State) : Host.Outcome State Fault Refusal :=
  noted s (.next (
    if s.lode.standbyOk && s.lode.activeOk then
      ({ s with lode := { s.lode with standbyOk := false } }).event 0 .lodestarStandbyLost 0
    else s))

/-- Close the ports and links of one port die. -/
def closePd (s : State) (k : Fin 4) : State :=
  let mine (i : Nat) : Bool := decide (i / 2 = k.val)
  { s with
    ports := Vector.ofFn (fun i : Fin 8 =>
      if mine i.val then { s.ports.get i with up := false, training := false } else s.ports.get i),
    links := Vector.ofFn (fun i : Fin 8 =>
      if mine i.val then { s.links.get i with st := .down, replay := [], waiting := [] } else s.links.get i),
    routed := s.routed.filter (fun e => match e.1 with | .routed q _ _ => decide (q ≠ k) | _ => true),
    pds := s.pds.set k.val { s.pds.get k with closed := true } k.isLt }

/-- LODESTAR_SILENCE (R389): a port die without management traffic for 10 ms closes its ports, and ALERT_N is asserted. -/
def execLodestarSilence (k : Fin 4) (s : State) : Host.Outcome State Fault Refusal :=
  noted s (.next (
    if s.lode.activeOk then s
    else { closePd s k with lode := { s.lode with silent := s.lode.silent.set k.val true k.isLt } }))

end Sys2Proof.Machine
end

