-- ==== Sys2Proof/Machine/Links.lean ====
section
/-! DEFINITION. Nelzan links: frames, credits, the replay buffer, bring-up and handshakes (R336 to R346, R366, R382, R435). -/

namespace Sys2Proof.Machine

/-- A link event at its port die. -/
def linkEvent (s : State) (i : LinkId) (c : Code) (x : Link) : State :=
  s.event (4 + (pdOfLink i).val) c (linkDetail i x.peerNode x.peerSlot x.rev x.peerArith 0 0)

/-! ### Receiving (R339, R340) -/

/-- The frames before `ack` are acknowledged and leave the replay buffer. -/
def Link.acked (x : Link) (ack : BitVec 16) : Link :=
  match x.replay with
  | [] => x
  | f :: _ =>
    let n := (ack - f.1).toNat
    if n ≤ x.replay.length then { x with replay := x.replay.drop n } else x

/-- A credit return reaches the sender. -/
def Link.credited (x : Link) (vc n : Nat) : Link := { x with credits := Sparse.set 0 x.credits vc (Sparse.get 0 x.credits vc - n) }

/-- Once no frame of channel 1 is unacknowledged on a link, the requests forwarded over it have been received whole, and their
spaces are zeroed (R382). -/
def releaseSent (s : State) (l : Fin 8) : State :=
  let x := s.links.get l
  if x.replay.any (fun f => decide (f.2.vc = 1)) || x.waiting.any (fun f => decide (f.vc = 1)) then s else
  (fins 4).foldl (fun s k =>
    (s.pd k).conns.foldl (fun s e =>
      match e.2 with
      | none => s
      | some c =>
        if c.sentTo = some l then lzRelease (s.setConn k e.1 (some { c with sentTo := none, lzLen := 0 })) c.lzBase c.lzLen
        else s) s) s

/-- The release that follows acknowledgements on a link. -/
def afterAck (s : State) (i : LinkId) : State :=
  let s1 := match i with | .direct l => releaseSent s l | _ => s
  pumpAll s1 i

/-- Retrain a link: direct lanes train again, a routed link handshakes again (R339, R341, R475). -/
def retrain (s : State) (i : LinkId) (x : Link) : State :=
  let s1 := (s.setLink i { x with st := .retraining, nakRun := 0 }).bump32 (retrainCtr i) 1
  if isRouted i then sendHandshake s1 i .rekeying else s1.emit (.nzRetrain i)

/-- The credit that no other frame has returned goes out in CREDIT frames (R340). -/
def sendCredit (i : LinkId) : Nat → State → State
  | 0, s => s
  | n + 1, s =>
    match s.link i with
    | none => s
    | some x => if x.st = .up ∧ x.owed ≠ [] then sendCredit i n (sendControl s i x ftCredit) else s

/-- The credit owed on a link goes out. -/
def creditAll (s : State) (i : LinkId) : State :=
  match s.link i with
  | none => s
  | some x => sendCredit i x.owed.length s

/-- An arriving frame of type `ft`, of a link that is up: a frame that fails a check is discarded and a NAK is sent, otherwise its
ACK and its credit return are taken and `f` follows. Frames without data carry the sender's next SEQ (log 40). -/
def onFrame (i : LinkId) (ft : Nat) (h : NzHeader) (s : State) (f : State → Link → State) : Host.Outcome State Fault Refusal :=
  .next (match s.link i with
    | none => s
    | some x =>
      if x.st ≠ .up then s
      else if h.tagOk = false ∨ h.fits ft = false ∨ h.seq ≠ x.rxSeq then sendControl s i x ftNak
      else
        let x' := (x.acked h.ack).credited h.cvc h.ccnt
        creditAll (afterAck (f (s.setLink i x') x') i) i)

/-- NZ_DATA_FRAME (R339, R340): the frame is delivered to its channel, whose buffer's words are owed as credit. -/
def execNzDataFrame (i : LinkId) (h : NzHeader) (s : State) : Host.Outcome State Fault Refusal :=
  onFrame i ftData h s (fun s x =>
    (s.setLink i { x with rxSeq := x.rxSeq + 1,
                          owed := Sparse.set 0 x.owed h.vc (Sparse.get 0 x.owed h.vc + frameWords h.len) }).emit
      (.nzDeliver i h.vc h.len))

/-- NZ_ACK_FRAME (R339). -/
def execNzAckFrame (i : LinkId) (h : NzHeader) (s : State) : Host.Outcome State Fault Refusal := onFrame i ftAck h s (fun s _ => s)

/-- NZ_CREDIT_FRAME (R340). -/
def execNzCreditFrame (i : LinkId) (h : NzHeader) (s : State) : Host.Outcome State Fault Refusal :=
  onFrame i ftCredit h s (fun s _ => s)

/-- Send the replay buffer again, oldest first: each frame keeps its SEQ and gets the header that is due (R339). -/
def resend (s : State) (i : LinkId) : State :=
  match s.link i with
  | none => s
  | some x => x.replay.foldl (fun s f =>
      match s.link i with
      | none => s
      | some y => nzOut s i y f.1 f.2.vc ftData f.2.len f.2.msg) s

/-- NZ_NAK_FRAME (R339): the frames from the one named are sent again; the 16th NAK running for one SEQ retrains the link. -/
def execNzNakFrame (i : LinkId) (h : NzHeader) (s : State) : Host.Outcome State Fault Refusal :=
  onFrame i ftNak h s (fun s x =>
    let run := if x.nakSeq = h.ack ∧ 0 < x.nakRun then x.nakRun + 1 else 1
    let x' := { x with nakSeq := h.ack, nakRun := run }
    let s1 := (s.setLink i x').bump (nakCtr i) 1
    if 16 ≤ run then retrain s1 i x' else resend s1 i)

/-! ### Bring-up (R341, R435) -/

/-- LANE_TRAINING_END (R341): the handshake starts. -/
def execLaneTrainingEnd (i : LinkId) (s : State) : Host.Outcome State Fault Refusal :=
  .next (match s.link i with
    | none => s
    | some x => if x.st = .training then sendHandshake s i .handshaking else s)

/-- LINK_BRINGUP_TIMEOUT (R341): the link stays down and tries again. -/
def execLinkBringupTimeout (i : LinkId) (s : State) : Host.Outcome State Fault Refusal :=
  noted s (.next (match s.link i with
    | none => s
    | some x => if x.st = .training ∨ x.st = .handshaking then s.setLink i { x with st := .down } else s))

/-- May ports be used: from stage 7 of start-up on, unless they have been closed (R30, R389, R418, R421)? -/
def State.portsOpen (s : State) (k : Fin 4) : Bool :=
  decide (s.start.stage = 5 ∨ s.start.stage = 6) && !s.refLost && !(s.pd k).closed

/-- May a routed link be made: within the limit, to a member of a group's roster, while ports may be used (R346)? -/
def State.mayRoute (s : State) (i : LinkId) : Bool :=
  match i with
  | .direct _ => false
  | .routed _ node slot => decide (s.routed.length < 4095) && s.portsOpen (pdOfLink i) && (s.rosterAddr node slot).isSome

/-- LINK_RETRY (R341): a down link tries to come up again, unless its revisions hold it down (R344). -/
def execLinkRetry (i : LinkId) (s : State) : Host.Outcome State Fault Refusal :=
  .next (match s.link i with
    | none => s
    | some x =>
      if x.st = .down ∧ x.heldDown = false ∧ s.portsOpen (pdOfLink i) = true then
        if isRouted i then sendHandshake (s.setLink i Link.init) i .handshaking
        else s.setLink i { Link.init with st := .training }
      else s)

/-- LINK_SILENCE_1MS (R341): the link sends an ACK frame. -/
def execLinkSilence1ms (i : LinkId) (s : State) : Host.Outcome State Fault Refusal :=
  .next (match s.link i with
    | none => s
    | some x => if x.st = .up then sendControl s i x ftAck else s)

/-- LINK_SILENCE_10MS (R341): the link retrains. -/
def execLinkSilence10ms (i : LinkId) (s : State) : Host.Outcome State Fault Refusal :=
  noted s (.next (match s.link i with
    | none => s
    | some x => if x.st = .up then retrain s i x else s))

/-- RETRAIN_END (R339): transmission resumes from the oldest unacknowledged frame. -/
def execRetrainEnd (i : LinkId) (s : State) : Host.Outcome State Fault Refusal :=
  noted s (.next (match s.link i with
    | none => s
    | some x => if x.st = .retraining then pumpAll (resend (s.setLink i { x with st := .up }) i) i else s))

/-- LINK_DOWN (R341, R435): a retrain that fails takes the link down; its replay buffer is discarded. -/
def execLinkDown (i : LinkId) (s : State) : Host.Outcome State Fault Refusal :=
  noted s (.next (match s.link i with
    | none => s
    | some x =>
      if x.st = .retraining ∨ x.st = .rekeying then
        linkEvent (s.setLink i { Link.init with peerNode := x.peerNode, peerSlot := x.peerSlot }) i .linkDown x
      else s))

/-- A link's reset (R435): its replay buffer is discarded, its credits are reset, and it makes a new handshake with new keys. -/
def resetLink (s : State) (l : Fin 8) : State :=
  s.setLink (.direct l) { Link.init with st := if s.portsOpen (pdOf l) then .training else .down }

/-- NZ_LINK_RESET (R435). -/
def execNzLinkReset (l : Fin 8) (s : State) : Host.Outcome State Fault Refusal := noted s (.next (resetLink s l))

/-- TXCNT_WRAP_HANDSHAKE (R339): a new handshake with new keys; nothing in the replay buffer is lost. -/
def execTxcntWrapHandshake (i : LinkId) (s : State) : Host.Outcome State Fault Refusal :=
  .next (match s.link i with
    | none => s
    | some x => if x.st = .up then sendHandshake s i .rekeying else s)

/-! ### Handshake (R342 to R344) -/

/-- The slot at the other end of direct link `l` of slot `me` (R337). -/
def slotOn (me : Nat) (l : Fin 8) : Nat := if l.val = 0 then Nat.xor me 1 else Nat.xor me l.val

/-- Is the peer of a direct link where R337 places it (R343), and does its handshake name the link that it was sent on (log 94)? A
routed link's names its kind and the member to which the link was made (R346). -/
def wiringOk (s : State) (i : LinkId) (h : Handshake) : Bool :=
  match i with
  | .direct l => decide (h.node = s.node ∧ h.slot = slotOn s.slotNo l ∧ h.routed = false ∧ h.linkNo = l.val)
  | .routed _ node slot => decide (h.routed = true ∧ h.linkNo = 0 ∧ h.node = node ∧ h.slot = slot)

/-- The revision at which a link runs (R344). -/
def linkRev (mine : ConfigRec) (h : Handshake) : Option Nat :=
  if mine.linkRev = h.linkRev then some mine.linkRev
  else if mine.linkRev + 1 = h.linkRev ∧ h.linkPrev = true then some mine.linkRev
  else if h.linkRev + 1 = mine.linkRev ∧ mine.linkPrev = true then some h.linkRev
  else none

/-- A string as ASCII bytes. -/
def ascii (t : String) : List Byte := t.toList.map (fun c => BitVec.ofNat 8 c.toNat)

/-- Does the side of payload `a` come before that of `b`: the lower SLOT, on a tie the lower NODE_ID (R343)? -/
def firstSide (a b : Handshake) : Bool := decide (a.slot < b.slot ∨ (a.slot = b.slot ∧ a.node < b.node))

/-- The two direction keys of a link (R343): HKDF-SHA256 over the X25519 shared secret, with the NONCE values as salt and the
payloads behind the info string, the first side's before the other's. -/
def linkKeys (secret : BitVec 256) (mine peer : Handshake) : BitVec 512 :=
  let a := if firstSide mine peer then mine else peer
  let b := if firstSide mine peer then peer else mine
  Config.hkdf (Config.x25519 secret peer.eph) (toBytes 16 a.nonce.toNat ++ toBytes 16 b.nonce.toNat)
    (ascii "nelzan link" ++ toBytes 80 a.payload.toNat ++ toBytes 80 b.payload.toNat)

/-- A link that cannot come up: it is down, held so where `hold` is set. -/
def failLink (s : State) (i : LinkId) (x : Link) (h : Handshake) (c : Code) (hold : Bool) : State :=
  let y := { Link.init with heldDown := hold, peerNode := h.node, peerSlot := h.slot, peerArith := h.arithRev, rev := h.linkRev }
  linkEvent (s.setLink i { y with txcnt := x.txcnt }) i c y

/-- HANDSHAKE (R343, R344): the peer's report and place are verified, the revisions are compared, and the direction keys are
derived; a failure leaves the link down. A link that was up keeps its sequence numbers, and the frames of its replay buffer go out
again under the new keys (R339). A routed link that the peer makes first comes up here (R346). -/
def execHandshake (i : LinkId) (h : Handshake) (s : State) : Host.Outcome State Fault Refusal :=
  noted s (.next (
    match s.config with
    | none => s
    | some c =>
      let fresh := (s.link i).isNone && s.mayRoute i
      let x := (s.link i).getD { Link.init with st := if fresh then .handshaking else .down }
      if x.st ≠ .handshaking ∧ x.st ≠ .up ∧ x.st ≠ .rekeying then s
      else if h.sound = false ∨ h.reportOk = false then failLink s i x h .linkAuth false
      else if wiringOk s i h = false then failLink s i x h .linkWiring false
      else match linkRev c h with
        | none => failLink s i x h .linkRevMismatch true
        | some r =>
          let s1 := if fresh then s.setLink i x else s
          let s2 := if fresh || decide (x.st = .up) then sendHandshake s1 i .handshaking else s1
          let x2 := (s2.link i).getD x
          let mine : Handshake := { payload := x2.mine, reportOk := true }
          let y := { x2 with st := .up, rev := r, peerNode := h.node, peerSlot := h.slot, peerArith := h.arithRev, txcnt := 0,
                             keys := linkKeys x2.secret mine h, low := firstSide mine h }
          pumpAll (resend (s2.setLink i y) i) i))

end Sys2Proof.Machine
end

