-- ==== Sys2Proof/Machine/GroupSums.lean ====
section
/-! DEFINITION. Collective groups: their records and areas, the pair sum, node sums, the fold and the optimiser (R347, R350 to R359).
-/

namespace Sys2Proof.Machine

/-- Trained elements of a block. -/
def blkSize : Nat := 262144

/-- Round up to 64 KiB. -/
def up64k (n : Nat) : Nat := ceilDiv n 65536 * 65536

end Sys2Proof.Machine

namespace Sys2Proof

open Sys2Proof.Machine

/-! ### The group record (R347, R351, R359) -/

/-- Blocks of a group, and elements of one of them. -/
def GroupRec.nBlk (c : GroupRec) : Nat := ceilDiv c.nelem blkSize
def GroupRec.elems (c : GroupRec) (blk : Nat) : Nat := min blkSize (c.nelem - blkSize * blk)

/-- Bytes of one replica element. -/
def GroupRec.rb (c : GroupRec) : Nat := if c.retype = 2 then 2 else 1

/-- The blocks of a layer. -/
def GroupRec.layerBlks (c : GroupRec) (layer : Nat) : List Nat :=
  match c.layers[layer]? with | none => [] | some e => (List.range e.nBlk).map (· + e.firstBlk)

/-- Offsets in the contribution area: status record, doorbells, gradient values and their scale plane (R351). -/
def GroupRec.status (c : GroupRec) : Nat := c.cofs * 65536
def GroupRec.bell (c : GroupRec) (layer : Nat) : Nat := c.status + 64 + 64 * layer
def GroupRec.grad (c : GroupRec) : Nat := c.status + up64k (64 + 64 * c.layers.length)
def GroupRec.gradPlane (c : GroupRec) : Nat := c.grad + up64k c.nelem

/-- Offsets of the replica's values and of its scale plane (R347, log 45). -/
def GroupRec.repl (c : GroupRec) : Nat := c.tofs * 65536
def GroupRec.replPlane (c : GroupRec) : Nat := c.repl + up64k (c.nelem * c.rb)

/-- Bytes of a published copy of a block, and of a block's part of the state area (R359, log 45). -/
def GroupRec.pubBytes (c : GroupRec) : Nat := blkSize * c.rb + 8192
def GroupRec.stateBytes (c : GroupRec) : Nat := 4194304 + 2 * c.pubBytes

/-- Offsets of a block's master, momentum and published copy in a bank, for the `i`-th owned block. -/
def GroupRec.master (c : GroupRec) (i bank : Nat) : Nat := c.sofs * 65536 + i * c.stateBytes + bank * 2097152
def GroupRec.moment (c : GroupRec) (i bank : Nat) : Nat := c.master i bank + 1048576
def GroupRec.pub (c : GroupRec) (i bank : Nat) : Nat := c.sofs * 65536 + i * c.stateBytes + 4194304 + bank * c.pubBytes

/-- The group record with its entries as bytes, for the hash of JOIN (R347, R349). -/
def GroupRec.bytes (c : GroupRec) : List Byte :=
  let r := c.gid.val + c.pat % 64 * 2 ^ 4 + b2n c.rmode * 2 ^ 10 + c.rule % 4 * 2 ^ 11 + c.roster.length % 2 ^ 13 * 2 ^ 16
    + c.beta % 2 ^ 16 * 2 ^ 32 + c.lr % 2 ^ 16 * 2 ^ 48 + c.lrsh % 64 * 2 ^ 64 + c.dlLog2 % 32 * 2 ^ 72 + c.mcLog2 % 32 * 2 ^ 80
    + c.mcCred % 256 * 2 ^ 88 + lowBits 8 c.ev * 2 ^ 96 + lowBits 8 c.ew * 2 ^ 104 + c.tseg % 256 * 2 ^ 112 + c.cseg % 256 * 2 ^ 120
    + c.sseg % 256 * 2 ^ 128 + c.retype % 16 * 2 ^ 136 + c.nelem % 2 ^ 32 * 2 ^ 144 + c.tofs % 2 ^ 16 * 2 ^ 176
    + c.cofs % 2 ^ 16 * 2 ^ 192 + c.sofs % 2 ^ 16 * 2 ^ 208 + c.layers.length % 256 * 2 ^ 224
  toBytes 32 r ++ c.layers.flatMap (fun e => toBytes 8 (e.firstBlk % 2 ^ 20 + e.nBlk % 2 ^ 20 * 2 ^ 20 + e.nCore % 2 ^ 13 * 2 ^ 40))
    ++ c.roster.flatMap (fun e => toBytes 32 (e.node % 2 ^ 32 + e.slot % 8 * 2 ^ 32 + e.addr.toNat * 2 ^ 128))

end Sys2Proof

namespace Sys2Proof.Machine

/-! ### Groups by number -/

/-- A configured group. -/
def State.group (s : State) (gid : Nat) : Option Group := Sparse.get none s.groups gid

/-- Put a group, or remove it. -/
def State.setGroup (s : State) (gid : Nat) (g : Option Group) : State := { s with groups := Sparse.set none s.groups gid g }

/-- The port die that serves a group (R348), and its register block. -/
def pdOfGroup (gid : Nat) : Fin 4 := ⟨gid % 4, Nat.mod_lt _ (by omega)⟩
def groupBlock (gid : Nat) : Nat := 4 + gid % 4

/-- Add to the 64-bit and 32-bit counters of a group's port die (R366, R475). -/
def collCtr (s : State) (gid ofs n : Nat) : State := s.bump (pdCtr (gid % 4) ofs) n
def collCtr32 (s : State) (gid ofs n : Nat) : State := if n = 0 then s else s.bump32 (pdCtr (gid % 4) ofs) n

/-! ### Blocks, layers, members (R347 to R350) -/

/-- Formed members. -/
def Group.nf (g : Group) : Nat := g.members.length

/-- The roster entry of a formed rank. -/
def Group.member (g : Group) (r : Nat) : Option RosterEnt := (g.members[r]?).bind (fun i => g.cfg.roster[i]?)

/-- Node and slot of a formed rank. -/
def Group.nodeOf (g : Group) (r : Nat) : Nat := match g.member r with | none => 0 | some e => e.node
def Group.slotOf (g : Group) (r : Nat) : Nat := match g.member r with | none => 0 | some e => e.slot

/-- The owner of a block (R350). -/
def Group.owner (g : Group) (blk : Nat) : Nat := blk % g.nf

/-- The owned blocks of this module, ascending, and the place of one among them. -/
def Group.owned (g : Group) : List Nat := (List.range g.cfg.nBlk).filter (fun b => decide (g.owner b = g.rank))

/-- Formed ranks of a node, ascending by slot. -/
def Group.inNode (g : Group) (node : Nat) : List Nat := (List.range g.nf).filter (fun r => decide (g.nodeOf r = node))

/-- Nodes with a formed member, ascending. -/
def Group.nodes (g : Group) : List Nat := ((List.range g.nf).map g.nodeOf).dedup

/-- The member that serves slot `o` in a node: the one in it, or the stand-in, the member of lowest slot (R356). -/
def Group.server (g : Group) (node o : Nat) : Nat :=
  match (g.inNode node).find? (fun r => decide (g.slotOf r = o)) with
  | some r => r
  | none => (g.inNode node).headD 0

/-- The member of this module's node that forms the node sum of a block. -/
def Group.sumServer (g : Group) (blk : Nat) : Nat := g.server (g.nodeOf g.rank) (g.slotOf (g.owner blk))

/-- The key of a block in a step, under which what arrives for it is held. -/
def stepKey (cstep blk : Nat) : Nat := cstep * 2 ^ 20 + blk

/-- Detail of a collective event (R485). -/
def groupDetail (gid cstep node slot arith : Nat) : Nat := linkDetail (.direct 0) node slot 0 arith gid cstep

/-- Record a collective event at the group's port die. -/
def groupEvent (s : State) (gid : Nat) (g : Group) (c : Code) (rank : Nat) : State :=
  s.event (groupBlock gid) c (groupDetail gid g.cstep (g.nodeOf rank) (g.slotOf rank) 0)

/-! ### Segments of a group (R351, R359) -/

/-- Write bytes of a group's segment; a byte beyond the segment is not written. -/
def grpPut (s : State) (pi seg ofs : Nat) (b : List Byte) : State :=
  match (s.pat pi).bind (fun p => p.segs[seg]?) with
  | none => s
  | some g => if ofs + b.length ≤ g.length then segPuts s pi seg g ofs b else s

/-- Read bytes of a group's segment; none where one of them cannot be read. -/
def grpGet (s : State) (pi seg ofs n : Nat) : Option (List Byte) :=
  match (s.pat pi).bind (fun p => p.segs[seg]?) with
  | none => none
  | some g =>
    if g.length < ofs + n ∨ (List.range n).any (fun i => (segGet s g (ofs + i)).isNone) = true then none
    else some (segBytes s g ofs n)

/-- The place of a block among its owner's blocks. -/
def Group.place (g : Group) (blk : Nat) : Nat := blk / g.nf

/-- Bytes as signed elements of `n` bytes. -/
def elemsOf (n : Nat) (b : List Byte) : List Int := (runsOf n (b.length / n) b).map (fun r => signed (8 * n) (ofBytes r))

/-- Values and exponents as groups of 32 (R354). -/
def groupsFrom (vals exps : List Int) : List Grp :=
  List.zipWith (fun v x => { v := v, x := x }) (runsOf 32 (vals.length / 32) vals) exps

/-- This member's contribution to a block, where all of it can be read (R351, R354). -/
def readContrib (s : State) (g : Group) (blk : Nat) : Option (List Grp) :=
  let c := g.cfg
  let n := c.elems blk
  match grpGet s c.pat c.cseg (c.grad + blk * blkSize) n, grpGet s c.pat c.cseg (c.gradPlane + blk * (blkSize / 32)) (n / 32) with
  | some v, some x => some (groupsFrom (elemsOf 1 v) (elemsOf 1 x))
  | _, _ => none

/-- Write an UPDATE chunk's groups at a place for values and one for exponents. -/
def writeGroups (s : State) (c : GroupRec) (seg vals exps : Nat) (l : List Grp) : State :=
  let s1 := grpPut s c.pat seg vals (l.flatMap (fun q => q.v.flatMap (fun v => toBytes c.rb (lowBits (8 * c.rb) v))))
  grpPut s1 c.pat seg exps (l.flatMap (fun q => toBytes 1 (lowBits 8 q.x)))

/-- Write a block into the replica (R363). -/
def writeReplica (s : State) (g : Group) (blk : Nat) (l : List Grp) : State :=
  let c := g.cfg
  writeGroups s c c.tseg (c.repl + blk * blkSize * c.rb) (c.replPlane + blk * (blkSize / 32)) l

/-- Read a published copy. -/
def readPub (s : State) (g : Group) (blk bank : Nat) : List Grp :=
  let c := g.cfg
  let n := c.elems blk
  let at' := c.pub (g.place blk) bank
  match grpGet s c.pat c.sseg at' (n * c.rb), grpGet s c.pat c.sseg (at' + blkSize * c.rb) (n / 32) with
  | some v, some x => groupsFrom (elemsOf c.rb v) (elemsOf 1 x)
  | _, _ => []

/-- Write a published copy. -/
def writePub (s : State) (g : Group) (blk bank : Nat) (l : List Grp) : State :=
  let c := g.cfg
  let at' := c.pub (g.place blk) bank
  writeGroups s c c.sseg at' (at' + blkSize * c.rb) l

/-- Read and write a block's 32-bit state. -/
def readState (s : State) (g : Group) (ofs blk : Nat) : List Int :=
  match grpGet s g.cfg.pat g.cfg.sseg ofs (4 * g.cfg.elems blk) with | none => [] | some b => elemsOf 4 b
def writeState (s : State) (g : Group) (ofs : Nat) (l : List Int) : State :=
  grpPut s g.cfg.pat g.cfg.sseg ofs (l.flatMap (fun v => toBytes 4 (lowBits 32 v)))

/-! ### Sums (R355 to R357) -/

/-- One group's pair: its values, its exponent and its guards. -/
def pairLoop (a b : Grp) : Nat → Int → Nat → Grp × Nat
  | 0, x, n => ({ v := List.zipWith (fun u v => rq u (x - a.x) + rq v (x - b.x)) a.v b.v, x := x }, n)
  | fuel + 1, x, n =>
    let s := List.zipWith (fun u v => rq u (x - a.x) + rq v (x - b.x)) a.v b.v
    if s.all (fitsS 48) then ({ v := s, x := x }, n) else pairLoop a b fuel (x + 4) (n + 1)

/-- The pair of two groups (R355). Past the greater exponent every further guard halves the sum four times, so that the rounds
given are enough. -/
def pairGrp (a b : Grp) : Grp × Nat := pairLoop a b ((max a.x b.x - min a.x b.x).toNat / 4 + 16) (min a.x b.x) 0

/-- The pair of two sums, and the guards counted. -/
def pairSum : Option Sum → Option Sum → Option Sum × Nat
  | none, b => (b, 0)
  | a, none => (a, 0)
  | some a, some b =>
    let r := List.zipWith pairGrp a.groups b.groups
    (some { groups := r.map (·.1), n := a.n + b.n }, (r.map (·.2)).foldl (· + ·) 0)

/-- Two sums with guards so far, paired. -/
def pairOf (a b : Option Sum × Nat) : Option Sum × Nat :=
  let r := pairSum a.1 b.1
  (r.1, a.2 + b.2 + r.2)

/-- The node sum over slots 0 to 7 (R356). -/
def nodeTree (c : Nat → Option Sum) : Option Sum × Nat :=
  let l (i : Nat) : Option Sum × Nat := (c i, 0)
  pairOf (pairOf (pairOf (l 0) (l 1)) (pairOf (l 2) (l 3))) (pairOf (pairOf (l 4) (l 5)) (pairOf (l 6) (l 7)))

/-- The smallest exponent from `x` on at which every value fits I32 (R356). -/
def fit32 (q : Grp) : Nat → Nat → Grp
  | 0, k => { v := q.v.map (fun v => rq v k), x := q.x + k }
  | fuel + 1, k =>
    let v := q.v.map (fun v => rq v k)
    if v.all (fitsS 32) then { v := v, x := q.x + k } else fit32 q fuel (k + 1)

/-- A sum in PARTIAL form. -/
def Sum.toPartial (a : Sum) : Sum := { a with groups := a.groups.map (fun q => fit32 q 32 0) }

/-! ### The optimiser (R358) -/

/-- A value saturated to I32, and whether it was. -/
def sat32 (v : Int) : Int × Nat := (satS 32 v, if fitsS 32 v then 0 else 1)

/-- One element: the new master and momentum, and 1 where either was saturated. -/
def optElem (c : GroupRec) (dm : Nat) (x t v w : Int) : Int × Int × Nat :=
  let gv := rq (t * dm) (32 + c.ev - x)
  let v' := if c.rule = 0 then sat32 (rq (v * c.beta) 16 + gv)
    else sat32 (rq (v * c.beta) 16 + rq (gv * (65536 - c.beta)) 16)
  let w' := if c.rule = 0 then sat32 (w - rq (v'.1 * c.lr) (c.lrsh + c.ew - c.ev))
    else sat32 (w - (if v'.1 = 0 then 0 else if v'.1 < 0 then -1 else 1) * rq c.lr (c.lrsh + c.ew))
  (w'.1, v'.1, min 1 (v'.2 + w'.2))

/-- A group of masters in UPDATE form (R43). An exponent beyond 8 bits is not stated for an UPDATE: it is free (log 46). -/
def updGroup (c : GroupRec) (drawn : Nat) (ws : List Int) : Grp :=
  let bits := 8 * c.rb
  let e := shiftFor bits ws 32 0
  { v := ws.map (fun w => rq w e),
    x := if fitsS 8 (c.ew + e) then c.ew + e else signed 8 (Config.freeByte drawn).toNat }

/-- All groups of a block in UPDATE form. -/
def updGroups (c : GroupRec) (drawn : Nat) (w : List Int) : List Grp :=
  (numberedRuns w).map (fun e => updGroup c (drawn + e.1) e.2)
where
  /-- The runs of 32 with their numbers. -/
  numberedRuns (w : List Int) : List (Nat × List Int) :=
    (List.range (w.length / 32)).zip (runsOf 32 (w.length / 32) w)

/-- Store new masters and momenta in a bank, with the published copy. -/
def storeBank (s : State) (g : Group) (blk bank : Nat) (w v : List Int) (l : List Grp) : State :=
  let i := g.place blk
  writePub (writeState (writeState s g (g.cfg.master i bank) w) g (g.cfg.moment i bank) v) g blk bank l

/-- The optimiser update of an owned block from its sum (R357, R358). -/
def optimise (s : State) (gid : Nat) (g : Group) (blk : Nat) (t : Sum) : State :=
  let c := g.cfg
  let i := g.place blk
  let old := (g.cstep + 1) % 2
  let dm := divRound (2 ^ 32) t.n
  let w := readState s g (c.master i old) blk
  let v := readState s g (c.moment i old) blk
  let ts := t.groups.flatMap (fun q => q.v.map (fun u => (u, q.x)))
  let r := List.zipWith (fun tx wv => optElem c dm tx.2 tx.1 wv.2 wv.1) ts (w.zip v)
  let w' := r.map (·.1)
  let s1 := storeBank { s with drawn := s.drawn + w'.length / 32 } g blk (g.cstep % 2) w' (r.map (·.2.1)) (updGroups c s.drawn w')
  collCtr32 s1 gid 0x141C ((r.map (·.2.2)).foldl (· + ·) 0)

/-- Bring an owned block's previous state into the step's bank (R361). -/
def keepBlock (s : State) (g : Group) (blk : Nat) : State :=
  let c := g.cfg
  let i := g.place blk
  let old := (g.cstep + 1) % 2
  storeBank s g blk (g.cstep % 2) (readState s g (c.master i old) blk) (readState s g (c.moment i old) blk) (readPub s g blk old)

/-- Initialise an owned block at formation, in both banks (R350): masters from the replica, momenta zero. -/
def initBlock (g : Group) (s : State) (blk : Nat) : State :=
  let c := g.cfg
  let n := c.elems blk
  match grpGet s c.pat c.tseg (c.repl + blk * blkSize * c.rb) (n * c.rb),
      grpGet s c.pat c.tseg (c.replPlane + blk * (blkSize / 32)) (n / 32) with
  | some v, some x =>
    let gs := groupsFrom (elemsOf c.rb v) (elemsOf 1 x)
    let w := gs.flatMap (fun q => q.v.map (fun u => satS 32 (rq u (c.ew - q.x))))
    let z := List.replicate w.length 0
    storeBank (storeBank s g blk 0 w z gs) g blk 1 w z gs
  | _, _ => s

end Sys2Proof.Machine
end

