-- ==== Sys2Proof/Machine/Network.lean ====
section
/-! DEFINITION. Ethernet ports, the request protocol, the opening of requests, and their forwarding (R367 to R385, R424, R435,
R477). -/

namespace Sys2Proof.Machine

/-! ### Ports (R367, R383, R435) -/

/-- The address set of a port. -/
def State.portAddr (s : State) (p : Fin 8) : PortAddr := (s.ports.get p).addr

/-- The register block of a port's die. -/
def portBlock (p : Fin 8) : Nat := 4 + (pdOf p).val

/-- Broadcast, and the link-local IPv6 address of a port (R367, R415). -/
def broadcastMac : BitVec 48 := BitVec.allOnes 48
def linkLocal (a : PortAddr) : BitVec 128 := BitVec.ofNat 128 (0xFE80 * 2 ^ 112 + a.iid.toNat)

/-- Is an IP address one of the port's? -/
def ownV4 (a : PortAddr) (d : BitVec 32) : Bool := decide (a.ipv4 ≠ 0 ∧ d = a.ipv4)
def ownV6 (a : PortAddr) (d : BitVec 128) : Bool := decide (d = a.ipv6 ∨ d = linkLocal a)

/-- The solicited-node multicast addresses of an address, of the MAC and of IPv6 (R367, RFC 4291). -/
def solicitedMac (d : BitVec 128) : BitVec 48 := BitVec.ofNat 48 (0x3333FF * 2 ^ 24 + d.toNat % 2 ^ 24)
def solicitedV6 (d : BitVec 128) : BitVec 128 := BitVec.ofNat 128 (0xFF02 * 2 ^ 112 + 2 ^ 32 + 0xFF * 2 ^ 24 + d.toNat % 2 ^ 24)

/-- The EtherTypes that a port takes: IPv4, ARP, IPv6, and MAC control for PAUSE and PFC (R367). -/
def etV4 : BitVec 16 := 0x0800
def etArp : BitVec 16 := 0x0806
def etV6 : BitVec 16 := 0x86DD
def etControl : BitVec 16 := 0x8808

/-- The reserved multicast address of MAC control frames. -/
def controlMac : BitVec 48 := 0x0180C2000001

/-- Is a frame's destination the port (R383, check 2)? -/
def macOk (a : PortAddr) (f : EthFrame) : Bool :=
  decide (f.dstMac = a.mac ∨ (f.etype = etArp ∧ f.dstMac = broadcastMac) ∨ (f.etype = etControl ∧ f.dstMac = controlMac)
    ∨ (f.etype = etV6 ∧ (f.dstMac = solicitedMac a.ipv6 ∨ f.dstMac = solicitedMac (linkLocal a))))

/-- Is the IP header well-formed, addressed to the port, without fragment, options or extension header (R383, check 3)? -/
def ipFits (a : PortAddr) (f : EthFrame) : Bool :=
  f.ipOk && !f.frag &&
    (if f.etype = etV6 then
      (ownV6 a f.dstV6 || decide (f.dstV6 = solicitedV6 a.ipv6 ∨ f.dstV6 = solicitedV6 (linkLocal a))) && decide (f.proto = 17 ∨ f.proto = 58)
    else ownV4 a f.dstV4 && decide (f.ihl = 5) && decide (f.proto = 17 ∨ f.proto = 1))

/-- The counter of the first check of R383 that a frame fails, among checks 1 to 5. -/
def frameCheck (a : PortAddr) (p : Fin 8) (f : EthFrame) : Option Nat :=
  let c (o : Nat) : Option Nat := some (portCtr p.val o)
  if f.fcsOk = false ∨ f.len < 64 ∨ a.mtu < f.len then c 8
  else if macOk a f = false ∨ f.tags ≠ (if a.vlanEn then [a.vid] else [])
      ∨ ¬(f.etype = etV4 ∨ f.etype = etArp ∨ f.etype = etV6 ∨ f.etype = etControl) then c 0x10
  else if f.etype = etArp ∨ f.etype = etControl then none
  else if ipFits a f = false then c 0x18
  else if f.proto ≠ 17 then none
  else if (if f.udpZero then decide (f.etype = etV6) else !f.udpOk) = true
      ∨ ¬(f.udpPort = 47301 ∨ (f.udpPort = 47302 ∧ f.etype = etV6)) then c 0x18
  else if f.udpPort = 47302 then none
  else if rqpFits f.rqp f.udpLen = false then c 0x20
  else none

/-- ETH_FRAME_RX (R383, R385): a frame is checked in order; the first failure drops it and is counted. What an accepted frame
carries is a command of its own. -/
def execEthFrameRx (p : Fin 8) (f : EthFrame) (s : State) : Host.Outcome State Fault Refusal :=
  .next (
    if s.ethUp p = false then s else
    let s1 := if f.fcsOk then s.bump (portCtr p.val 0) 1 else s
    match frameCheck (s.portAddr p) p f with
    | none => s1
    | some o => s1.bump o 1)

/-- ARP_REQUEST (R367): one for the port's IPv4 address is answered. -/
def execArpRequest (p : Fin 8) (target : BitVec 32) (mac : BitVec 48) (ip : BitVec 32) (s : State) :
    Host.Outcome State Fault Refusal :=
  .next (if s.ethUp p && ownV4 (s.portAddr p) target then s.transmit p (.arp p mac ip) else s)

/-- ICMP_ECHO (R367): an echo request to one of the port's addresses is answered. -/
def execIcmpEcho (p : Fin 8) (v6 : Bool) (dst src : BitVec 128) (payload : List Byte) (s : State) :
    Host.Outcome State Fault Refusal :=
  let a := s.portAddr p
  .next (if s.ethUp p && (if v6 then ownV6 a dst else ownV4 a (dst.setWidth 32)) then
    s.transmit p (.echo (s.netTo p (if v6 then src else (src.setWidth 32).setWidth 128) 0 0) payload) else s)

/-- NEIGHBOR_SOLICITATION (R367): one for an address of the port is answered with an advertisement. -/
def execNeighborSolicitation (p : Fin 8) (target src : BitVec 128) (s : State) : Host.Outcome State Fault Refusal :=
  .next (if s.ethUp p && ownV6 (s.portAddr p) target then s.transmit p (.neighbor p target src) else s)

/-- Learn an entry, in place of an older one for the same address. -/
def learn {α β : Type} [DecidableEq α] (l : List (α × β)) (k : α) (v : β) : List (α × β) :=
  l.filter (fun e => !decide (e.1 = k)) ++ [(k, v)]

/-- ARP_REPLY (R367): the ARP entry is learned. -/
def execArpReply (p : Fin 8) (ip : BitVec 32) (mac : BitVec 48) (s : State) : Host.Outcome State Fault Refusal :=
  let x := s.ports.get p
  .next (if s.ethUp p && decide (ip = x.addr.gw4) then s.setPort p { x with arp := learn x.arp ip mac } else s)

/-- NEIGHBOR_ADVERTISEMENT (R367): the neighbour entry is learned. -/
def execNeighborAdvertisement (p : Fin 8) (ip : BitVec 128) (mac : BitVec 48) (s : State) : Host.Outcome State Fault Refusal :=
  let x := s.ports.get p
  .next (if s.ethUp p then s.setPort p { x with nbr := learn x.nbr ip mac } else s)

/-- Send what a pause has held, once it holds no longer. -/
def flushPort (s : State) (p : Fin 8) : State :=
  let x := s.ports.get p
  if x.held then s else (s.setPort p { x with txq := [] }).emits x.txq

/-- PAUSE_FRAME (R367): a PAUSE, or a PFC frame for enabled priorities, is honoured: the port holds its frames. -/
def execPauseFrame (p : Fin 8) (pfc : Bool) (prios : BitVec 8) (s : State) : Host.Outcome State Fault Refusal :=
  let x := s.ports.get p
  .next (
    if s.ethUp p = false then s
    else if pfc then s.setPort p { x with paused := x.paused ||| (prios &&& x.addr.pfcEn) }
    else if x.addr.pauseEn then s.setPort p { x with pausedAll := true } else s)

/-- PAUSE_TIME_EXPIRY (R367): transmission resumes on the priorities named; on all of them, after a PAUSE as well. -/
def execPauseTimeExpiry (p : Fin 8) (prios : BitVec 8) (s : State) : Host.Outcome State Fault Refusal :=
  let x := s.ports.get p
  .next (flushPort (s.setPort p
    { x with paused := x.paused &&& ~~~prios, pausedAll := x.pausedAll && decide (prios ≠ BitVec.allOnes 8) }) p)

/-- An Ethernet port's reset (R435): it retrains, and frames in flight are lost; connection records, spaces, key slots and counters
survive. The routed links that it carries and that their revisions hold down may come up again (R344). -/
def resetEth (s : State) (p : Fin 8) : State :=
  let s1 := s.setPort p
    { s.ports.get p with up := false, training := s.portsOpen (pdOf p), paused := 0, pausedAll := false, txq := [] }
  { s1 with routed := s1.routed.map (fun e =>
      if routedPort (pdOfLink e.1) = p then (e.1, { e.2 with heldDown := false }) else e) }

/-- ETH_PORT_RESET (R435, R476). -/
def execEthPortReset (p : Fin 8) (s : State) : Host.Outcome State Fault Refusal := noted s (.next (resetEth s p))

/-- ETH_SIGNAL_LOSS (R435): a port without signal for 100 ms is reset. -/
def execEthSignalLoss (p : Fin 8) (s : State) : Host.Outcome State Fault Refusal :=
  noted s (.next (if s.ethUp p then resetEth s p else s))

/-- ETH_TRAINING_END (R435): the port comes into use. -/
def execEthTrainingEnd (p : Fin 8) (s : State) : Host.Outcome State Fault Refusal :=
  noted s (.next (
    let x := s.ports.get p
    if x.training && s.portsOpen (pdOf p) then s.setPort p { x with up := true, training := false } else s))

/-! ### Connections (R369 to R373) -/

/-- Bytes of a preamble (R370). -/
def preBytes (p : Preamble) : Nat := if p.hybrid then 1136 else 48

/-- TLEN of a request: its preamble and its ciphertext. -/
def preTotal (p : Preamble) : Nat := preBytes p + p.clen

/-- Does a preamble hold to R370? -/
def preGood (p : Preamble) : Bool := p.ok && decide (80 ≤ p.clen ∧ preTotal p ≤ 67108864)

/-- The record of a connection. -/
def State.findConn (s : State) (k : Fin 4) (key : ConnKey) : Option (Nat × Conn) :=
  (s.pd k).conns.findSome? (fun e =>
    match e.2 with
    | none => none
    | some c => if c.key = key then some (e.1, c) else none)

/-- The lowest free record of a port die (R372). -/
def State.freeConn (s : State) (k : Fin 4) : Option Nat := findFrom (fun n => (s.conn k n).isNone) 16384 0

/-- Received bytes as disjoint runs in ascending order, with one more run. -/
def addRun : List (Nat × Nat) → Nat → Nat → List (Nat × Nat)
  | [], a, b => [(a, b)]
  | (x, y) :: l, a, b =>
    if b < x then (a, b) :: (x, y) :: l
    else if y < a then (x, y) :: addRun l a b
    else addRun l (min a x) (max b y)

/-- ACK of a connection: the next SEQ expected (R369). -/
def Conn.ack (c : Conn) : Nat := c.ackNext

/-- SACK: bit i for segment ACK + 1 + i (R369). -/
def Conn.sack (c : Conn) : BitVec 64 :=
  BitVec.ofNat 64 (((List.range 64).filter (fun i => Sparse.get false c.got (c.ackNext + 1 + i))).foldl (fun a i => a + 2 ^ i) 0)

/-- The next SEQ expected after `n`, over what has arrived. -/
def nextAck (got : Sparse Bool) : Nat → Nat → Nat
  | 0, n => n
  | fuel + 1, n => if Sparse.get false got n then nextAck got fuel (n + 1) else n

/-- Send an RQACK (R373). -/
def sendRqack (s : State) (k : Fin 4) (n : Nat) (c : Conn) : State :=
  (s.setConn k n (some { c with unackedRq := 0 })).transmit c.key.port
    (.rqack (s.netTo c.key.port c.key.ip c.key.udp c.sclass) (rqpBits ptRqack false false 0 c.key.conn 0 0 c.ack c.sack 64))

/-- Answer a FIRST segment that cannot be taken: ACK 0 and WIN 0 (R373). -/
def turnAway (s : State) (key : ConnKey) : State :=
  s.transmit key.port (.rqack (s.netTo key.port key.ip key.udp 0) (rqpBits ptRqack false false 0 key.conn 0 0 0 0 0))

/-- A clear STATUS that is sent once and not repeated (R374, R383). -/
def statusOnce (s : State) (key : ConnKey) (c : Code) : State :=
  (s.transmit key.port (.rs (s.netTo key.port key.ip key.udp 0) (rqpBits ptRs true true 3 key.conn 0 0 0 0 0)
    (toBytes 1 2 ++ toBytes 2 (codeValue c)))).refusal (portBlock key.port) c 0

/-- A new connection record (R372). -/
def Conn.start (key : ConnKey) (pre : Preamble) (base len : Nat) : Conn :=
  { key := key, phase := .receiving, pre := pre, tlen := preTotal pre, got := [], runs := [], ackNext := 0, unackedRq := 0,
    lzBase := base, lzLen := len, staging := none, stagingOk := true, sealed := false, sid := none, keyid := pre.keyid,
    sclass := 0, nextMsg := 0, nextRs := 0, unacked := [], backlog := [], statusSent := none, via := none, sentTo := none, load := none }

/-- Is a direct link up for frames? -/
def State.linkUp (s : State) (l : Fin 8) : Bool := decide ((s.links.get l).st = .up)

/-- A direct link to slot `d` that is up (R337, R382): link s XOR d, or link 0 for the pair that has two. -/
def State.linkTo (s : State) (d : Nat) : Option (Fin 8) :=
  let x := Nat.xor s.slotNo d
  ((fins 8).filter (fun l => decide (l.val = x ∨ (l.val = 0 ∧ x = 1)))).find? s.linkUp

/-- End a connection that holds a landing-zone space with a STATUS, log the refusal, and give the space back. -/
def refuseConn (s : State) (k : Fin 4) (n : Nat) (c : Code) : State :=
  match s.conn k n with
  | none => s
  | some x =>
    let s1 := lzRelease (finalStatus s k n c) x.lzBase x.lzLen
    s1.refusal (4 + k.val) c 0

/-- A whole request that another slot serves goes out on channel 1 (R382). -/
def forwardOut (s : State) (k : Fin 4) (n : Nat) (x : Conn) : State :=
  match s.linkTo x.pre.dslot with
  | none => refuseConn s k n .refusedRoute
  | some l =>
    let s1 := s.setConn k n (some { x with phase := .forwarded, sentTo := some l })
    sendBytes s1 (.direct l) 1 x.tlen (.forward l x.key x.pre x.lzBase x.lzLen)

/-- A CANCEL of a forwarded request goes to the module that serves it, on channel 1 (R382, R384, log 95). -/
def forwardCancel (s : State) (x : Conn) : State :=
  match s.linkTo x.pre.dslot with
  | none => s
  | some l => sendBytes s (.direct l) 1 64 (.forwardCancel l x.key)

/-- A segment's bytes land: ciphertext byte c at byte c of the space (R371). -/
def landSegment (s : State) (x : Conn) (seg : RqSegment) : State :=
  let pre := preBytes x.pre
  let skip := pre - seg.offset
  lzPuts s (x.lzBase * 4096 + (seg.offset + skip - pre)) (seg.payload.drop skip)

/-- A new segment of a record that is receiving: it lands, it is acknowledged as R373 says, and the request may be whole. -/
def takeSegment (s : State) (k : Fin 4) (n : Nat) (x : Conn) (seg : RqSegment) : State :=
  let got := Sparse.set false x.got seg.seq true
  let runs := addRun x.runs seg.offset (seg.offset + seg.payload.length)
  let y := { x with got := got, runs := runs, ackNext := nextAck got (got.length + 1) x.ackNext, unackedRq := x.unackedRq + 1 }
  let whole := decide (runs = [(0, x.tlen)])
  let s1 := landSegment s x seg
  let s2 := s1.setConn k n (some { y with phase := if whole then .whole else .receiving })
  let s3 := if seg.seq ≠ x.ackNext ∨ 8 ≤ y.unackedRq then
      sendRqack s2 k n { y with phase := if whole then .whole else .receiving } else s2
  match s3.conn k n with
  | none => s3
  | some z => if whole = true ∧ z.pre.fwd = true ∧ z.pre.dslot ≠ s.slotNo then forwardOut s3 k n z else s3

/-- Is every FIRST segment turned away (R440)? -/
def State.parking (s : State) : Bool := s.pwr.park && (s.pwr.entering || decide (s.pwr.state = 2) || s.pwr.waking)

/-- A FIRST segment opens a connection: a record and landing-zone space are taken (R371 to R373). -/
def openConn (s : State) (k : Fin 4) (seg : RqSegment) : State :=
  let drop := s.bump (portCtr seg.key.port.val 0x20) 1
  if seg.offset ≠ 0 then drop else
  match preambleOf seg.payload with
  | none => statusOnce drop seg.key .refusedLength
  | some pre =>
    if preGood pre = false then statusOnce drop seg.key .refusedLength
    else if preTotal pre < seg.offset + seg.payload.length then drop
    else
      let len := ceilDiv pre.clen 4096
      match s.parking, s.freeConn k, lzAlloc s len with
      | false, some n, some b =>
        let x := Conn.start seg.key pre b len
        let s1 := { s.setConn k n (some x) with lz := s.lz ++ [(b, len)] }
        takeSegment s1 k n x seg
      | _, _, _ => turnAway s seg.key

/-- RQ_SEGMENT (R371 to R374, R383, R384): a segment of a known connection lands, or is acknowledged again; a FIRST segment
opens one. One whose header fails check 5 was dropped and counted with its frame. -/
def execRqSegment (seg : RqSegment) (s : State) : Host.Outcome State Fault Refusal :=
  let p := seg.key.port
  let k := pdOf p
  .next (
    if s.ethUp p = false ∨ seg.fits = false then s else
    match s.findConn k seg.key with
    | none => if seg.first then openConn s k seg else s.bump (portCtr p.val 0x20) 1
    | some (n, x) =>
      if Sparse.get false x.got seg.seq = true ∨ seg.first = true then
        if x.via.isSome then s else sendRqack s k n x
      else if x.phase ≠ .receiving ∨ x.tlen < seg.offset + seg.payload.length then s.bump (portCtr p.val 0x20) 1
      else takeSegment s k n x seg)

/-- RQACK_TIMER (R373): 20 µs after an unacknowledged segment arrived. -/
def execRqackTimer (k : Fin 4) (n : Nat) (s : State) : Host.Outcome State Fault Refusal :=
  .next (match s.conn k n with
    | none => s
    | some x => if 0 < x.unackedRq then sendRqack s k n x else s)

/-- A record whose last STATUS is acknowledged or abandoned is kept for 2 s (R376). -/
def keepConn (s : State) (k : Fin 4) (n : Nat) (x : Conn) : State :=
  s.setConn k n (some { x with phase := .kept, unacked := [], backlog := [], staging := none, sid := none })

/-- REQUEST_TIMEOUT (R374): a request that is not whole in time is abandoned, with one clear STATUS. -/
def execRequestTimeout (k : Fin 4) (n : Nat) (s : State) : Host.Outcome State Fault Refusal :=
  .next (match s.conn k n with
    | none => s
    | some x =>
      if x.phase ≠ .receiving then s else
      let s1 := lzRelease (statusOnce s x.key .refusedTimeout) x.lzBase x.lzLen
      (keepConn s1 k n x).bump32 (portCtr x.key.port.val 0x34) 1)

/-- CONN_RECORD_EXPIRY (R376): the record is freed. -/
def execConnRecordExpiry (k : Fin 4) (n : Nat) (s : State) : Host.Outcome State Fault Refusal :=
  .next (match s.conn k n with
    | none => s
    | some x =>
      if x.phase ≠ .kept then s
      else if x.sentTo.isSome then lzRelease (s.setConn k n none) x.lzBase x.lzLen else s.setConn k n none)

/-! ### Responses (R375, R376) -/

/-- RSACK (R375): the acknowledged segments are released, and more of the message goes out; after the last STATUS the record is
kept. -/
def execRsack (k : Fin 4) (n ack : Nat) (sack : BitVec 64) (s : State) : Host.Outcome State Fault Refusal :=
  .next (match s.conn k n with
    | none => s
    | some x =>
      let open_ (g : RsSeg) : Bool := decide (ack ≤ g.seq) && !(decide (ack < g.seq) && sack.getLsbD (g.seq - ack - 1))
      let s1 := sendBacklog (s.setConn k n (some { x with unacked := x.unacked.filter open_ })) k n
      match s1.conn k n with
      | none => s1
      | some y => if y.phase = .closing ∧ y.unacked = [] ∧ y.backlog = [] then keepConn s1 k n y else s1)

/-- Take a request that is not yet a stream out of the Helms' queues. -/
def unqueue (s : State) (k : Fin 4) (n : Nat) : State :=
  let mine (i : ReqItem) : Bool := decide (pdOf i.port = k ∧ i.crec = n)
  let s1 := (fins 4).foldl (fun s q =>
    s.setPd q { s.pd q with ingress := (s.pd q).ingress.map (fun l => l.keep (l.items.filter (fun i => !mine i))) }) s
  { s1 with helm := { s1.helm with checked := s1.helm.checked.filter (fun e => !mine e.1) } }

/-- The client cancels an opened request (R305, R384): its stream ends, or what waits of it goes. -/
def cancelOpened (s : State) (k : Fin 4) (n : Nat) (x : Conn) : State :=
  match x.sid with
  | none => lzRelease (finalStatus (unqueue s k n) k n .endCancel) x.lzBase x.lzLen
  | some sid =>
    match s.slotOf sid with
    | some q => endStream s q (some .endCancel)
    | none =>
      match s.helm.parked.find? (fun y => decide (y.sid = sid)) with
      | none => s
      | some y =>
        dropParked (s.setParked s.helm.parkHead (s.helm.parked.erase y)) y (some .endCancel)

/-- RQP_CANCEL (R384): before opening, reception stops with a clear END_CANCEL; after it, the stream ends under R305. For a request
that another module serves it goes on to that module, whose STATUS comes back; a load request that has been opened runs on. -/
def execRqpCancel (k : Fin 4) (n : Nat) (s : State) : Host.Outcome State Fault Refusal :=
  .next (match s.conn k n with
    | none => s
    | some x =>
      match x.phase with
      | .receiving => lzRelease (finalStatus s k n .endCancel) x.lzBase x.lzLen
      | .whole => lzRelease (finalStatus s k n .endCancel) x.lzBase x.lzLen
      | .forwarded => forwardCancel s x
      | .opened => if x.load.isSome then s else cancelOpened s k n x
      | _ => s)

/-- RS_RETRANSMIT (R375): a segment goes out again; after 12 times the connection is abandoned and a live stream ends as a
client cancel. -/
def execRsRetransmit (k : Fin 4) (n seq : Nat) (s : State) : Host.Outcome State Fault Refusal :=
  .next (match s.conn k n with
    | none => s
    | some x =>
      match x.unacked.find? (fun g => decide (g.seq = seq)) with
      | none => s
      | some g =>
        let p := x.key.port
        if g.tries < 12 then
          let g' := { g with tries := g.tries + 1 }
          ((s.setConn k n (some { x with unacked := x.unacked.map (fun y => if y.seq = seq then g' else y) })).bump
            (portCtr p.val 0x28) 1).transmit p (rsPacket s x g')
        else
          let s1 := if x.phase = .opened then cancelOpened s k n x else if x.phase = .forwarded then forwardCancel s x else s
          let s2 := keepConn s1 k n ((s1.conn k n).getD x)
          (s2.bump32 (portCtr p.val 0x34) 1).event (portBlock p) .respAbandoned 0)

/-! ### Opening (R377 to R380, R424) -/

/-- The Helm whose half of the table has more free entries, HA on a tie (R288). -/
def ingressHelm (s : State) : Fin 2 := if s.freeSlots 0 < s.freeSlots 1 then 1 else 0

/-- The ingress threshold of a queue (R275). -/
def PortDie.thresh (x : PortDie) (h : Fin 2) : Nat := if h = 0 then x.threshA else x.threshB

/-- The three words of a REQ item: its header, of TYPE REQ from a port die, and its body (R266, R275, R380). -/
def reqBytes (h : Fin 2) (epoch : BitVec 8) (i : ReqItem) : List Byte :=
  toBytes 64 (2 + i.pd.val * 2 ^ 8 + h.val * 2 ^ 21 + epoch.toNat * 2 ^ 24 + 128 * 2 ^ 48 + 64 * 2 ^ 64)
    ++ toBytes 4 i.conn.toNat ++ toBytes 4 i.port.val ++ toBytes 4 i.lzBase ++ toBytes 4 (i.lzLen % 2 ^ 16)
    ++ toBytes 4 (i.pki % 2 ^ 16) ++ toBytes 44 i.crec ++ toBytes 64 i.head.toNat

/-- Landing-zone byte at which the spill region of an ingress queue begins: the eight regions fill the last 512 KiB, in the order of
port die and Helm (R371, log 95). -/
def ingressRegion (k : Fin 4) (h : Fin 2) : Nat := lzUnits * 4096 + (2 * k.val + h.val) * 65536

/-- The words from number `a` to `b` − 1 of an ingress queue are written to its spill region, which is used as a ring (R265). -/
def spillReq (s : State) (k : Fin 4) (h : Fin 2) (q : Ingress) (a b : Nat) : State :=
  let all := q.items.flatMap (reqBytes h q.epoch)
  (List.range (b - a)).foldl (fun s i =>
    lzPuts s (ingressRegion k h + (q.ptr.1 + a + i) % 1024 * 64) ((all.drop (64 * (a + i))).take 64)) s

/-- Send the REQ item of an opened request (R288, R380): it spends its credits, words that leave the tail registers are spilled, and
its threshold interrupts the Helm. -/
def sendReq (s : State) (k : Fin 4) (h : Fin 2) (i : ReqItem) : State :=
  let q := (s.pd k).ingress.get h
  let q' := { q with items := q.items ++ [i], credits := q.credits - 3 }.advance 0 3
  let s1 := s.setPd k { s.pd k with ingress := (s.pd k).ingress.set h.val q' h.isLt }
  let s2 := spillReq s1 k h q' (4 + spillWords q.words) (4 + spillWords q'.words)
  let t := (s.pd k).thresh h
  if q.words < t ∧ t ≤ q'.words then s2.emit (.ingressIrq k h) else s2

/-- The key that opens a request: its protection key index, or the refusal of a key that is not there (R377, R378). KEYID 0 names
the device KEM key, in hybrid mode (R424). -/
def openKey (s : State) (pre : Preamble) : Option Nat :=
  if pre.keyid = 0 then (if pre.hybrid then some 0 else none) else
  match s.keys.find? (fun k => decide (k.payload.keyid = pre.keyid)) with
  | none => none
  | some k => if pre.hybrid && !k.payload.hybrid then none else some k.payload.pki

/-- Bytes of the plaintext: the ciphertext without its tag. -/
def Conn.plainLen (x : Conn) : Nat := x.pre.clen - 16

/-- An Open that fails is refused in clear, and counted (R377, R385). -/
def openFail (s : State) (k : Fin 4) (n : Nat) (x : Conn) (c : Code) : State :=
  (refuseConn s k n c).bump32 (portCtr x.key.port.val 0x30) 1

/-- What the model does with the plaintext of a request (R379, R380, R424): it replaces the ciphertext, its tag position is zeroed, and
the response key is staged; a REQ item goes to a Helm, or a load request to the loader. A queue without room makes it wait. -/
def openPlain (s : State) (k : Fin 4) (n : Nat) (x : Conn) (pki : Nat) (b : List Byte) : State :=
  let w := plainHead b
  let y := { x with phase := .opened, sealed := true, staging := some (Config.responseKey s.drawn) }
  let s1 := lzPuts { s with drawn := s.drawn + 1 } (x.lzBase * 4096) (b ++ List.replicate 16 0)
  if x.pre.keyid = 0 then s1.setConn k n (some { y with sclass := 0, load := some (loadHeadOf w) }) else
  let hm := ingressHelm s
  if ((s.pd k).ingress.get hm).credits < 3 then s else
  sendReq (s1.setConn k n (some { y with sclass := (innerOf w).sclass.val })) k hm
    { crec := n, pd := k, port := x.key.port, conn := x.key.conn, lzBase := x.lzBase, lzLen := x.lzLen, pki := pki, head := w,
      bodyLen := b.length - 64 }

/-- REQUEST_OPEN (R377 to R380): a whole request is opened, or refused in clear. A plaintext is as long as its ciphertext without the
tag. -/
def execRequestOpen (k : Fin 4) (n : Nat) (r : OpenResult) (s : State) : Host.Outcome State Fault Refusal :=
  .next (match s.conn k n with
    | none => s
    | some x =>
      if x.phase ≠ .whole then s else
      match openKey s x.pre, r with
      | none, _ => openFail s k n x .refusedKey
      | some _, .authFail => openFail s k n x .refusedAuth
      | some pki, .plain b => if b.length = x.plainLen then openPlain s k n x pki b else s)

/-! ### Forwarding (R382) -/

/-- FORWARDED_REQUEST (R382): a request that came on channel 1 is taken whole, as if it had arrived on the link's port die; it
waits in the link while there is no record or no space. -/
def execForwardedRequest (l : Fin 8) (src : Nat) (key : ConnKey) (pre : Preamble) (body : List Byte) (s : State) :
    Host.Outcome State Fault Refusal :=
  let k := pdOf l
  .next (
    if s.linkUp l = false ∨ slotOn s.slotNo l ≠ src ∨ body.length ≠ pre.clen then s else
    let len := ceilDiv pre.clen 4096
    match s.parking, s.freeConn k, lzAlloc s len with
    | false, some n, some b =>
      let x := { Conn.start key pre b len with phase := .whole, runs := [(0, preTotal pre)], via := some l }
      lzPuts { s.setConn k n (some x) with lz := s.lz ++ [(b, len)] } (b * 4096) body
    | _, _, _ => s)

/-- Send a body that is already sealed as the next message of a connection. -/
def relay (s : State) (k : Fin 4) (n : Nat) (x : Conn) (kind : Nat) (body : List Byte) : State :=
  let segs := rsSegs x kind body
  sendBacklog (s.setConn k n (some { x with nextMsg := x.nextMsg + 1, nextRs := x.nextRs + segs.length,
                                            backlog := x.backlog ++ segs })) k n

/-- FORWARDED_RESPONSE (R382): a sealed body goes out on the client's connection; a STATUS is its last. -/
def execForwardedResponse (l : Fin 8) (key : ConnKey) (body : List Byte) (s : State) : Host.Outcome State Fault Refusal :=
  let k := pdOf key.port
  .next (if s.linkUp l = false then s else
    match s.findConn k key, body with
    | some (n, x), b :: rest =>
      if x.phase ≠ .forwarded then s else
      let s1 := relay s k n x b.toNat rest
      if b.toNat = 2 then
        match s1.conn k n with
        | none => s1
        | some y => s1.setConn k n (some { y with phase := .closing })
      else s1
    | _, _ => s)

end Sys2Proof.Machine
end

