-- ==== Sys2Proof/Machine/Groups.lean ====
section
/-! DEFINITION. Collective groups: formation, reduction, commit, multicast and pulls (R283, R346 to R366, R440). -/

namespace Sys2Proof.Machine

/-! ### Sending (R345, R346, R363) -/

/-- The link to a module: direct within the node, routed through the group's port die to another node. -/
def moduleLink (s : State) (gid node slot : Nat) : Option LinkId :=
  if node = s.node then (s.linkTo slot).map .direct else some (.routed (pdOfGroup gid) node slot)

/-- A routed link is made for the first collective traffic that needs it (R346). -/
def makeRouted (s : State) (i : LinkId) : State :=
  if (s.link i).isNone && s.mayRoute i then sendHandshake (s.setLink i Link.init) i .handshaking else s

/-- Send a message of `n` bytes to a module on the group's channel (R345); one to this module itself goes on no link. Where no direct
link to the module is up the message is lost (R341). -/
def sendModule (s : State) (gid node slot n : Nat) (e : Emit) : State :=
  if node = s.node ∧ slot = s.slotNo then s.emit e else
  match moduleLink s gid node slot with
  | none => s
  | some i => sendBytes (makeRouted s i) i (2 + gid) n e

/-- Send a message to a member. -/
def sendMember (s : State) (gid : Nat) (g : Group) (r n : Nat) (e : Emit) : State := sendModule s gid (g.nodeOf r) (g.slotOf r) n e

/-- Bytes of a control message of a group (log 44). -/
def ctlBytes : Nat := 64

/-- Send a control message to a member of the roster, by its index. -/
def sendRoster (s : State) (gid : Nat) (c : GroupRec) (i n : Nat) (e : Emit) : State :=
  match c.roster[i]? with
  | none => s
  | some m => sendModule s gid m.node m.slot n e

/-- Bytes of a chunk (R354): its header, its values of `w` bytes and its exponents of `x` bytes. -/
def chunkBytes (c : Chunk) (w x : Nat) : Nat := 32 + c.groups.length * (32 * w + x)

/-- Send a chunk: it is counted, and it goes out on the member's link. -/
def sendChunk (s : State) (gid : Nat) (g : Group) (r w x : Nat) (c : Chunk) (e : Emit) : State :=
  sendMember (collCtr s gid 0x1408 1) gid g r (chunkBytes c w x) e

/-- A chunk of this member. -/
def mkChunk (gid : Nat) (g : Group) (cstep blk n : Nat) (inc : Bool) (l : List Grp) : Chunk :=
  { gid := gid, cstep := cstep, blk := blk, rank := g.rank, ncount := n, incomplete := inc, groups := l }

/-! ### Shards (R360, R361) -/

/-- SHARD_DONE to the leader, with INCOMPLETE or without. -/
def sendShard (s : State) (gid : Nat) (g : Group) (inc : Bool) : State := sendMember s gid g 0 ctlBytes (.shardDone gid inc)

/-- The owner reports INCOMPLETE, once in a step. -/
def reportIncomplete (s : State) (gid : Nat) (g : Group) : State × Group :=
  if g.incomplete then (s, g) else (sendShard s gid g true, { g with incomplete := true })

/-- An owned block of the step has been updated; after the last one the owner reports. -/
def blockUpdated (s : State) (gid : Nat) (g : Group) (blk : Nat) : State × Group :=
  let g' := { g with updated := g.updated ++ [blk] }
  if g'.incomplete = false ∧ g'.owned.all (fun b => decide (b ∈ g'.updated)) = true then (sendShard s gid g' false, g') else (s, g')

/-! ### The fold (R357) -/

/-- The node sums of a block that have arrived, in ascending NODE_ID. -/
def Group.foldOf (g : Group) (blk : Nat) : Option Sum × Nat :=
  let got := g.nodes.filterMap (fun n => (g.partials.find? (fun p => decide (p.1 = stepKey g.cstep blk ∧ p.2.1 = n))).map (·.2.2))
  got.foldl (fun a t => pairOf a (some t, 0)) (none, 0)

/-- Have the node sums of every node arrived? -/
def Group.allPartials (g : Group) (blk : Nat) : Bool :=
  g.nodes.all (fun n => g.partials.any (fun p => decide (p.1 = stepKey g.cstep blk ∧ p.2.1 = n)))

/-- The owner folds a block and updates it, once every node sum is there; `late` proceeds without those that are missing. -/
def tryFold (s : State) (gid : Nat) (g : Group) (blk : Nat) (late : Bool) : State × Group :=
  if blk ∈ g.updated ∨ g.incomplete = true ∨ (late = false ∧ g.allPartials blk = false) then (s, g) else
  match g.foldOf blk with
  | (none, _) => (s, g)
  | (some t, n) =>
    let s1 := collCtr32 (collCtr32 s gid 0x1418 n) gid 0x1420 (b2n (late && !g.allPartials blk))
    blockUpdated (optimise s1 gid g blk t) gid g blk

/-- A node sum of this step reaches the owner. -/
def takePartial (s : State) (gid : Nat) (g : Group) (cstep blk node : Nat) (t : Sum) (inc : Bool) : State × Group :=
  if inc then (if cstep = g.cstep then reportIncomplete s gid g else (s, g)) else
  if g.partials.any (fun p => decide (p.1 = stepKey cstep blk ∧ p.2.1 = node)) = true ∨ (cstep = g.cstep ∧ blk ∈ g.updated) then (s, g)
  else tryFold s gid { g with partials := g.partials ++ [(stepKey cstep blk, node, t)] } blk false

/-! ### Node sums (R356) -/

/-- The contribution of slot `o` of this node to a block. -/
def Group.contribOf (g : Group) (blk o : Nat) : Option Sum :=
  (g.contribs.find? (fun c => decide (c.1 = stepKey g.cstep blk ∧ g.nodeOf c.2.1 = g.nodeOf g.rank ∧ g.slotOf c.2.1 = o))).map (·.2.2)

/-- Send a node sum to its owner, or take it where the owner is this module. A sum that proceeds without any contribution is none, and
nothing is sent (R361). -/
def giveSum (s : State) (gid : Nat) (g : Group) (blk : Nat) (t : Option Sum) (inc : Bool) : State × Group :=
  let node := g.nodeOf g.rank
  let sum : Sum := match t with | none => { groups := [], n := 0 } | some t => t.toPartial
  let g' := { g with summed := g.summed ++ [blk] }
  if inc = false ∧ t.isNone = true then (s, g')
  else if g.owner blk = g.rank then takePartial s gid g' g.cstep blk node sum inc
  else
    let c := mkChunk gid g g.cstep blk sum.n inc sum.groups
    (sendChunk s gid g (g.owner blk) 4 2 c (.partialSum gid (g.owner blk) c), g')

/-- Form the node sum of a block once every formed member of the node has contributed; `late` proceeds without. -/
def trySum (s : State) (gid : Nat) (g : Group) (blk : Nat) (late : Bool) : State × Group :=
  let mine := g.inNode (g.nodeOf g.rank)
  let all := mine.all (fun r => (g.contribOf blk (g.slotOf r)).isSome)
  if g.sumServer blk ≠ g.rank ∨ blk ∈ g.summed ∨ (late = false ∧ all = false) then (s, g) else
  let t := nodeTree (g.contribOf blk)
  giveSum (collCtr32 (collCtr32 s gid 0x1418 t.2) gid 0x1420 (b2n (late && !all))) gid g blk t.1 false

/-- A contribution of a member of the node joins a block's node sum; one that comes after the sum is discarded (R361). -/
def takeContrib (s : State) (gid : Nat) (g : Group) (cstep blk rank : Nat) (t : Sum) : State × Group :=
  if g.contribs.any (fun c => decide (c.1 = stepKey cstep blk ∧ c.2.1 = rank)) = true ∨ (cstep = g.cstep ∧ blk ∈ g.summed) then (s, g)
  else trySum s gid { g with contribs := g.contribs ++ [(stepKey cstep blk, rank, t)] } blk false

/-- This member's contribution to one block goes to the server of its node sum (R351, R356). One that cannot be read is
missing. -/
def contribute (gid : Nat) (a : State × Group) (blk : Nat) : State × Group :=
  match readContrib a.1 a.2 blk with
  | none => a
  | some l =>
    let g := a.2
    if g.sumServer blk = g.rank then takeContrib a.1 gid g g.cstep blk g.rank { groups := l, n := 1 }
    else
      let c := mkChunk gid g g.cstep blk 1 false l
      (sendChunk a.1 gid g (g.sumServer blk) 1 1 c (.contrib gid (g.sumServer blk) c), g)

/-! ### Commands on a formed group -/

/-- Put a group back with the state it left. -/
def putGroup (gid : Nat) (r : State × Group) : State := r.1.setGroup gid (some r.2)

/-- A command for a group that is formed on this module; of any other it has no effect. -/
def onGroup (s : State) (gid : Nat) (f : Group → State) : Host.Outcome State Fault Refusal :=
  .next (match s.group gid with
    | none => s
    | some g => if g.phase = .formed then f g else s)

/-- The contributions of the layers that wait go out. -/
def contributeDue (gid : Nat) (a : State × Group) : State × Group :=
  (a.2.layersDue.flatMap a.2.cfg.layerBlks).foldl (contribute gid) (a.1, { a.2 with layersDue := [] })

/-- LAYER_DOORBELL_COMPLETE (R352, R356): the layer is complete on this module, its contributions go out, and its deadline
begins. A receiver that still pulls blocks sends none before its catch-up completes (R364). -/
def execLayerDoorbellComplete (gid : Fin 16) (layer : Nat) (s : State) : Host.Outcome State Fault Refusal :=
  onGroup s gid (fun g =>
    if layer ∈ g.layersDone ∨ g.cfg.layers.length ≤ layer then s else
    let g' := { g with layersDone := g.layersDone ++ [layer], layersDue := g.layersDue ++ [layer] }
    putGroup gid (if g.pulling = [] then contributeDue gid (s, g') else (s, g')))

/-- A chunk that has come whole is counted, unless PARK turns it away (R440). -/
def chunkIn (s : State) (gid : Nat) : State := collCtr s gid 0x1400 1

/-- Is a chunk of the form that the group expects: the block's groups, each with 32 values, from at least one member? -/
def chunkOk (g : Group) (c : Chunk) : Bool :=
  decide (c.blk < g.cfg.nBlk) && decide (c.groups.length = g.cfg.elems c.blk / 32) && c.groups.all (fun q => decide (q.v.length = 32))
    && decide (1 ≤ c.ncount) && decide (c.rank < g.nf)

/-- May a chunk belong to a step of the group's configuration: the step that runs, or the next one, which a member that has had its
COMMIT earlier has begun (R362, log 96)? -/
def Group.inStep (g : Group) (cstep : Nat) : Bool := decide (g.cstep ≤ cstep ∧ cstep ≤ g.cstep + 1)

/-- A chunk that comes whole is counted (R366), and taken by `f` where its group is formed. -/
def onChunk (s : State) (gid : Nat) (f : State → Group → State) : Host.Outcome State Fault Refusal :=
  if s.pwr.park then .next s else onGroup (chunkIn s gid) gid (f (chunkIn s gid))

/-- CONTRIB_CHUNK (R356, R361, R362): a chunk of an older step, of no formed group, or after its sum is discarded. -/
def execContribChunk (c : Chunk) (s : State) : Host.Outcome State Fault Refusal :=
  onChunk s c.gid (fun s1 g =>
    if g.inStep c.cstep = false ∨ chunkOk g c = false ∨ g.sumServer c.blk ≠ g.rank ∨ g.nodeOf c.rank ≠ g.nodeOf g.rank then s1
    else putGroup c.gid (takeContrib s1 c.gid g c.cstep c.blk c.rank { groups := c.groups, n := c.ncount }))

/-- PARTIAL_CHUNK (R357, R361): a node sum reaches the owner, marked INCOMPLETE or not. -/
def execPartialChunk (c : Chunk) (node : Nat) (s : State) : Host.Outcome State Fault Refusal :=
  onChunk s c.gid (fun s1 g =>
    if g.inStep c.cstep = false ∨ (c.incomplete = false ∧ chunkOk g c = false) ∨ g.owner c.blk ≠ g.rank ∨ decide (node ∈ g.nodes) = false then s1
    else putGroup c.gid (takePartial s1 c.gid g c.cstep c.blk node { groups := c.groups, n := c.ncount } c.incomplete))

/-- One block of a layer at its deadline (R361). -/
def blockLate (gid : Nat) (a : State × Group) (blk : Nat) : State × Group :=
  let g := a.2
  let serve := decide (g.sumServer blk = g.rank) && !decide (blk ∈ g.summed)
  if g.cfg.rmode then
    let b := if serve then trySum a.1 gid g blk true else a
    if b.2.owner blk = b.2.rank then tryFold b.1 gid b.2 blk true else b
  else
    let b := if serve then giveSum a.1 gid g blk none true else a
    if b.2.owner blk = b.2.rank ∧ ¬(blk ∈ b.2.updated) then reportIncomplete b.1 gid b.2 else b

/-- COLL_DEADLINE (R361): 2^DL_LOG2 control cycles after the module's own doorbell for the layer. -/
def execCollDeadline (gid : Fin 16) (layer : Nat) (s : State) : Host.Outcome State Fault Refusal :=
  onGroup s gid (fun g =>
    if layer ∈ g.deadlines ∨ decide (layer ∈ g.layersDone) = false then s else
    putGroup gid ((g.cfg.layerBlks layer).foldl (blockLate gid) (s, { g with deadlines := g.deadlines ++ [layer] })))

/-! ### Formation (R347 to R352) -/

/-- Register the doorbell records for the next step (R352). -/
def initBells (s : State) (gid : Nat) (g : Group) : State :=
  (List.range g.cfg.layers.length).foldl (fun s i =>
    match g.cfg.layers[i]? with
    | none => s
    | some e =>
      match ctrInit s g.cfg.pat (s.pat g.cfg.pat) (segAddr g.cfg.cseg (g.cfg.bell i)) 0 e.nCore 0 false (some (gid, i)) with
      | .ok s' => s'
      | .error _ => s) s

/-- Write the status record (R351). -/
def writeStatus (s : State) (g : Group) : State :=
  grpPut s g.cfg.pat g.cfg.cseg g.cfg.status
    (toBytes 64 (g.cstep % 2 ^ 32 + g.nf % 2 ^ 12 * 2 ^ 32 + g.rank % 2 ^ 12 * 2 ^ 44))

/-- The next step's round: nothing of an older step is kept, and the records are ready. -/
def newRound (s : State) (gid : Nat) (g : Group) : State × Group :=
  let newer (k : Nat) : Bool := decide (stepKey g.cstep 0 ≤ k)
  let g' := { g with layersDone := [], deadlines := [], summed := [], updated := [], shards := [], incomplete := false,
                     decided := false, layersDue := [], contribs := g.contribs.filter (fun c => newer c.1), partials := g.partials.filter (fun c => newer c.1) }
  (writeStatus (initBells s gid g') g', g')

/-- A module's place in a roster. -/
def rosterIndex (s : State) (c : GroupRec) : Option Nat :=
  (List.range c.roster.length).find? (fun i =>
    match c.roster[i]? with | none => false | some e => decide (e.node = s.node ∧ e.slot = s.slotNo))

/-- The module's own ARITH_REV. -/
def State.arith (s : State) : Nat := match s.config with | none => 0 | some c => c.arithRev

/-- JOIN (R349): the leader compares a member's hash and revision with its own. -/
def execJoin (gid : Fin 16) (rank : Nat) (hash : BitVec 384) (arithRev : Nat) (s : State) : Host.Outcome State Fault Refusal :=
  .next (match s.group gid with
    | none => s
    | some g =>
      if g.phase ≠ .joining ∨ rosterIndex s g.cfg ≠ some 0 ∨ g.joins.any (fun j => decide (j.1 = rank)) = true
          ∨ g.cfg.roster.length ≤ rank then s
      else s.setGroup gid (some { g with joins := g.joins ++ [(rank, decide (hash = g.hash), decide (arithRev = s.arith))] }))

/-- JOIN_WINDOW_END (R349): the leader admits in roster order the members that agree, and sends FORMED to every member. -/
def execJoinWindowEnd (gid : Fin 16) (s : State) : Host.Outcome State Fault Refusal :=
  .next (match s.group gid with
    | none => s
    | some g =>
      if g.phase ≠ .joining ∨ rosterIndex s g.cfg ≠ some 0 then s else
      let ok (i : Nat) : Bool := g.joins.any (fun j => decide (j.1 = i) && j.2.1 && j.2.2)
      let ranks := (List.range g.cfg.roster.length).filter ok
      (List.range g.cfg.roster.length).foldl (fun s i =>
        sendRoster s gid g.cfg i (ctlBytes + 2 * ranks.length) (.formed gid i ranks)) s)

/-- FORMED (R349, R350): a member takes its rank and initialises what it owns; one that is not listed logs why, by the
revision of its link to the leader (log 47). -/
def execFormed (gid : Fin 16) (ranks : List Nat) (s : State) : Host.Outcome State Fault Refusal :=
  .next (match s.group gid with
    | none => s
    | some g =>
      if g.phase ≠ .joining then s else
      match (rosterIndex s g.cfg).bind (fun i => (List.range ranks.length).find? (fun r => decide (ranks[r]? = some i))) with
      | none =>
        let led := g.cfg.roster.head?
        let rev := (led.bind (fun e => (((fins 8).map LinkId.direct ++ s.routed.map (·.1)).filterMap s.link).find?
          (fun x => decide (x.peerNode = e.node ∧ x.peerSlot = e.slot)))).map (·.peerArith)
        let code : Code := match rev with
          | some r => if r = s.arith then .collCfgMismatch else .collRevExcluded
          | none => .collCfgMismatch
        (s.setGroup gid (some { g with phase := .excluded })).event (groupBlock gid) code
          (groupDetail gid 0 (led.elim 0 (·.node)) (led.elim 0 (·.slot)) (rev.getD 0))
      | some r =>
        let g1 := { g with phase := .formed, members := ranks, rank := r, cstep := 0, casts := [], written := [], pulling := [] }
        putGroup gid (newRound (g1.owned.foldl (initBlock g1) s) gid g1))

/-- GROUP_NOLEADER (R349). -/
def execGroupNoleader (gid : Fin 16) (s : State) : Host.Outcome State Fault Refusal :=
  .next (match s.group gid with
    | none => s
    | some g =>
      if g.phase ≠ .joining then s else
      let led := g.cfg.roster.head?
      s.event (groupBlock gid) .groupNoleader (groupDetail gid 0 (led.elim 0 (·.node)) (led.elim 0 (·.slot)) 0))

/-! ### The leader (R360, R361) -/

/-- Is this module the leader: the first formed member? -/
def Group.leads (g : Group) : Bool := decide (g.rank = 0)

/-- Ranks that own blocks. -/
def Group.owners (g : Group) : List Nat := (List.range g.nf).filter (fun r => decide (r < g.cfg.nBlk))

/-- Send COMMIT or ABORT to every formed member. -/
def sendCommit (s : State) (gid : Nat) (g : Group) : State :=
  (List.range g.nf).foldl (fun s r => sendMember s gid g r ctlBytes (.commit gid r)) s
def sendAbort (s : State) (gid : Nat) (g : Group) : State :=
  (List.range g.nf).foldl (fun s r => sendMember s gid g r ctlBytes (.abort gid r)) s

/-- SHARD_DONE (R360): any INCOMPLETE aborts the step, and the last owner's report commits it, once. -/
def execShardDone (gid : Fin 16) (rank : Nat) (incomplete : Bool) (s : State) : Host.Outcome State Fault Refusal :=
  onGroup s gid (fun g =>
    if g.leads = false ∨ g.shards.any (fun e => decide (e.1 = rank)) = true ∨ decide (rank ∈ g.owners) = false then s else
    let g' := { g with shards := g.shards ++ [(rank, incomplete)] }
    let done := s.setGroup gid (some { g' with decided := true })
    if g.decided then s.setGroup gid (some g')
    else if incomplete then sendAbort done gid g'
    else if g'.owners.all (fun r => g'.shards.any (fun e => decide (e.1 = r))) then sendCommit done gid g'
    else s.setGroup gid (some g'))

/-- LEADER_STEP_TIMEOUT (R360, R361): without every SHARD_DONE the leader sends ABORT; in deadline mode it commits, and the owners
that have not reported are logged. -/
def execLeaderStepTimeout (gid : Fin 16) (s : State) : Host.Outcome State Fault Refusal :=
  onGroup s gid (fun g =>
    let late := g.owners.filter (fun r => !g.shards.any (fun e => decide (e.1 = r)))
    let done := s.setGroup gid (some { g with decided := true })
    if g.leads = false ∨ g.decided = true ∨ late = [] ∨ g.layersDone.length < g.cfg.layers.length then s
    else if g.cfg.rmode then sendCommit (late.foldl (fun s r => groupEvent s gid g .collShardSkipped r) done) gid g
    else sendAbort done gid g)

/-! ### Multicast (R363) -/

/-- The receivers that a chunk reaches through a member it is sent to: itself, and where it serves the owner's slot in another
node, the other formed members of that node. -/
def Group.reach (g : Group) (r : Nat) : List Nat :=
  if g.nodeOf r = g.nodeOf g.rank then [r] else g.inNode (g.nodeOf r)

/-- The members to which this owner sends: its own node's others, and the server of its slot in every other node. -/
def Group.targets (g : Group) : List Nat :=
  (g.inNode (g.nodeOf g.rank)).filter (fun r => decide (r ≠ g.rank))
    ++ (g.nodes.filter (fun n => decide (n ≠ g.nodeOf g.rank))).map (fun n => g.server n (g.slotOf g.rank))

/-- Blocks in flight to a receiver. -/
def Group.inFlightTo (g : Group) (r : Nat) : Nat :=
  (g.casts.filter (fun c => decide (r ∈ c.waiting) && c.sent.any (fun t => decide (r ∈ g.reach t)))).length

/-- Is there credit for one block more to everyone behind a target? -/
def Group.creditFor (g : Group) (c : Cast) (t : Nat) : Bool :=
  (g.reach t).all (fun r => !decide (r ∈ c.waiting) || decide (g.inFlightTo r < g.cfg.mcCred))

/-- The first chunk that may go to a target. -/
def Group.nextCast (g : Group) : Option (Cast × Nat) :=
  g.casts.findSome? (fun c => (g.targets.find? (fun t =>
    !decide (t ∈ c.sent) && (g.reach t).any (fun r => decide (r ∈ c.waiting)) && g.creditFor c t)).map (fun t => (c, t)))

/-- Send chunks while there is credit. -/
def castGo (gid : Nat) : Nat → State × Group → State × Group
  | 0, a => a
  | n + 1, a =>
    match a.2.nextCast with
    | none => a
    | some (c, t) =>
      let g := a.2
      let k := mkChunk gid g c.cstep c.blk g.nf false c.groups
      castGo gid n (sendChunk a.1 gid g t g.cfg.rb 1 k (.update gid t k),
        { g with casts := g.casts.map (fun x => if x = c then { x with sent := x.sent ++ [t] } else x) })

/-- Send what can be sent. -/
def castAll (gid : Nat) (a : State × Group) : State × Group := castGo gid (a.2.casts.length * a.2.nf) a

/-- The Pattern's next dispatch and its gated output wait no longer for this group (R365). -/
def releaseHold (s : State) (gid : Nat) (g : Group) : State :=
  match s.pat g.cfg.pat with
  | none => s
  | some p => s.setPat g.cfg.pat { p with updateHold := p.updateHold.filter (fun x => decide (x ≠ gid)) }

/-- UPDATE_DONE (R365): every block of the committed step is in the replica, and nothing is being pulled. -/
def updateDone (s : State) (gid : Nat) (g : Group) : State :=
  if g.cstep = 0 ∨ g.pulling ≠ [] then s
  else if (List.range g.cfg.nBlk).all (fun b => decide ((g.cstep - 1, b) ∈ g.written)) then releaseHold s gid g else s

/-- A block of a step is in the replica. -/
def Group.wrote (g : Group) (cstep blk : Nat) : Group :=
  if (cstep, blk) ∈ g.written then g else { g with written := g.written ++ [(cstep, blk)] }

/-- Has this owner sent its SHARD_DONE: are all its blocks of the step updated? -/
def Group.shardSent (g : Group) : Bool := g.owned.all (fun b => decide (b ∈ g.updated))

/-- An owned block goes out after COMMIT; from an owner that sent no SHARD_DONE it goes with its previous values (R361). -/
def castBlock (a : State × Group) (blk : Nat) : State × Group :=
  let g := a.2
  let s1 := if g.shardSent then a.1 else keepBlock a.1 g blk
  let l := readPub s1 g blk (g.cstep % 2)
  let others := (List.range g.nf).filter (fun r => decide (r ≠ g.rank))
  (writeReplica s1 g blk l,
   { g.wrote g.cstep blk with casts := g.casts ++ (if others = [] then [] else
       [{ blk := blk, cstep := g.cstep, waiting := others, sent := [], groups := l }]) })

/-- COLL_COMMIT (R360, R363): CSTEP rises, the owner's blocks enter its replica, and it multicasts them. Chunks of an earlier step are
kept until they are acknowledged. -/
def execCollCommit (gid : Fin 16) (s : State) : Host.Outcome State Fault Refusal :=
  onGroup s gid (fun g =>
    let a := g.owned.foldl castBlock (s, g)
    let g1 := { a.2 with cstep := g.cstep + 1, written := a.2.written.filter (fun e => decide (g.cstep ≤ e.1)) }
    let b := castAll gid (newRound a.1 gid g1)
    updateDone (putGroup gid b) gid b.2)

/-- Set bit 1 of the flag words of the Pattern's oldest step (R361). -/
def markAgain (s : State) (pi : Nat) : State :=
  match s.helm.steps.find? (fun t => decide (t.pat = pi)) with
  | none => s
  | some t => s.mapSteps (fun u => if u.pat = pi ∧ u.seq = t.seq then { u with again := true } else u)

/-- COLL_ABORT (R360, R361, R365): nothing is published; the step is to be repeated. The hold ends, unless blocks of the step before
are still to come, so that no step reads a replica that is partly updated. -/
def execCollAbort (gid : Fin 16) (s : State) : Host.Outcome State Fault Refusal :=
  onGroup s gid (fun g =>
    let s1 := collCtr32 (groupEvent s gid g .stepIncomplete g.rank) gid 0x1420 1
    let g1 := { g with contribs := [], partials := [] }
    let s2 := markAgain (putGroup gid (newRound s1 gid g1)) g.cfg.pat
    if g.cstep = 0 then releaseHold s2 gid g else updateDone s2 gid g)

/-- A group goes: its doorbells are unregistered, its Pattern waits no longer for it, and routed links that no group needs
close (R346). -/
def dropGroup (s : State) (gid : Nat) (g : Group) : State :=
  let s1 := (releaseHold s gid g).setGroup gid none
  let needed (n o : Nat) : Bool := s1.groups.any (fun e =>
    match e.2 with | none => false | some h => h.cfg.roster.any (fun m => decide (m.node = n ∧ m.slot = o)))
  let s2 := s1.mapVaults (fun v => { v with ctrs := v.ctrs.filter (fun r =>
    match r.notify with | some (q, _) => !decide (q = gid) | none => true) })
  { s2 with
    routed := s1.routed.filter (fun e => match e.1 with | .routed _ n o => needed n o | .direct _ => true) }

/-- GROUP_LOST (R360). -/
def execGroupLost (gid : Fin 16) (s : State) : Host.Outcome State Fault Refusal :=
  onGroup s gid (fun g => dropGroup (groupEvent s gid g .groupLost 0) gid g)

/-- UPDATE_CHUNK (R362, R363): the chunk is written into the replica, acknowledged to its owner, and passed on within the node by
the member that serves the owner's slot. -/
def execUpdateChunk (c : Chunk) (s : State) : Host.Outcome State Fault Refusal :=
  onChunk s c.gid (fun s1 g =>
    let o := g.owner c.blk
    if c.cstep + 1 < g.cstep ∨ g.cstep < c.cstep ∨ chunkOk g c = false ∨ o = g.rank then s1 else
    let node := g.nodeOf g.rank
    let pass := decide (g.nodeOf o ≠ node) && decide (g.server node (g.slotOf o) = g.rank)
    let s2 := sendMember (writeReplica s1 g c.blk c.groups) c.gid g o ctlBytes (.updateAck c.gid o c.blk)
    let s3 := if pass then ((g.inNode node).filter (fun r => decide (r ≠ g.rank))).foldl
        (fun s r => sendChunk s c.gid g r g.cfg.rb 1 c (.update c.gid r c)) s2 else s2
    let g' := g.wrote c.cstep c.blk
    updateDone (s3.setGroup c.gid (some g')) c.gid g')

/-- A receiver has acknowledged a block: the oldest chunk of it that waits for the receiver waits no longer. -/
def ackCast (blk rank : Nat) : List Cast → List Cast
  | [] => []
  | c :: l =>
    if c.blk = blk ∧ rank ∈ c.waiting then { c with waiting := c.waiting.filter (fun r => decide (r ≠ rank)) } :: l
    else c :: ackCast blk rank l

/-- UPDATE_ACK (R363): the owner keeps a chunk until every receiver has acknowledged it. -/
def execUpdateAck (gid : Fin 16) (blk rank : Nat) (s : State) : Host.Outcome State Fault Refusal :=
  onGroup s gid (fun g =>
    let cs := ackCast blk rank g.casts
    putGroup gid (castAll gid (s, { g with casts := cs.filter (fun c => decide (c.waiting ≠ [])) })))

/-- MC_DROPPED (R363): the owner drops a receiver from this step's multicast. -/
def execMcDropped (gid : Fin 16) (rank : Nat) (s : State) : Host.Outcome State Fault Refusal :=
  onGroup s gid (fun g =>
    if g.casts.all (fun c => !decide (rank ∈ c.waiting)) then s else
    let cs := g.casts.map (fun c => { c with waiting := c.waiting.filter (fun r => decide (r ≠ rank)) })
    let s1 := sendMember (collCtr32 (groupEvent s gid g .mcDropped rank) gid 0x1424 1) gid g rank ctlBytes (.dropped gid rank)
    putGroup gid (castAll gid (s1, { g with casts := cs.filter (fun c => decide (c.waiting ≠ [])) })))

/-! ### Pulls (R364) -/

/-- Ask the owner of the first block that is being pulled for it. -/
def pullNext (s : State) (gid : Nat) (g : Group) : State :=
  match g.pulling with
  | [] => s
  | (_, b) :: _ => sendMember s gid g (g.owner b) ctlBytes (.pull gid (g.owner b) b)

/-- DROPPED (R364): the receiver pulls every block of the step that it has not got from that owner, one after another. -/
def execDropped (gid : Fin 16) (owner : Nat) (s : State) : Host.Outcome State Fault Refusal :=
  onGroup s gid (fun g =>
    if g.cstep = 0 then s else
    let lack := (List.range g.cfg.nBlk).filter (fun b =>
      decide (g.owner b = owner) && !decide ((g.cstep - 1, b) ∈ g.written) && !decide ((g.cstep - 1, b) ∈ g.pulling))
    let g' := { g with pulling := g.pulling ++ lack.map (fun b => (g.cstep - 1, b)) }
    let s1 := s.setGroup gid (some g')
    if g.pulling = [] then pullNext s1 gid g' else s1)

/-- PULL (R364): the owner answers from its published copy of the newest committed bank. -/
def execPull (gid : Fin 16) (blk rank : Nat) (s : State) : Host.Outcome State Fault Refusal :=
  onGroup s gid (fun g =>
    if g.cstep = 0 ∨ g.owner blk ≠ g.rank ∨ g.cfg.nBlk ≤ blk then s else
    let c := mkChunk gid g (g.cstep - 1) blk g.nf false (readPub s g blk ((g.cstep - 1) % 2))
    sendChunk (collCtr s gid 0x1410 1) gid g rank g.cfg.rb 1 c (.pullAnswer gid rank c))

/-- PULL_ANSWER (R364): the block is written; an answer newer than the pulled step is logged. With the last one the catch-up
completes, and the contributions that waited for it go out. -/
def execPullAnswer (c : Chunk) (s : State) : Host.Outcome State Fault Refusal :=
  onChunk s c.gid (fun s1 g =>
    match g.pulling with
    | [] => s1
    | (st, b) :: rest =>
      if b ≠ c.blk ∨ c.cstep < st ∨ chunkOk g c = false then s1 else
      let s2 := collCtr (writeReplica s1 g b c.groups) c.gid 0x1410 1
      let s3 := if st < c.cstep then groupEvent s2 c.gid g .mcSkew (g.owner b) else s2
      let g' := { (g.wrote st b).wrote c.cstep b with pulling := rest }
      let s4 := pullNext (s3.setGroup c.gid (some g')) c.gid g'
      let s5 := updateDone s4 c.gid g'
      if rest = [] then putGroup c.gid (contributeDue c.gid (s5, g')) else s5)

/-! ### The reduction units' watchdog (R283, R362) -/

/-- A reduction unit's hold has been ended: its block is INCOMPLETE in either mode, and COLL_HANG is logged. -/
def hangReduction (s : State) (pd : Fin 4) (gid blk : Nat) : State :=
  match s.group gid with
  | none => s.event (4 + pd.val) .collHang (groupDetail gid 0 0 0 0)
  | some g =>
    let s1 := s.event (4 + pd.val) .collHang (groupDetail gid g.cstep 0 0 0)
    if g.phase ≠ .formed then s1
    else if g.owner blk = g.rank then putGroup gid (reportIncomplete s1 gid g)
    else if g.sumServer blk = g.rank ∧ ¬(blk ∈ g.summed) then putGroup gid (giveSum s1 gid g blk none true)
    else s1

/-- A hung Darning copy is abandoned (R283): a page move whose copy has not ended stops and its new frame returns to the pool, as
after an uncorrectable read (R320), and a word that waits to be rebuilt there is lost (log 93). -/
def abandonCopy (s : State) (v : Nat) : State :=
  let gone := s.helm.migs.filter (fun m => !m.copied && decide (m.oldF / 16384 = v))
  let s1 := gone.foldl (fun s m => s.takeFrames m.newF 1 false)
    { s with helm := { s.helm with migs := s.helm.migs.filter (fun m => m.copied || !decide (m.oldF / 16384 = v)) } }
  let words := s1.helm.darn.filter (fun d => decide (physVault d.addr = v))
  words.foldl (fun s d => loseWord (faultIssuer (holdIssuer s d.issuer false) d.issuer d.addr) d.addr)
    { s1 with helm := { s1.helm with darn := s1.helm.darn.filter (fun d => !decide (physVault d.addr = v)) } }

/-- RESOURCE_HANG (R282, R283): a hold of 65,536 cycles ends. A core's engine is faulted; any other holder's block logs the
event. A preempted holder's progress on the resource is dropped with the hold. -/
def execResourceHang (res : Resource) (holder : Holder) (s : State) : Host.Outcome State Fault Refusal :=
  let s0 := { s with preempted := s.preempted.filter (fun e => decide (e.1 ≠ res)) }
  match holder with
  | .engine c eng => onCore s0 c (fun _ => faultEngine s0 c eng .resourceHang 0)
  | .vaultTask v => if Config.nSites ≤ v then .fault .noSuchVault else .next (s0.event (dieBlock (dieOfSite v)) .resourceHang 0)
  | .darning =>
    let s1 := s0.event 2 .resourceHang 0
    .next (match res with | .vaultPort v => abandonCopy s1 v | .nmuPath v => abandonCopy s1 v | _ => s1)
  | .reduction pd gid blk => .next (hangReduction (s0.event (4 + pd.val) .resourceHang 0) pd gid blk)

/-! ### Sealed COLL_FORM and COLL_DISSOLVE (R347, R348) -/

/-- Layers that cover the blocks in ascending order without gaps. -/
def layersCover : Nat → List LayerEnt → Option Nat
  | n, [] => some n
  | n, e :: l => if e.firstBlk = n then layersCover (n + e.nBlk) l else none

/-- A roster that ascends strictly by node and then slot. -/
def rosterRises : List RosterEnt → Bool
  | a :: b :: l => decide (a.node < b.node ∨ (a.node = b.node ∧ a.slot < b.slot)) && rosterRises (b :: l)
  | _ => true

/-- Distinct modules in other nodes that the rosters name. -/
def foreignModules (s : State) (l : List GroupRec) : Nat :=
  ((l.flatMap (·.roster)).filter (fun e => decide (e.node ≠ s.node))).map (fun e => (e.node, e.slot)) |>.dedup.length

/-- The checks of R348. -/
def collBad (s : State) (c : GroupRec) : Bool :=
  let seg (n : Nat) : Option Segment := (s.pat c.pat).bind (fun p => p.segs[n]?)
  let others := s.groups.filterMap (fun e => match e.2 with | none => none | some g => if e.1 = c.gid.val then none else some g.cfg)
  !c.reservedOk || decide (1 < c.rule) || decide (c.roster.length < 1 ∨ 4096 < c.roster.length)
    || decide (c.dlLog2 < 16 ∨ 31 < c.dlLog2 ∨ c.mcLog2 < 16 ∨ 31 < c.mcLog2 ∨ c.mcCred < 1 ∨ 64 < c.mcCred)
    || decide (c.retype ≠ 1 ∧ c.retype ≠ 2) || decide (c.nelem % 32 ≠ 0)
    || decide (c.layers.length < 1 ∨ 255 < c.layers.length) || c.layers.any (fun e => decide (e.nCore < 1 ∨ 4224 < e.nCore))
    || decide (layersCover 0 c.layers ≠ some c.nBlk) || !rosterRises c.roster || (rosterIndex s c).isNone
    || (match seg c.tseg, seg c.cseg, seg c.sseg with
        | some t, some q, some z => t.wr || !q.wr || z.wr
            || decide (t.length < c.replPlane + c.nelem / 32) || decide (q.length < c.gradPlane + c.nelem / 32)
            || decide (z.length < c.sofs * 65536 + ceilDiv c.nBlk c.roster.length * c.stateBytes)
        | _, _, _ => true)
    || decide (4095 < foreignModules s (c :: others))

/-- Configure a group: the leader's own JOIN counts, and any other member sends one (R347, R349). -/
def formGroup (s : State) (c : GroupRec) : State :=
  let s0 := match s.group c.gid with | none => s | some g => dropGroup s c.gid g
  let h := Config.sha384 c.bytes
  let lead := decide (rosterIndex s c = some 0)
  let g : Group :=
    { cfg := c, phase := .joining, hash := h, joins := if lead then [(0, true, true)] else [], members := [], rank := 0, cstep := 0,
      layersDone := [], deadlines := [], contribs := [], partials := [], summed := [], updated := [], shards := [],
      incomplete := false, decided := false, layersDue := [], casts := [], written := [], pulling := [] }
  let s1 := s0.setGroup c.gid (some g)
  if lead then s1 else sendRoster s1 c.gid c 0 ctlBytes (.join c.gid h s.arith)

end Sys2Proof.Machine
end

