-- ==== Sys2Proof/Machine/LoadChecks.lean ====
section
/-! DEFINITION. What the loader checks of a Pattern image before it reserves anything (R56, R68, R72, R171, R237 to R245, R252 to
R256, R296, R424). -/

namespace Sys2Proof.Machine

/-- A refusal: its code, the image section and the entry within it (R252, R485). -/
abbrev LoadErr := Code × Nat × Nat

/-- The first refusal of a list of checks over `(entry, item)` pairs. -/
def firstErrOf {α : Type} (sect : Nat) (f : α → Option Code) (l : List (Nat × α)) : Option LoadErr :=
  l.findSome? (fun e => (f e.2).map (fun c => (c, sect, e.1)))

/-- A list with its positions. -/
def numbered {α : Type} (l : List α) : List (Nat × α) := (List.range l.length).zip l

/-- The cores of an image with their ordinals (R485). -/
def imageCores (m : Manifest) : List (Nat × CoreImage) := numbered (m.regions.flatMap (·.cores))

/-- The entry index of a per-core item (R485). -/
def coreEntry (k i : Nat) : Nat := k * 65536 + i

/-! ### Parameters and bucket tables (R237, R239, R253, R296) -/

/-- The largest declared bucket of a STEPMASK; with none declared, one token. -/
def maskMax (mask : BitVec 7) : Nat := ((List.range 7).filter (fun i => mask.getLsbD i)).foldl (fun a i => max a (4 ^ i)) 1

/-- First and last + 1 unit of the dispatch area (R296). -/
def dispatchArea (p : PatParams) : Nat × Nat := (p.dispatchUnit, p.dispatchUnit + ceilDiv (64 + 8 * maskMax p.stepmask) 64)

/-- Do two runs [a, b) of units meet? -/
def unitsMeet (x y : Nat × Nat) : Bool := decide (x.1 < x.2 ∧ y.1 < y.2 ∧ x.1 < y.2 ∧ y.1 < x.2)

/-- The units of a ring (R164). -/
def ringUnits (d : RingDecl) : Nat × Nat := (d.base, d.base + d.nslot * d.slotsz * 64)

/-- Token rows of a declared tensor: every dimension but the innermost, padded. -/
def tensorRows (t : TensorDecl) : Nat := (t.pad.drop 1).foldl (· * ·) 1

/-- The DENSE tensor declared at a segment and offset. -/
def denseAt (m : Manifest) (seg ofs : Nat) : Option TensorDecl :=
  m.tensors.find? (fun t => decide (t.seg = seg ∧ t.offset = ofs ∧ t.form = 0))

/-- Declared token rows of a tensor: every dimension but the innermost. -/
def declRows (t : TensorDecl) : Nat := (t.ext.drop 1).foldl (· * ·) 1

/-- STEPIN and STEPOUT (R296): declared DENSE tensors of rows of INROW and INROW + 64 bytes, STEPIN of at least the largest declared
bucket of rows, STEPOUT of as many rows as STEPIN. The rows are the declared extents (log 91). -/
def ioOk (m : Manifest) : Bool :=
  let p := m.params
  match denseAt m p.stepinSeg p.stepinOfs, denseAt m p.stepoutSeg p.stepoutOfs with
  | some i, some o => decide (maskMax p.stepmask ≤ declRows i ∧ declRows o = declRows i)
      && decide (rowBytes i.etype (i.ext.headD 0) = p.inrow) && decide (rowBytes o.etype (o.ext.headD 0) = p.inrow + 64)
  | _, _ => false

/-- Row 2 of R256. -/
def paramsBad (m : Manifest) : Bool :=
  let p := m.params
  let a := dispatchArea p
  decide (p.waitLog2 < 16 ∨ 30 < p.waitLog2) || decide (Config.topUnit < a.2) || decide (p.dispatchAddr % 64 ≠ 0)
    || (imageCores m).any (fun e => e.2.rings.any (fun d => unitsMeet a (ringUnits d)))
    || decide (p.nlhg < 1 ∨ 1024 < p.nlhg) || decide (p.kvpitch < 256 ∨ 32768 < p.kvpitch ∨ p.kvpitch % 256 ≠ 0)
    || decide (p.inrow < 64 ∨ 32768 < p.inrow ∨ p.inrow % 64 ≠ 0)
    || !ioOk m

/-- A bucket table that breaks R239. -/
def ascending : List Nat → Bool
  | a :: b :: l => decide (a < b) && ascending (b :: l)
  | _ => true
def bucketBad (t : List Nat) : Bool :=
  decide (t.length < 1 ∨ 8 < t.length) || t.any (fun n => decide (n < 1 ∨ 2097152 < n)) || !ascending t

/-! ### Programs (R56, R68, R71 to R75, R80) -/

/-- Class, operation and XEN of a word (R66). -/
def clsOf (w : CmdWord) : Nat := bitsOf w.toNat 0 4
def opOf (w : CmdWord) : Nat := bitsOf w.toNat 4 4
def xenOf (w : CmdWord) : Bool := bitOf w.toNat 22

/-- The loops of a program: position and END of each LOOP. -/
def loopsOf (prog : List CmdWord) : List (Nat × Nat) :=
  (numbered prog).filterMap (fun e => if clsOf e.2 = 1 ∧ opOf e.2 = 0 then some (e.1, bitsOf e.2.toNat 64 11) else none)

/-- The loops whose body holds position `p`. -/
def loopsAround (ls : List (Nat × Nat)) (p : Nat) : List (Nat × Nat) := ls.filter (fun l => decide (l.1 < p ∧ p ≤ l.2))

/-- The innermost loop whose body holds `p`: the one that begins last. -/
def innermost (ls : List (Nat × Nat)) (p : Nat) : Option (Nat × Nat) :=
  (loopsAround ls p).foldl (fun a l => match a with | none => some l | some b => if b.1 < l.1 then some l else some b) none

/-- A LOOP under R72: END below the program length, behind its LOOP and inside every loop around it, at most 4 deep. -/
def loopCheck (ls : List (Nat × Nat)) (len p last : Nat) : Option Code :=
  if len ≤ last then some .badBranch
  else if last ≤ p ∨ (loopsAround ls p).any (fun l => decide (l.2 < last)) = true ∨ 4 ≤ (loopsAround ls p).length then some .loopDepth
  else none

/-- A branch under R72: its target lies in the same innermost body, or is the position just past it. -/
def branchOk (ls : List (Nat × Nat)) (len p target : Nat) : Bool :=
  decide (target < len) &&
    (decide (innermost ls target = innermost ls p)
      || (match innermost ls p with | none => false | some l => decide (target = l.2 + 1)))

/-- The loop rules of R72 for the word at `p`. -/
def flowCheck (ls : List (Nat × Nat)) (len p : Nat) (w : CmdWord) : Option Code :=
  if clsOf w ≠ 1 then none
  else if opOf w = 0 then loopCheck ls len p (bitsOf w.toNat 64 11)
  else if opOf w = 1 then (if (innermost ls p).isNone then some .badCommand else none)
  else if 2 ≤ opOf w ∧ opOf w ≤ 5 then (if branchOk ls len p (bitsOf w.toNat 64 11) then none else some .badBranch)
  else none

/-- The image of the core at a Pattern coordinate (R20, R314). -/
def imageAt (m : Manifest) (dest : Nat) : Option CoreImage :=
  m.regions.findSome? (fun r =>
    (List.range (r.width * r.height)).findSome? (fun i => if regionCoord r i = dest then r.cores[i]? else none))

/-- The declaration of a receive queue of a core image. -/
def declOf (img : CoreImage) (q : Nat) : Option QueueDecl := (img.queues.find? (fun e => decide (e.1 = q))).map (·.2)

/-- SEND against the regions and queue declarations (R68, R266, R268). -/
def sendCheck (m : Manifest) (w : CmdWord) : Option Code :=
  if clsOf w ≠ 7 ∨ opOf w ≠ 0 then none else
  match (imageAt m (bitsOf w.toNat 32 13)).bind (fun img => declOf img (bitsOf w.toNat 45 3)) with
  | none => some .msgDest
  | some d =>
    if Config.nCores ≤ bitsOf w.toNat 32 13 then some .msgDest else
    let grant := if d.grant = 0 ∨ d.depth < d.grant then d.depth else d.grant
    if d.depth = 0 then some .msgDest
    else if 4096 < bitsOf w.toNat 64 13 ∨ grant < itemWords' (bitsOf w.toNat 64 13) then some .msgLength else none
where
  /-- Words of an item (R266). -/
  itemWords' (len : Nat) : Nat := 1 + ceilDiv len 64

/-- Row 6 of R256 for one command word: its encoding, SEND's checks, static zeros and ranges, then the loops. -/
def wordCheck (m : Manifest) (ls : List (Nat × Nat)) (len p : Nat) (w : CmdWord) : Option Code :=
  let st := staticCheck w
  if st = some .badCommand then st else
  ((sendCheck m w).orElse (fun _ => st)).orElse (fun _ => flowCheck ls len p w)

/-- Row 6 of R256 for one core. An entry or restart command beyond the program is a target beyond it (log 41). -/
def programCheck (m : Manifest) (e : Nat × CoreImage) : Option LoadErr :=
  let prog := e.2.program
  let ls := loopsOf prog
  if 2048 < prog.length then some (.progSize, 3, coreEntry e.1 2048)
  else if prog.length ≤ e.2.entry ∨ prog.length ≤ e.2.restart then some (.badBranch, 3, coreEntry e.1 0)
  else (numbered prog).findSome? (fun x => (wordCheck m ls prog.length x.1 x.2).map (fun c => (c, 3, coreEntry e.1 x.1)))

/-! ### Tables of a core (R60, R171, R253, R264) -/

/-- Row 7. -/
def semCheck (e : Nat × CoreImage) : Option LoadErr :=
  if 64 < e.2.sems.length then some (.semTable, 4, coreEntry e.1 64) else
  (numbered e.2.sems).findSome? (fun x => if 64 ≤ x.2.1 then some (.semTable, 4, coreEntry e.1 x.1) else none)

/-- Row 8. -/
def queueCheck (e : Nat × CoreImage) : Option LoadErr :=
  if 8 < e.2.queues.length then some (.queueCount, 5, coreEntry e.1 8) else
  e.2.queues.findSome? (fun x =>
    if 8 ≤ x.1 ∨ 1032 < x.2.depth ∨ x.2.reservedOk = false then some (.queueCount, 5, coreEntry e.1 x.1) else none)

/-- One entry of a ring table (R171), with the entries before it. -/
def ringEntry (before : List RingDecl) (d : RingDecl) : Option Code :=
  if d.nslot = 0 ∨ d.slotsz = 0 then some .zeroExtent
  else if 64 < d.nslot ∨ 752 < d.slotsz ∨ d.reservedOk = false ∨ d.base % 64 ≠ 0 ∨ Config.topUnit < (ringUnits d).2
      ∨ before.any (fun b => unitsMeet (ringUnits b) (ringUnits d)) = true
      ∨ d.prod < 1 ∨ 4 < d.prod ∨ d.cons < 1 ∨ 4 < d.cons ∨ d.prod = d.cons then some .ringLayout
  else if d.uses = 0 then some .zeroExtent else none

/-- Row 9. -/
def ringCheck (e : Nat × CoreImage) : Option LoadErr :=
  if 16 < e.2.rings.length then some (.ringCount, 6, coreEntry e.1 16) else
  (numbered e.2.rings).findSome? (fun x =>
    (ringEntry (e.2.rings.take x.1) x.2).map (fun c => (c, 6, coreEntry e.1 x.1)))

/-- The pieces that the loader puts into a core's scratch, as (first unit, bytes): its images and the bucket tables (R239). -/
def pieces (m : Manifest) (img : CoreImage) : List (Nat × Nat) :=
  img.scratch.map (fun x => (x.1, x.2.length)) ++ (List.range m.buckets.length).map (fun i => (m.params.bucketUnit + i, 64))

/-- The units of a piece. -/
def pieceUnits (x : Nat × Nat) : Nat × Nat := (x.1, x.1 + ceilDiv x.2 64)

/-- Row 10. -/
def scratchCheck (m : Manifest) (e : Nat × CoreImage) : Option LoadErr :=
  (pieces m e.2).findSome? (fun x =>
    if Config.topUnit < (pieceUnits x).2 ∨ unitsMeet (pieceUnits x) (dispatchArea m.params) = true then
      some (.scratchBudget, 7, coreEntry e.1 x.1) else none)

/-! ### Segments and tensors (R240 to R245, R254, R255, R424) -/

/-- Row 11. -/
def segCheck (m : Manifest) : Option LoadErr :=
  (numbered m.segments).findSome? (fun x =>
    let d := x.2
    if 256 ≤ x.1 ∨ d.length = 0 ∨ d.length % 65536 ≠ 0 ∨ 2 ^ 40 ≤ d.length ∨ d.reservedOk = false
        ∨ (d.pinned && (m.segments.take x.1).any (fun b => b.pinned && decide (b.pinix = d.pinix))) = true then
      some (.segTable, 8, x.1) else none)

/-- A tensor declaration under R241. Whether a tensor has a scale plane, and a sparse tensor's stored size, stand in its header,
which is segment contents and comes with a later part (R424): neither can be asked for here (log 42). -/
def tensorCheck (t : TensorDecl) : Option Code :=
  let c := t.pad.headD 0
  let rows := tensorRows t
  let formBad := if t.form = 0 then decide (c % 32 ≠ 0)
    else if t.form = 1 then decide (c % 64 ≠ 0 ∨ rows % 16 ≠ 0)
    else if t.form = 2 then decide (c % 16 ≠ 0 ∨ rows % 16 ≠ 0 ∨ 1048576 < c)
    else decide (c % 64 ≠ 0)
  if t.reservedOk = false ∨ 3 < t.etype ∨ 3 < t.form ∨ (t.etype = 3 ∧ t.form ≠ 0) ∨ t.offset % 64 ≠ 0
      ∨ t.ext.length < 1 ∨ 4 < t.ext.length ∨ t.pad.length ≠ t.ext.length ∨ t.tm.length ≠ t.ext.length then some .tensorDecl
  else if t.ext.any (fun n => decide (n = 0)) = true ∨ t.tm.any (fun n => decide (n = 0)) = true then some .zeroExtent
  else if formBad = true ∨ (t.pad.zip t.tm).any (fun x => decide (x.1 % x.2 ≠ 0)) = true then some .tensorDecl
  else if (t.pad.zip t.ext).any (fun x => decide (x.1 < x.2)) = true
      ∨ (t.form = 0 ∧ t.alloc < 64 + rows * (ceilDiv (rowBytes t.etype c) 64 * 64)) then some .padShort
  else none

/-- Row 12. -/
def tensorsCheck (m : Manifest) : Option LoadErr :=
  if 65536 < m.tensors.length then some (.tensorDecl, 9, 65536) else firstErrOf 9 tensorCheck (numbered m.tensors)

/-- Does a part lie within its segment, off the parts before it, and in one load request (R370, R424)? -/
def partBad (m : Manifest) (before : List PartEnt) (e : PartEnt) : Bool :=
  (match m.segments[e.seg]? with | none => true | some g => decide (g.length < e.offset + e.length))
    || before.any (fun b => decide (b.seg = e.seg ∧ b.offset < e.offset + e.length ∧ e.offset < b.offset + b.length))
    || decide (67108864 < 1136 + 64 + e.length + 16)

/-- Two declarations in one segment that meet and do not overlay each other (R245). -/
def sliceBad (a b : TensorDecl) : Bool :=
  decide (a.seg = b.seg ∧ a.offset < b.offset + b.alloc ∧ b.offset < a.offset + a.alloc)
    && !decide (a.ovl ≠ 0 ∧ a.ovl = b.ovl ∧ a.offset = b.offset ∧ a.alloc = b.alloc)

/-- Row 14. -/
def sliceCheck (m : Manifest) : Option LoadErr :=
  (numbered m.tensors).findSome? (fun x =>
    if (m.tensors.take x.1).any (sliceBad x.2) then some (.sliceAlign, 9, x.1) else none)

/-! ### Records in scratch images (R194, R232, R244, R255) -/

/-- Do pieces hold `n` units from `u`? -/
def holds (ps : List (Nat × Nat)) (u n : Nat) : Bool :=
  (List.range n).all (fun i => ps.any (fun x => decide (x.1 ≤ u + i ∧ u + i < (pieceUnits x).2)))

/-- A core as its image makes it, for the records in it: scratch and rings. -/
def imageCore (m : Manifest) (img : CoreImage) : Core :=
  { Core.init with scratch := scratchOf m img, rings := ringsOfImage img }

/-- The stop of a check, as the refusal's code. -/
def stopCode {α : Type} : Except Stop α → Option Code
  | .error st => some st.code
  | .ok _ => none

/-- A static command in a program: its word, and DESC, LIST or OPSET as its field stands. -/
def descOf (w : CmdWord) : Nat := bitsOf w.toNat 32 16
def listOf (w : CmdWord) : Nat := bitsOf w.toNat 48 16

/-- The transfer of a static stream command, or of a GATHER or SCADD of the vault class. -/
def xferOf (w : CmdWord) : Option (Xfer × Nat) :=
  if xenOf w then none
  else if clsOf w = 5 then
    (if opOf w = 0 then some (.copy, listOf w) else if opOf w = 1 then some (.gather, listOf w)
      else if opOf w = 2 then some (.scatter, listOf w) else if opOf w = 3 then some (.tcopy, listOf w) else none)
  else if clsOf w = 6 then
    (if opOf w = 0 then some (.nmuGather, descOf w + 2) else if opOf w = 1 then some (.scadd, descOf w + 2) else none)
  else none

/-- R194 without the list's header: rows 1 to 10 and 12, and what rows 13 and 14 say of the list-indexed side. -/
def xferNoHdr (x : XferAt) (units eng : Nat) (rings : List Ring) : Option Code :=
  let e := xferExts x 1
  let recs : List Ext := if x.lrec then [.scratch (x.lu * 64) 64] else []
  let src := x.op.srcIndexed
  let ix := if src then e.1 else e.2
  let sp : List Span := match ix with | .scratch a n => if n = 0 then [] else [[(a, n)]] | _ => []
  match firstStop (xferChecks x units) with
  | some st => some st.code
  | none =>
    if x.lrec && xferStride x then some .badStride
    else if anyMeet ([ix, .scratch (x.du * 64) (64 * units)] ++ recs) then some .overlap
    else stopCode (ringsOf eng (!src) rings sp)

/-- All of R194 for a transfer whose records, and list header if it has one, the image holds. -/
def xferWhole (x : XferAt) (units eng : Nat) (rings : List Ring) : Option Code :=
  match xferAccept x units with
  | .error st => some st.code
  | .ok h =>
    let sp := xferSpans x h
    (stopCode (ringsOf eng false rings sp.1)).orElse (fun _ => stopCode (ringsOf eng true rings sp.2))

/-- The link record of a SCADD (R224, R232). -/
def linkCheck (sc : Memory) (unit : Nat) (x : XferAt) : Option Code :=
  let lk := rdNat sc ((unit + 3) * 64) 64
  let ca := bitsOf lk 64 64
  (firstStop
    [ (decide (Config.topUnit ≤ unit + 3), rejectS .scratchRange), (bitOf lk 0 && !compl 64 ca (bitsOf lk 128 64), faultS .pairMismatch),
      (bitOf lk 0 && (decide (bitsOf lk 1 63 ≠ 0) || decide (bitsOf lk 192 320 ≠ 0) || segBad ca), rejectS .badDesc),
      (bitOf lk 0 && decide (ca % 64 ≠ 0), rejectS .misalign),
      (decide (x.d.etype ≠ 3), rejectS .nmuType) ]).map (·.code)

/-- Row 16 for a transfer. A record that the image does not place is built at run time, and is checked at acceptance
(log 43). -/
def xferLoad (s : State) (p : Pattern) (ps : List (Nat × Nat)) (k : Core) (w : CmdWord) (op : Xfer) (lu : Nat) : Option Code :=
  let lrec := holds ps lu 1
  let x : XferAt := { s := s, sc := k.scratch, p := some p, op := op, du := descOf w, lu := lu, lrec := lrec }
  let eng := if clsOf w = 5 then 3 else 4
  if holds ps x.du 2 = false then none else
  let hdr := lrec && decide (x.l.space = 0) && holds ps (bitsOf x.l.base 0 22 / 64) 1
  let r := if op.listed = true ∧ hdr = false then xferNoHdr x 2 eng k.rings else xferWhole x 2 eng k.rings
  r.orElse (fun _ => if op = .scadd ∧ (holds ps (x.du + 3) 1 = true ∨ Config.topUnit ≤ x.du + 3) then linkCheck k.scratch x.du x else none)

/-- The NMU operation of a vault word that takes a descriptor of R213. -/
def nmuOpOf (w : CmdWord) : Option VaultOp :=
  if clsOf w ≠ 6 ∨ xenOf w = true then none else
  [VaultOp.gather, .scadd, .merge, .topk, .rred, .fill, .decomp, .ctradd, .ctrset, .lock, .unlock][opOf w]? |>.filter
    (fun o => decide (o ≠ .gather ∧ o ≠ .scadd))

/-- Row 16 for a vault command's descriptor: what the descriptor decides, and a MERGE's lists where the image holds their
headers. -/
def nmuLoad (s : State) (p : Pattern) (ps : List (Nat × Nat)) (k : Core) (w : CmdWord) (op : VaultOp) : Option Code :=
  let unit := descOf w
  let d : NDesc := descAt k.scratch unit
  if holds ps unit 2 = false then none else
  match firstStop (nmuChecks (some p) op d unit) with
  | some st => some st.code
  | none =>
    let x := mvOf s k.scratch [] 64
    let later (e : Except Stop Plan) : Option Code :=
      match e with
      | .error st => some st.code
      | .ok pl => (stopCode (ringsOf 4 false k.rings pl.ins)).orElse (fun _ => stopCode (ringsOf 4 true k.rings pl.outs))
    match op with
    | .topk => later (planTopk 0 (some p) d unit x)
    | .rred => later (planRred 0 (some p) d unit x)
    | .merge => if bitOf d.sub 2 = false ∧ holds ps (bitsOf d.la 0 22 / 64) 1 = true ∧ holds ps (bitsOf d.lb 0 22 / 64) 1 = true then
        later (planMerge 0 (some p) d unit x) else none
    | .ctrset => if isInit op d && bitOf d.p2 0 && decide (65536 < d.p1) then some .ctrMode else none
    | _ => none

/-- Row 16 for one word. -/
def descCheck (s : State) (p : Pattern) (ps : List (Nat × Nat)) (k : Core) (w : CmdWord) : Option Code :=
  match xferOf w, nmuOpOf w with
  | some (op, lu), _ => xferLoad s p ps k w op lu
  | none, some op => nmuLoad s p ps k w op
  | none, none => none

/-- The SEG sides of a static descriptor in the image, as (segment, first byte, last byte + 1) (R244). -/
def segSides (ps : List (Nat × Nat)) (k : Core) (w : CmdWord) : List (Nat × Nat × Nat) :=
  let u := descOf w
  if holds ps u 2 = false then [] else
  let d : Desc := descAt k.scratch u
  let n : NDesc := descAt k.scratch u
  let side (space base lim : Nat) : List (Nat × Nat × Nat) :=
    if space = 1 then [(segOf base, ofsOf base, ofsOf base + lim)] else []
  match xferOf w, nmuOpOf w with
  | some _, _ => side d.sspace d.sbase d.slim ++ side d.dspace d.dbase d.dlim
  | none, some op => (if usesV op then side n.vspace n.vbase n.vlim else []) ++ (if usesP op then side n.pspace n.pbase n.plim else [])
  | none, none => []

/-- Row 13 for one word. -/
def sideCheck (m : Manifest) (ps : List (Nat × Nat)) (k : Core) (w : CmdWord) : Option Code :=
  if (segSides ps k w).all (fun e => m.tensors.any (fun t =>
      decide (t.seg = e.1 ∧ t.offset ≤ e.2.1 ∧ e.2.2 ≤ t.offset + t.alloc))) then none else some .allocSpan

/-- Row 13: declarations within their segments, static descriptors within a declaration, and the part table (R244, R424). -/
def declSpan (m : Manifest) : Option LoadErr :=
  ((numbered m.tensors).findSome? (fun x =>
      match m.segments[x.2.seg]? with
      | none => some (.allocSpan, 9, x.1)
      | some g => if g.length < x.2.offset + x.2.alloc then some (.allocSpan, 9, x.1) else none)).orElse (fun _ =>
    (numbered m.parts).findSome? (fun x => if partBad m (m.parts.take x.1) x.2 then some (.allocSpan, 10, x.1) else none))

/-! ### Operand sets, chain records and headers (R121, R152, R255) -/

/-- The TMUL of a word, a LOOP taken as ONLY (R121, R256). -/
def tmulOf (w : CmdWord) : Tmul :=
  let n := w.toNat
  let a := bitsOf n 51 3
  { shape := bitsOf n 48 3, acc := if a = 0 then .start else if a = 1 then .cont else if a = 2 then .last else .only,
    bank := if bitOf n 54 then 1 else 0, eop := bitsOf n 55 2, red := bitsOf n 57 2, mod := bitOf n 59 }

/-- Is a word a TMUL, or an FCHAIN, whose record the image holds? -/
def isTmul (ps : List (Nat × Nat)) (w : CmdWord) : Bool :=
  decide (clsOf w = 3 ∧ opOf w = 0) && !xenOf w && holds ps (descOf w) 1
def isChain (ps : List (Nat × Nat)) (w : CmdWord) : Bool :=
  decide (clsOf w = 3 ∧ opOf w = 1) && !xenOf w && holds ps (descOf w) 1

/-- Row 17 for a TMUL: rows 1 to 11 and 13 of R121; of headers that the image does not hold, nothing is asked. -/
def tmulLoad (ps : List (Nat × Nat)) (k : Core) (w : CmdWord) : Option Code :=
  let u := descOf w
  let r := unitBits k.scratch u
  let o := opSetOf r
  let t := tmulOf w
  ((setChecks k r t u (opndA k o t.shape) (opndB k o t.shape) true true (fun b => holds ps b 1)).map (·.code)).orElse (fun _ =>
    if t.mod = false ∧ (o.xacc < -1024 ∨ 1023 < o.xacc) then some .scaleRange else none)

/-- Row 17 for an operand set of a chain's product 1 (R147). -/
def chainSet (ps : List (Nat × Nat)) (k : Core) (r : ChainRec) (u : Nat) : Option Code :=
  let w := noPload (unitBits k.scratch u)
  let o := opSetOf w
  let t : Tmul := { shape := r.sh1, acc := .start, bank := 0, eop := 0, red := 0, mod := false }
  if holds ps u 1 then
    ((setChecks k w t u (opndA k o r.sh1) (opndB k o r.sh1) true false (fun b => holds ps b 1)).map (·.code)).orElse (fun _ =>
      if o.xacc < -1024 ∨ 1023 < o.xacc then some .scaleRange else none)
  else none

/-- Row 17 for an operand set of a chain's product 2 (R147): its pair, its B and XACC; its A is the band. -/
def chainSet2 (ps : List (Nat × Nat)) (k : Core) (r : ChainRec) (u : Nat) : Option Code :=
  let w := noPload (unitBits k.scratch u)
  let o := opSetOf w
  let t : Tmul := { shape := r.sh2, acc := .cont, bank := 0, eop := 0, red := 0, mod := false }
  if holds ps u 1 then
    ((setChecks k w t u (bandOpnd k.scratch r) (opndB k o r.sh2) false false (fun b => holds ps b 1)).map (·.code)).orElse (fun _ =>
      if o.xacc < -1024 ∨ 1023 < o.xacc then some .scaleRange else none)
  else none

/-- Can the header of product 2's first B be read from the image? -/
def seesB2 (ps : List (Nat × Nat)) (k : Core) (r : ChainRec) : Bool :=
  holds ps r.ops2 1 && holds ps (opSetOf (unitBits k.scratch r.ops2)).bBase 1

/-- The operand sets of product 1 and of product 2 that the image's records name (R147). -/
def chainSets1 (r : ChainRec) : List Nat := (List.range (r.nsets * r.t1 * r.p1n)).map (· + r.ops1)
def chainSets2 (ps : List (Nat × Nat)) (k : Core) (r : ChainRec) : List Nat :=
  (r.sets k.scratch (holds ps r.band 1 && seesB2 ps k r)).drop (chainSets1 r).length

/-- Row 17 for an FCHAIN: rows 1 to 8 and 10 of R152 and its operand sets; of headers that the image does not hold, nothing is
asked. -/
def chainLoad (ps : List (Nat × Nat)) (k : Core) (w : CmdWord) : Option Code :=
  let u := descOf w
  let r := chainRecOf (unitBits k.scratch u)
  let rows := chainRows k u (bitOf w.toNat 48) (if bitOf w.toNat 49 then 1 else 0) (holds ps r.band 1) (seesB2 ps k r)
  let asked := [0, 1, 2, 3, 4, 5, 6, 7, 8, 9, 10, 11, 13].filterMap (fun i => rows[i]?)
  (((firstStop asked).map (·.code)).orElse (fun _ => (chainSets1 r).findSome? (chainSet ps k r))).orElse (fun _ =>
    (chainSets2 ps k r).findSome? (chainSet2 ps k r))

/-- Row 17 for one word. -/
def opsetCheck (ps : List (Nat × Nat)) (k : Core) (w : CmdWord) : Option Code :=
  if isTmul ps w then tmulLoad ps k w else if isChain ps w then chainLoad ps k w else none

/-- The units at which static records name tensor headers: the bases of operand sets, a chain's and its band, and the tensors of row
records. -/
def headerUnits (ps : List (Nat × Nat)) (k : Core) (w : CmdWord) : List Nat :=
  let rec' (u : Nat) : List Nat := if holds ps u 1 then [(rowRecOf (unitBits k.scratch u)).hdr] else []
  let op := opOf w
  let fn := bitsOf w.toNat 80 3
  if isTmul ps w then
    let o := opSetOf (unitBits k.scratch (descOf w))
    [o.aBase, o.bBase, o.oBase] ++ (if (tmulOf w).eopNow ≠ 0 then [o.eBase] else [])
  else if isChain ps w then
    let r := chainRecOf (unitBits k.scratch (descOf w))
    let set (u : Nat) : OpSet := opSetOf (unitBits k.scratch u)
    let two := (chainSets2 ps k r).filter (fun u => holds ps u 1)
    let out := two.filter (fun u => bitOf w.toNat 48 = false && holds ps r.band 1 && seesB2 ps k r
      && decide (u = r.set2 (r.nkb - 1) (chunks2 k.scratch r - 1) (chunks2 k.scratch r)))
    [r.band] ++ ((chainSets1 r).filter (fun u => holds ps u 1)).flatMap (fun u => [(set u).aBase, (set u).bBase])
      ++ two.map (fun u => (set u).bBase)
      ++ out.flatMap (fun u => (set u).oBase :: (if r.eop2 ≠ 0 then [(set u).eBase] else []))
  else if clsOf w = 4 ∧ xenOf w = false ∧ (op = 1 ∨ op = 2 ∨ op = 5 ∨ (op = 0 ∧ fn ≠ 2 ∧ fn ≠ 3)) then
    (if descOf w = 0xFFFF then [] else rec' (descOf w)) ++ (if op = 1 then [] else rec' (listOf w))
  else []

/-- Row 15 for one word: the headers that the image holds (R39, R40). -/
def headerCheck (ps : List (Nat × Nat)) (k : Core) (w : CmdWord) : Option Code :=
  ((headerUnits ps k w).filter (fun u => holds ps u 1)).findSome? (fun u =>
    if hdrPair k.scratch (u * 64) = false then some .pairMismatch
    else if hdrValid k.scratch (u * 64) = false then some .badHeader else none)

/-- The operand sets of the image that a word names: a TMUL's, or those of a chain's products (R255). -/
def setsOf (ps : List (Nat × Nat)) (k : Core) (w : CmdWord) : List Nat :=
  if isTmul ps w then [descOf w]
  else if isChain ps w then
    let r := chainRecOf (unitBits k.scratch (descOf w))
    (chainSets1 r ++ chainSets2 ps k r).filter (fun u => holds ps u 1)
  else []

/-- Row 18 for one word: an operand set with WS set names a pinned segment. -/
def wsCheck (m : Manifest) (ps : List (Nat × Nat)) (k : Core) (w : CmdWord) : Option Code :=
  if (setsOf ps k w).any (fun u =>
      let o := opSetOf (unitBits k.scratch u)
      o.ws && !m.segments.any (fun g => g.pinned && decide (g.pinix = o.pin))) then some .wsUnpinned else none

/-- The first word of any core for which a check of its records fails; the entry is the record's unit (R485). -/
def recordsCheck (m : Manifest) (f : List (Nat × Nat) → Core → CmdWord → Option Code) : Option LoadErr :=
  (imageCores m).findSome? (fun e =>
    let ps := pieces m e.2
    let k := imageCore m e.2
    e.2.program.findSome? (fun w => (f ps k w).map (fun c => (c, 7, coreEntry e.1 (descOf w)))))

/-! ### The checks in order (R256) -/

/-- Rows 1 to 4. -/
def loadFirst (s : State) (m : Manifest) : Option LoadErr :=
  let others := (s.helm.pats.map (fun e => match e.2 with | none => 0 | some p => p.regions.length)).foldl (· + ·) 0
  let bad := (numbered m.regions).findSome? (fun x =>
    if x.2.width = 0 ∨ x.2.height = 0 ∨ x.2.cores.length ≠ x.2.width * x.2.height then some x.1 else none)
  if 64 ≤ (s.helm.pats.filter (fun e => match e.2 with | none => false | some p => p.resident)).length then some (.patternLimit, 0, 0)
  else if paramsBad m then some (.patternParam, 0, 0)
  else if m.params.stepmask = 0 then some (.bucketTable, 0, 0)
  else if 8 < m.buckets.length then some (.bucketTable, 1, 8)
  else ((numbered m.buckets).findSome? (fun x => if bucketBad x.2 then some (.bucketTable, 1, x.1) else none)).orElse (fun _ =>
    if m.regions = [] ∨ 256 < m.regions.length + others ∨ bad.isSome = true then some (.regionLimit, 2, bad.getD 0) else none)

/-- Rows 6 to 18 but for PIN_LIMIT, over the Pattern with its regions placed. -/
def loadRest (s : State) (p : Pattern) : Option LoadErr :=
  let m := p.manifest
  let cs := imageCores m
  ([ fun _ => cs.findSome? (programCheck m), fun _ => cs.findSome? semCheck, fun _ => cs.findSome? queueCheck,
     fun _ => cs.findSome? ringCheck, fun _ => cs.findSome? (scratchCheck m), fun _ => segCheck m, fun _ => tensorsCheck m,
     fun _ => declSpan m, fun _ => recordsCheck m (sideCheck m), fun _ => sliceCheck m, fun _ => recordsCheck m headerCheck,
     fun _ => recordsCheck m (descCheck s p), fun _ => recordsCheck m opsetCheck, fun _ => recordsCheck m (wsCheck m) ]
    : List (Unit → Option LoadErr)).findSome? (fun f => f ())

end Sys2Proof.Machine
end

