-- ==== Sys2Proof/Machine/Loader.lean ====
section
/-! DEFINITION. The Pattern loader: placement and reservation, the parts of a load, its end, and unloading (R56, R252 to R257, R265,
R315 to R318, R424 to R426). -/

namespace Sys2Proof.Machine

/-! ### Placement of regions (R256 row 5, R313) -/

/-- The loading Pattern's regions placed one after another; the number of the first that finds no room otherwise. -/
def placeAll (pi : Nat) : State → Pattern → List RegionImage → Except Nat Pattern
  | _, p, [] => .ok p
  | s, p, g :: gs =>
    match (s.setPat pi p).placeRegion pi p.regions.length g with
    | none => .error p.regions.length
    | some cs => placeAll pi s { p with regions := p.regions ++ [{ image := g, cores := cs, arrived := [], stopped := false }] } gs

/-! ### Frames of segments and spill regions (R256 row 19, R265, R315 to R317) -/

/-- Pages of a segment that a die holds so far. -/
def pagesOn (got : List Nat) (d : Nat) : Nat := (got.filter (fun f => decide (dieOfSite (f / 16384) = d))).length

/-- Does a core of an image read a segment: is it a side of a static descriptor (R236, R244)? -/
def readsSeg (m : Manifest) (c : CoreImage) (si : Nat) : Bool :=
  let ps := pieces m c
  let k := imageCore m c
  c.program.any (fun w => (segSides ps k w).any (fun e => decide (e.1 = si)))

/-- The dies in service of the regions that read a segment (R317). -/
def readDies (s : State) (p : Pattern) (si : Nat) : List Nat :=
  ((p.regions.filter (fun r => r.image.cores.any (fun c => readsSeg p.manifest c si))).flatMap (fun r => r.cores.map dieOfCore)).dedup.filter
    s.dieIn

/-- Dies in the order in which one page of a stripe asks for a frame: with PLACE clear its own by R316, then the ones that follow
the stripe's (log 29); with PLACE set those of the regions that read the segment, then those with the fewest pages of it (R317). -/
def pageDies (s : State) (mine : List Nat) (si k j : Nat) (got : List Nat) : List Nat :=
  if s.place then
    let rest := s.diesIn.filter (fun d => !decide (d ∈ mine))
    mine ++ (List.range (got.length + 1)).flatMap (fun n => rest.filter (fun d => decide (pagesOn got d = n)))
  else
    let b := (3 * si + k) % 24
    stripeDie s.diesIn b j :: ((List.range (s.diesIn.length - 8)).map (fun i => stripeDie s.diesIn b (8 + i)))

/-- Take one frame for page `j` of stripe `k`, on a die that the stripe does not use yet where it carries parity. -/
def takePage (s : State) (p : Pattern) (mine : List Nat) (si k j : Nat) (prot : Bool) (used got : List Nat) : Option (Nat × State) :=
  let f := if prot || !s.place then
      ((pageDies s mine si k j got).filter (fun d => !(prot && used.any (fun g => decide (dieOfSite (g / 16384) = d))))).findSome?
        (fun d => s.runOnDie d 1)
    else (s.runSpread (patDies p) 1).orElse (fun _ => s.runSpread s.diesIn 1)
  f.map (fun f => (f, s.takeFrames f 1 true))

/-- Pages `j` onwards of one stripe: `n` data pages, and the parity page where the segment carries one. -/
def takeStripe (p : Pattern) (mine : List Nat) (si k : Nat) (prot : Bool) (got : List Nat) :
    List Nat → State → List Nat → Option (State × List Nat)
  | [], s, used => some (s, used)
  | j :: js, s, used =>
    match takePage s p mine si k j prot used (got ++ used) with
    | none => none
    | some (f, s') => takeStripe p mine si k prot got js s' (used ++ [f])

/-- A segment's frames and parity frames, stripe by stripe. -/
def takeSegment' (p : Pattern) (mine : List Nat) (si pages : Nat) (prot : Bool) : List Nat → State → Segment → Option (State × Segment)
  | [], s, g => some (s, g)
  | k :: ks, s, g =>
    let n := min 7 (pages - 7 * k)
    match takeStripe p mine si k prot (g.frames ++ g.parity) (List.range n ++ (if prot then [7] else [])) s [] with
    | none => none
    | some (s', l) => takeSegment' p mine si pages prot ks s' { g with frames := g.frames ++ l.take n, parity := g.parity ++ l.drop n }

/-- An empty segment of a declaration. -/
def Segment.ofDecl (d : SegDecl) : Segment :=
  { length := d.length, rd := d.rd, wr := d.wr, pinned := d.pinned, pinix := d.pinix, frames := [], parity := [], lists := [],
    pairN := 0 }

/-- The frames of a segment's page list, in the vault that holds its page 0 (R189): 16 B for each page, an entry of 8 B with its
complement (log 92). -/
def takeList (s : State) (g : Segment) : Option (State × Segment) :=
  let n := ceilDiv (g.frames.length * 16) 65536
  (s.runIn (g.frames.headD 0 / 16384) n).map (fun f => (s.takeFrames f n true, { g with lists := (List.range n).map (f + ·) }))

/-- The frames of every segment; where the pool falls short, the number of the segment. -/
def takeSegments (p : Pattern) : List (Nat × SegDecl) → State → List Segment → Except Nat (State × List Segment)
  | [], s, gs => .ok (s, gs)
  | (si, d) :: ds, s, gs =>
    let n := d.length / 65536
    let mine := if s.place && !d.wr then readDies s p si else []
    match takeSegment' p mine si n (!d.wr) (List.range (ceilDiv n 7)) s (Segment.ofDecl d) with
    | none => .error si
    | some (s', g) =>
      match takeList s' g with
      | none => .error si
      | some (s2, g') => takeSegments p ds s2 (gs ++ [g'.seal])

/-- Mesh hops between two sites (R24). -/
def hops (a b : Nat) : Nat := dist (a % 96) (b % 96) + dist (a / 96) (b / 96)

/-- A spill region's frame (R265): in the home vault, else in the nearest vault of its die that has a free frame, else in the
nearest of the device, the lower number winning a tie. -/
def spillFrame (s : State) (site : Nat) : Option Nat :=
  let able (l : List Nat) : Option Nat := leastBy (hops site) (l.filter (fun v => (s.runIn v 1).isSome))
  match s.runIn site 1 with
  | some f => some f
  | none =>
    ((able ((List.range 192).map (vaultOf (dieOfSite site)))).orElse (fun _ => able (List.range Config.nSites))).bind
      (fun v => s.runIn v 1)

/-- The cores that need spill regions, once for each queue deeper than 8 words. -/
def spillCores (p : Pattern) : List Nat := p.spillQueues.map (·.1)

/-- Take the frames of spill regions. -/
def takeSpills : List Nat → State → List Nat → Option (State × List Nat)
  | [], s, fs => some (s, fs)
  | c :: cs, s, fs =>
    match spillFrame s ((siteOf s.helm c).getD 0) with
    | none => none
    | some f => takeSpills cs (s.takeFrames f 1 true) (fs ++ [f])

/-- Pinned-region entries in use (R255, R318). -/
def State.pinsUsed (s : State) : Nat := (s.helm.pinned.filter (·.2.isSome)).length

/-- Give the pinned segments of a Pattern their entries. -/
def takePins (s : State) (pi : Nat) (p : Pattern) : State :=
  (numbered p.segs).foldl (fun s e =>
    if e.2.pinned = false then s else
    match findFrom (fun n => (Sparse.get none s.helm.pinned n).isNone) 64 0 with
    | none => s
    | some n => { s with helm := { s.helm with pinned := Sparse.set none s.helm.pinned n (some (pi, e.1)) } }) s

/-- R256 for a manifest: the first refusal, or the device with everything reserved and the Pattern's record. The checks change
nothing. Row 19 leaves room for every KV reservation (R298). -/
def reserve (s : State) (pi : Nat) (p0 : Pattern) : Except LoadErr (State × Pattern) :=
  let m := p0.manifest
  match loadFirst s m with
  | some e => .error e
  | none =>
  match placeAll pi s p0 m.regions with
  | .error i => .error (.regionSpace, 2, i)
  | .ok p1 =>
  match loadRest s p1 with
  | some e => .error e
  | none =>
  if 64 < s.pinsUsed + (m.segments.filter (·.pinned)).length then .error (.pinLimit, 8, 0) else
  match takeSegments p1 (numbered m.segments) (s.setPat pi p1) [] with
  | .error i => .error (.vaultSpace, 8, i)
  | .ok (s1, gs) =>
  match takeSpills (spillCores p1) s1 [] with
  | none => .error (.vaultSpace, 5, 0)
  | some (s2, fs) =>
    if s2.helm.kvReserved ≠ 0 ∧ s2.kvPool < s2.helm.kvReserved then .error (.vaultSpace, 8, 0) else
    let p := { p1 with segs := gs, spills := fs }
    .ok (takePins (s2.setPat pi p) pi p, p)

/-! ### Answers (R252, R425, R485) -/

/-- The register block of the Helm that takes the next Pattern. -/
def loaderBlock (s : State) : Nat := 2 + s.helm.loads % 2

/-- The connection whose opened load request waits for its answer. -/
def loadConn (s : State) (h : LoadHeader) : Option (Fin 4 × Nat × Conn) :=
  (fins 4).findSome? (fun k => (s.pd k).conns.findSome? (fun e =>
    match e.2 with
    | none => none
    | some x => if x.phase = .opened ∧ x.load = some h then some (k, e.1, x) else none))

/-- Answer a load request with a sealed STATUS; its space is given back. -/
def answerLoad (s : State) (h : LoadHeader) (c : Code) (sect entry : Nat) : State :=
  let s1 := s.emit (.loadStatus h.phash h.part c sect entry)
  match loadConn s1 h with
  | none => s1
  | some (k, n, x) => lzRelease (finalStatus s1 k n c) x.lzBase x.lzLen

/-- Refuse a load request: the refusal is logged with the section and entry that failed. -/
def refuseLoad (s : State) (h : LoadHeader) (e : LoadErr) : State :=
  (answerLoad s h e.1 e.2.1 e.2.2).refusal (loaderBlock s) e.1 (e.2.1 + e.2.2 * 2 ^ 32)

/-! ### The parts of a load (R424, R425) -/

/-- Is a hash listed in the Chart in force? -/
def listed (s : State) (hash : BitVec 384) : Bool :=
  match s.chart with | none => false | some c => decide (hash ∈ c.patterns)

/-- The number of the Pattern with a hash, resident or loading. -/
def State.patOfHash (s : State) (hash : BitVec 384) : Option Nat :=
  s.helm.pats.findSome? (fun e => match e.2 with | none => none | some p => if p.manifest.hash = hash then some e.1 else none)

/-- The lowest free Pattern number. -/
def State.freePat (s : State) : Nat := (findFrom (fun n => (s.pat n).isNone) 64 0).getD 64

/-- The record of a Pattern that is about to be loaded; Patterns go to the Helms in turn. -/
def newPattern (s : State) (m : Manifest) : Pattern :=
  let h : Fin 2 := if s.helm.loads % 2 = 0 then 0 else 1
  { manifest := m, resident := false, helm := h, regions := [], segs := [], spills := [], ptr := 0, sst := s.helm.sst.get h,
    nextSeq := 0, faulted := false, unloading := false, partsDone := [], updateHold := [] }

/-- The last part has been written: the loader places every core, and the Pattern is resident (R56, R57, R425). -/
def finishLoad (s : State) (pi : Nat) (p : Pattern) : State :=
  let p' := { p with resident := true }
  let s1 := { s.setPat pi p' with helm := { (s.setPat pi p').helm with load := none } }
  resumeReplans ((numbered p'.regions).foldl (fun s e => placeRegionCores s pi e.1 p' e.2 true) s1)

/-- After a part: the load goes on, or is done. -/
def loadProgress (s : State) (pi : Nat) (p : Pattern) (h : LoadHeader) : State :=
  if p.partsDone.length = p.manifest.parts.length then answerLoad (finishLoad s pi p) h .loadDone 0 0
  else answerLoad (s.setPat pi p) h .loadPartOk 0 0

/-- LOAD_PART0 (R425): the manifest is checked under R256 and reserves what the Pattern needs. -/
def execLoadPart0 (m : Manifest) (h : LoadHeader) (s : State) : Host.Outcome State Fault Refusal :=
  .next (
    if listed s h.phash = false then refuseLoad s h (.loadUnlisted, 0, 0)
    else if (s.patOfHash h.phash).isSome then refuseLoad s h (.loadResident, 0, 0)
    else if s.helm.load.isSome then refuseLoad s h (.loadBusy, 0, 0)
    else if m.hash ≠ h.phash ∨ h.part ≠ 0 ∨ h.npart ≠ m.parts.length + 1 then refuseLoad s h (.loadPartBad, 0, 0)
    else
      match reserve s s.freePat (newPattern s m) with
      | .error e => refuseLoad s h e
      | .ok (s1, p) =>
        loadProgress { s1 with helm := { s1.helm with load := some s.freePat, loads := s1.helm.loads + 1 } } s.freePat p h)

/-- LOAD_PART (R425): a part that agrees with its part-table entry is written into its segment, once. -/
def execLoadPart (h : LoadHeader) (body : List Byte) (s : State) : Host.Outcome State Fault Refusal :=
  .next (
    if listed s h.phash = false then refuseLoad s h (.loadUnlisted, 0, 0) else
    match s.helm.load.bind (fun pi => (s.pat pi).map (fun p => (pi, p))) with
    | none => refuseLoad s h (.loadOrder, 0, 0)
    | some (pi, p) =>
      if p.manifest.hash ≠ h.phash then refuseLoad s h (.loadOrder, 0, 0) else
      match (if h.part = 0 then none else p.manifest.parts[h.part - 1]?) with
      | none => refuseLoad s h (.loadPartBad, 10, h.part)
      | some e =>
        if h.npart ≠ p.manifest.parts.length + 1 ∨ h.seg ≠ e.seg ∨ h.offset ≠ e.offset ∨ body.length ≠ e.length
            ∨ Config.sha384 body ≠ e.hash then refuseLoad s h (.loadPartBad, 10, h.part)
        else if h.part ∈ p.partsDone then answerLoad s h .loadPartOk 0 0
        else
          match p.segs[e.seg]? with
          | none => refuseLoad s h (.loadPartBad, 10, h.part)
          | some g => loadProgress (segPuts s pi e.seg g e.offset body) pi { p with partsDone := p.partsDone ++ [h.part] } h)

/-! ### Unloading (R257, R426) -/

/-- Zero a frame and return it to the pool (R230). -/
def giveFrame (s : State) (f : Nat) : State :=
  (clearFrames s f 1).takeFrames f 1 false

/-- A core whose Pattern goes: it is in RESET, with the cycle counter as it was. -/
def vacate (s : State) (c : Nat) : State := s.setCore c { Core.init with cycles := (s.core c).cycles }

/-- Free all that a Pattern holds: regions, pinned regions, segments, spill regions, counters, its number. -/
def freePattern (s : State) (pi : Nat) (p : Pattern) : State :=
  let cs := p.regions.flatMap (·.cores)
  let ms := s.helm.migs.filter (fun m => decide (m.pat = pi))
  let fs := p.segs.flatMap (fun g => g.frames ++ g.parity ++ g.lists) ++ p.spills ++ ms.flatMap (fun m => [m.oldF, m.newF])
  let s1 := (cs.foldl vacate s).setPat pi p
  let s2 := (fs.dedup.foldl giveFrame s1).mapVaults (fun v => { v with ctrs := v.ctrs.filter (fun r => !decide (r.pat = pi)) })
  { s2 with
    helm := { s2.helm with
      pats := Sparse.set none s2.helm.pats pi none,
      load := if s2.helm.load = some pi then none else s2.helm.load,
      migs := s2.helm.migs.filter (fun m => !decide (m.pat = pi)),
      acks := s2.helm.acks.filter (fun e => !decide (e.2.2 = pi)),
      frees := s2.helm.frees.filter (fun e => !decide (e.2.2.2 = pi)),
      clears := s2.helm.clears.filter (fun c => !decide (c ∈ cs)),
      pinned := s2.helm.pinned.filter (fun e => match e.2 with | some (q, _) => !decide (q = pi) | none => false) } }

/-- Abandon the load in progress (R426). -/
def abandonLoad (s : State) (pi : Nat) (p : Pattern) : State :=
  resumeReplans ((freePattern s pi p).logRec { mkRec (2 + p.helm.val) .event .loadAbandoned with pat := pi })

/-- LOAD_ABANDONED (R426): 600 s after part 0. -/
def execLoadAbandoned (s : State) : Host.Outcome State Fault Refusal :=
  .next (match s.helm.load.bind (fun pi => (s.pat pi).map (fun p => (pi, p))) with
    | none => s
    | some (pi, p) => abandonLoad s pi p)

/-- UNLOAD_COMPLETE (R257): a Pattern that is being unloaded and whose last step has ended is freed; streams of it that have
ended give up what they hold first (R306). -/
def execUnloadComplete (pi : Nat) (s : State) : Host.Outcome State Fault Refusal :=
  .next (match s.pat pi with
    | none => s
    | some p =>
      if p.unloading = false ∨ s.helm.steps.any (fun t => decide (t.pat = pi)) = true then s else
      freePattern ((s.slotsOf pi).foldl releaseSlot s) pi p)

end Sys2Proof.Machine
end

