-- ==== Sys2Proof/Machine/LowPower.lean ====
section
/-! DEFINITION. The low-power states: idleness, L1, L2 and L3, the power request register, wakes (R436 to R442). -/

namespace Sys2Proof.Machine

/-! ### Idleness (R439) -/

/-- Is a collective step of a group in progress? -/
def Group.busy (g : Group) : Bool :=
  !(g.layersDone.isEmpty && g.contribs.isEmpty && g.partials.isEmpty && g.casts.isEmpty && g.pulling.isEmpty)

/-- Is the device idle (R439)? -/
def State.idle (s : State) : Bool :=
  s.helm.streams.all (·.2.isNone) && s.helm.parked.isEmpty && s.helm.checked.isEmpty && s.helm.steps.isEmpty && s.helm.load.isNone
    && s.helm.migs.isEmpty && s.helm.darn.isEmpty && s.helm.reports.all (·.resolved)
    && s.groups.all (fun e => match e.2 with | none => true | some g => !g.busy)
    && (fins 4).all (fun k => ((s.pd k).ingress.get 0).items.isEmpty && ((s.pd k).ingress.get 1).items.isEmpty)

/-- Is the device in SERVICE (R418)? -/
def State.serving (s : State) : Bool := decide (s.start.stage = 6)

/-! ### Entering (R438 to R440) -/

/-- BLOCK_L1_ENTRY (R436, R438): the block's clocks are gated. Nothing is lost, nothing waits for the block, STATE still reads
ACTIVE and the block ungates with its next work, so nothing in the state changes (log 49). -/
def execBlockL1Entry (block : Nat) (s : State) : Host.Outcome State Fault Refusal :=
  if block < 32 then .next s else .fault .noSuchBlock

/-- The vaults enter self-refresh: their rows are closed. -/
def selfRefresh (s : State) : State := s.mapVaults (fun v => { v with openRows := [] })

/-- L2_ENTRY (R439): an idle device whose LPMAX is at least 1 enters L2. -/
def execL2Entry (s : State) : Host.Outcome State Fault Refusal :=
  noted s (.next (
    if s.serving && s.idle && decide (1 ≤ s.pwr.lpmax ∧ s.pwr.state = 0) && !s.pwr.entering && !s.pwr.waking then
      { selfRefresh s with pwr := { s.pwr with state := 1 } }
    else s))

/-- A core powered down in L3: its locks, its credits, its queue epochs and the items that the wake discards are what the wake still
needs (R436, R441). -/
def Core.poweredDown (k : Core) : Core :=
  { Core.init with
    pat := k.pat, region := k.region, rq := k.rq.map (fun q => { RecvQ.reset with epoch := q.epoch, items := q.items }), prod := k.prod,
    locks := k.locks, cycles := k.cycles }

/-- Is an offset a scratchpad counter of a core record (R172, R479)? -/
def isSpCtr (ofs : Nat) : Bool :=
  let rel := (ofs - 0x1000000) % 0x200000
  decide (0x1000000 ≤ ofs ∧ 0x1000 ≤ rel ∧ rel < 0xC000 ∧ 0x38 ≤ rel % 0x100 ∧ rel % 0x100 ≤ 0x60)

/-- The parked record of a stream that an entry to L3 parks: its former slot, and zero where the resume entry holds the rest
(R440). -/
def parkStream (slot : Nat) (x : Stream) : Stream :=
  Stream.seal { x with st := .parked, ptVault := 0, ptFrame := 0, kdie := 0, pki := 0, rkh := 0, slotWas := some slot }

/-- The active streams in ascending slot order. -/
def State.active (s : State) : List (Nat × Stream) :=
  s.helm.streams.filterMap (fun e => e.2.map (fun x => (e.1, x)))

/-- Enter L3 (R440): every active stream is parked in slot order ahead of the list, its resume entry held; the compute dies
power down, their scratchpad counters cleared (R172), and the vaults enter self-refresh. -/
def enterL3 (s : State) (auto : Bool) : State :=
  let l := s.active
  let s0 := s.setParked (s.helm.parkHead + parkRecords - l.length % parkRecords) (l.map (fun e => parkStream e.1 e.2) ++ s.helm.parked)
  let s1 := selfRefresh s0
  { s1 with
    cores := (s1.cores.map (fun e => (e.1, e.2.poweredDown))).filter (fun e => decide (e.2 ≠ Core.init)),
    reg := { s1.reg with ctrs := s1.reg.ctrs.filter (fun e => !isSpCtr e.1) },
    helm := { s1.helm with
      streams := [],
      resume := s1.helm.resume ++ l.map (fun e => { e.2 with slotWas := some e.1 }) },
    pwr := { s1.pwr with state := 2, entering := false, l3parked := l.length, autoEntry := auto } }

/-- May a PARK entry be completed: no step is left, and every active stream is READY (R440)? -/
def State.drained (s : State) : Bool :=
  s.helm.steps.isEmpty && s.active.all (fun e => decide (e.2.st = .ready))

/-- L3_ENTRY (R440): the end of a PARK entry once the last step has been accounted and the last ending stream released, or the
automatic entry from L2. -/
def execL3Entry (s : State) : Host.Outcome State Fault Refusal :=
  noted s (.next (
    if s.pwr.park && s.pwr.entering then (if s.drained then enterL3 s false else s)
    else if s.serving && s.idle && decide (s.pwr.state = 1 ∧ s.pwr.lpmax = 2 ∧ s.pwr.l3idle ≠ 0) && !s.pwr.waking then enterL3 s true
    else s))

/-! ### Waking (R439, R441, R442) -/

/-- A wake starts, if the device sleeps. -/
def startWake (s : State) : State :=
  if s.pwr.state = 0 then s else { s with pwr := { s.pwr with waking := true } }

/-- WAKE_TRIGGER (R439, R441): a request segment, a collective frame, a sealed command or a load request. While PARK is set it
wakes nothing. -/
def execWakeTrigger (_cause : WakeCause) (s : State) : Host.Outcome State Fault Refusal :=
  noted s (.next (if s.pwr.park then s else if s.pwr.state = 1 ∨ s.pwr.autoEntry then startWake s else s))

/-- One core of a resident Pattern is written again at a wake from L3: R433 steps 3 to 5 and the image, with its locks held and
its first dispatch at the restart entry (R441). -/
def wakeCore (s : State) (pi ri : Nat) (m : Manifest) (c : Nat) (img : CoreImage) : State :=
  if s.isAbsent c then s else
  let k := s.core c
  let s1 := discardAll (s.emits (k.prod.map (fun e => .disconnect e.dest e.q c e.epoch e.credits))) c
  let s2 := placeCore (s1.setCore c k.afterReset) c pi ri m img false
  s2.setCore c { s2.core c with locks := k.locks }

/-- Every core of a region is written again. -/
def wakeRegion (s : State) (pi ri : Nat) (p : Pattern) (r : Region) : State :=
  let s1 := (List.range r.cores.length).foldl (fun s i =>
    match r.image.cores[i]? with
    | none => s
    | some img => wakeCore s pi ri p.manifest (r.cores.getD i 0) img) s
  match s1.pat pi with
  | none => s1
  | some q => s1.setPat pi (q.setRegion ri { r with arrived := [] })

/-- Every core of every resident Pattern is written again. -/
def wakeCores (s : State) : State :=
  s.helm.pats.foldl (fun s e =>
    match e.2 with
    | none => s
    | some p => if p.resident then (numbered p.regions).foldl (fun s r => wakeRegion s e.1 r.1 p r.2) s else s) s

/-- WAKE_END (R441, R442): the device is ACTIVE again; after L3 its cores have been written. A PARK written during the wake takes
effect now. -/
def execWakeEnd (s : State) : Host.Outcome State Fault Refusal :=
  noted s (.next (
    if s.pwr.waking = false then s else
    let s1 := if s.pwr.state = 2 then wakeCores s else s
    { s1 with pwr := { s1.pwr with state := 0, waking := false, autoEntry := false, entering := s1.pwr.park } }))

/-! ### GLB_PWR_REQ (R437) -/

/-- What a rise of PARK starts (R440, R442): the entry, unless the device is in L3 already or wakes. -/
def parkRise (s : State) : State :=
  if s.serving = false ∨ s.pwr.waking = true ∨ s.pwr.state = 2 then s
  else { s with pwr := { s.pwr with entering := true } }

/-- What a fall of PARK starts (R441, R442): the end of an entry, and a wake from the state reached. -/
def parkFall (s : State) : State := startWake { s with pwr := { s.pwr with entering := false } }

/-- A write of GLB_PWR_REQ (R437): LPMAX 3 is taken as 2, L2_IDLE 0 as 1. PARK's edges act (R440, R441); an LPMAX below the
current state wakes the device (R439). -/
def pwrReqWrite (s : State) (v : W32) : State :=
  let w := v.toNat
  let p : PowerRegs := { s.pwr with
    pcap := bitsOf w 0 12, lpmax := min 2 (bitsOf w 12 2), park := bitOf w 14, l2idle := max 1 (bitsOf w 16 8), l3idle := bitsOf w 24 8 }
  let s1 := { s with pwr := p }
  let s2 := if p.park && !s.pwr.park then parkRise s1 else if s.pwr.park && !p.park then parkFall s1 else s1
  if !p.park && decide (p.lpmax < s2.pwr.state) then startWake s2 else s2

/-- PARK_SET (R440). -/
def execParkSet (value : W32) (s : State) : Host.Outcome State Fault Refusal := noted s (.next (pwrReqWrite s value))

/-- PARK_CLEAR (R441). -/
def execParkClear (value : W32) (s : State) : Host.Outcome State Fault Refusal := noted s (.next (pwrReqWrite s value))

/-- LPMAX_WRITE (R439). -/
def execLpmaxWrite (value : W32) (s : State) : Host.Outcome State Fault Refusal := noted s (.next (pwrReqWrite s value))

end Sys2Proof.Machine
end

