-- ==== Sys2Proof/Machine/PortRegs.lean ====
section
/-! DEFINITION. The address set of an Ethernet port as its registers show it, and the rules its values keep (R415, R476, R477). -/

namespace Sys2Proof.Machine

/-- Bits [32n + 31 : 32n] of a field. -/
def wordOf (v n : Nat) : Nat := v / 2 ^ (32 * n) % 2 ^ 32

/-- A field with bits [32n + 31 : 32n] replaced. -/
def withWord (v n w : Nat) : Nat := v - wordOf v n * 2 ^ (32 * n) + w % 2 ^ 32 * 2 ^ (32 * n)

/-- The value of the register of a port address set at an offset of the set; none where no register lies (R476). -/
def paGet (a : PortAddr) (o : Nat) : Option Nat :=
  match o with
  | 0x00 => some (wordOf a.mac.toNat 0)
  | 0x04 => some (wordOf a.mac.toNat 1)
  | 0x08 => some (a.vid % 4096 + b2n a.vlanEn * 4096)
  | 0x0C => some a.ipv4.toNat
  | 0x10 => some a.gw4.toNat
  | 0x14 => some (a.pfx6 % 256 + a.pfx4 % 64 * 256)
  | 0x18 => some (a.mtu % 2 ^ 14 + a.pfcEn.toNat * 2 ^ 16 + b2n a.pauseEn * 2 ^ 24)
  | 0x20 => some (wordOf a.ipv6.toNat 0)
  | 0x24 => some (wordOf a.ipv6.toNat 1)
  | 0x28 => some (wordOf a.ipv6.toNat 2)
  | 0x2C => some (wordOf a.ipv6.toNat 3)
  | 0x30 => some (wordOf a.gw6.toNat 0)
  | 0x34 => some (wordOf a.gw6.toNat 1)
  | 0x38 => some (wordOf a.gw6.toNat 2)
  | 0x3C => some (wordOf a.gw6.toNat 3)
  | 0x40 => some (wordOf a.iid.toNat 0)
  | 0x44 => some (wordOf a.iid.toNat 1)
  | 0x48 => some (wordOf a.dscp.toNat 0)
  | 0x4C => some (wordOf a.dscp.toNat 1)
  | 0x50 => some (wordOf a.dscp.toNat 2)
  | _ => none

/-- The set with the register at an offset written; reserved bits are ignored (R12). -/
def paSet (a : PortAddr) (o w : Nat) : PortAddr :=
  match o with
  | 0x00 => { a with mac := BitVec.ofNat 48 (withWord a.mac.toNat 0 w) }
  | 0x04 => { a with mac := BitVec.ofNat 48 (withWord a.mac.toNat 1 (w % 2 ^ 16)) }
  | 0x08 => { a with vid := w % 4096, vlanEn := bitOf w 12 }
  | 0x0C => { a with ipv4 := BitVec.ofNat 32 w }
  | 0x10 => { a with gw4 := BitVec.ofNat 32 w }
  | 0x14 => { a with pfx6 := bitsOf w 0 8, pfx4 := bitsOf w 8 6 }
  | 0x18 => { a with mtu := bitsOf w 0 14, pfcEn := BitVec.ofNat 8 (bitsOf w 16 8), pauseEn := bitOf w 24 }
  | 0x20 => { a with ipv6 := BitVec.ofNat 128 (withWord a.ipv6.toNat 0 w) }
  | 0x24 => { a with ipv6 := BitVec.ofNat 128 (withWord a.ipv6.toNat 1 w) }
  | 0x28 => { a with ipv6 := BitVec.ofNat 128 (withWord a.ipv6.toNat 2 w) }
  | 0x2C => { a with ipv6 := BitVec.ofNat 128 (withWord a.ipv6.toNat 3 w) }
  | 0x30 => { a with gw6 := BitVec.ofNat 128 (withWord a.gw6.toNat 0 w) }
  | 0x34 => { a with gw6 := BitVec.ofNat 128 (withWord a.gw6.toNat 1 w) }
  | 0x38 => { a with gw6 := BitVec.ofNat 128 (withWord a.gw6.toNat 2 w) }
  | 0x3C => { a with gw6 := BitVec.ofNat 128 (withWord a.gw6.toNat 3 w) }
  | 0x40 => { a with iid := BitVec.ofNat 64 (withWord a.iid.toNat 0 w) }
  | 0x44 => { a with iid := BitVec.ofNat 64 (withWord a.iid.toNat 1 w) }
  | 0x48 => { a with dscp := BitVec.ofNat 96 (withWord a.dscp.toNat 0 w) }
  | 0x4C => { a with dscp := BitVec.ofNat 96 (withWord a.dscp.toNat 1 w) }
  | 0x50 => { a with dscp := BitVec.ofNat 96 (withWord a.dscp.toNat 2 w) }
  | _ => a

/-- The ranges and rules of R415 for a port's values. The first octet of a MAC address is its bits [7:0] (R8). -/
def paOk (a : PortAddr) : Bool :=
  !a.mac.getLsbD 0 && (!a.vlanEn || decide (1 ≤ a.vid ∧ a.vid ≤ 4094)) && (decide (a.ipv4 ≠ 0) || decide (a.gw4 = 0 ∧ a.pfx4 = 0))
    && (decide (a.ipv4 = 0) || decide (1 ≤ a.pfx4 ∧ a.pfx4 ≤ 32)) && decide (a.ipv6 ≠ 0) && decide (1 ≤ a.pfx6 ∧ a.pfx6 ≤ 128)
    && decide (1518 ≤ a.mtu ∧ a.mtu ≤ 9216)

/-- The ingress threshold's range (R415). -/
def threshOk (n : Nat) : Bool := decide (1 ≤ n ∧ n ≤ 1032)

end Sys2Proof.Machine
end

