-- ==== Sys2Proof/Machine/ChartWords.lean ====
section
/-! DEFINITION. What lies in flash and in signed records, read and built byte by byte: the dual signature block, certificates, the Chart's
header, directory and sections (R393 to R396, R412 to R417), and the header of a sealed command (R402). -/

namespace Sys2Proof.Machine

/-! ### Bytes of flash (R8, R410) -/

/-- The `n` bytes of a flash device from address `a`; a byte that was never programmed reads as 0xFF. -/
def flashRun (m : Sparse Byte) (a n : Nat) : List Byte := go n a (m.dropWhile (fun e => decide (e.1 < a)))
where
  /-- The same, from a list that begins at or after `a`. -/
  go : Nat → Nat → Sparse Byte → List Byte
    | 0, _, _ => []
    | n + 1, a, [] => 0xFF :: go n (a + 1) []
    | n + 1, a, (x, b) :: r => if x = a then b :: go n (a + 1) r else 0xFF :: go n (a + 1) ((x, b) :: r)

/-- The `n` bytes from `a` as one little-endian number (R8). -/
def flashNat (m : Sparse Byte) (a n : Nat) : Nat := ofBytes (flashRun m a n)

/-- The flash device that holds an image (R410). -/
def State.flash (s : State) (n : Fin 2) : Sparse Byte := if n = 0 then s.flashA else s.flashB

/-! ### The dual signature block (R393, R394) -/

/-- Is `h` the header of a block with this SLHPAR? -/
def sigHeaderOk (slhpar : Nat) (h : BitVec 128) : Bool :=
  let n := h.toNat
  decide (bitsOf n 0 32 = 0x53474C44 ∧ bitsOf n 32 8 = slhpar ∧ bitsOf n 40 88 = 0)

/-- The bytes of a block with SLHPAR 1 (SLH-DSA-SHA2-128s), and otherwise with SLHPAR 2 (SLH-DSA-SHA2-128f). -/
def sigLen (slhpar : Nat) : Nat := 16 + 384 + (if slhpar = 1 then 7856 else 17088)

/-- A block with SLHPAR 2: its header, the RSA signature big-endian, the SLH-DSA signature. -/
def sigBlock (rsa : BitVec 3072) (slh : BitVec 136704) : List Byte :=
  toBytes 4 0x53474C44 ++ toBytes 12 2 ++ (toBytes 384 rsa.toNat).reverse ++ toBytes 17088 slh.toNat

/-! ### Certificates (R395, R396) -/

/-- Bytes of a certificate: its body and its issuer's block. -/
def certLen : Nat := 576 + sigLen 1

/-- The role that the place of certificate `i` in CERTS requires (R414). -/
def certRole (i : Nat) : Nat := if i = 0 then 1 else if i < 3 then 2 else if i = 3 then 3 else if i = 4 then 4 else 5

/-- Is the certificate at `a` laid out as the certificate at place `i` must be? A Lodestar's key is of SLH-DSA-SHA2-128f, since reports
carry SLHPAR 2, and every other signer's of 128s (R394, R397). -/
def certFits (m : Sparse Byte) (a i : Nat) : Bool :=
  let n := flashNat m a 576
  let role := certRole i
  decide (bitsOf n 0 32 = 0x54524344 ∧ bitsOf n 32 8 = 1 ∧ bitsOf n 40 8 = role ∧ bitsOf n 48 8 = (if role = 2 then 2 else 1)
      ∧ bitsOf n 56 8 = (if role = 2 then i - 1 else 0xFF) ∧ bitsOf n 96 32 = 0 ∧ bitsOf n 192 320 = 0)
    && sigHeaderOk 1 (BitVec.ofNat 128 (flashNat m (a + 576) 16))

/-- CEPOCH and SUBJECT of the certificate at `a`. -/
def certEpoch (m : Sparse Byte) (a : Nat) : Nat := flashNat m (a + 8) 4
def certSubject (m : Sparse Byte) (a : Nat) : BitVec 384 := BitVec.ofNat 384 (flashNat m (a + 112) 48)

/-! ### The header and the directory (R413, R414) -/

/-- The GEN of a header that is well-formed enough to give one: MAGIC and VERSION are right (R412, log 66). -/
def genOf (m : Sparse Byte) : Option Nat :=
  if flashNat m 0 5 = 0x154524843 then some (flashNat m 12 4) else none

/-- TOTLEN. -/
def totlenOf (m : Sparse Byte) : Nat := flashNat m 16 4

/-- Directory entry `i`. -/
def sectEnt (m : Sparse Byte) (i : Nat) : SectEnt :=
  let n := flashNat m (64 + 64 * i) 64
  { stype := bitsOf n 0 8, offset := bitsOf n 32 32, length := bitsOf n 64 32, hash := BitVec.ofNat 384 (bitsOf n 128 384),
    reservedOk := decide (bitsOf n 8 24 = 0 ∧ bitsOf n 96 32 = 0) }

/-- The nine entries in directory order. -/
def directory (m : Sparse Byte) : List SectEnt := (List.range 9).map (sectEnt m)

/-- Offset and length of the section of an STYPE. -/
def sectOf (m : Sparse Byte) (st : Nat) : Nat × Nat :=
  match (directory m).find? (fun e => decide (e.stype = st)) with
  | none => (0, 0)
  | some e => (e.offset, e.length)

/-- The bytes of a section. -/
def sectBytes (m : Sparse Byte) (st : Nat) : List Byte := flashRun m (sectOf m st).1 (sectOf m st).2

/-- Do two sections share no byte? -/
def sectsApart (a b : SectEnt) : Bool := decide (a.offset + a.length ≤ b.offset ∨ b.offset + b.length ≤ a.offset)

/-- The rules of R414 for the directory; the Chart ends with its last section (R413). -/
def directoryOk (m : Sparse Byte) : Bool :=
  let d := directory m
  d.all (fun e => e.reservedOk && decide (e.offset % 4096 = 0 ∧ 16384 ≤ e.offset ∧ 0 < e.length ∧ e.offset + e.length ≤ totlenOf m))
    && (List.range 9).all (fun i => d.any (fun e => decide (e.stype = i + 1)))
    && (List.range 9).all (fun i => (List.range i).all (fun j => sectsApart (sectEnt m i) (sectEnt m j)))
    && d.any (fun e => decide (e.offset + e.length = totlenOf m))

/-- The first check of R417: the header record, the unused bytes behind the directory, and the directory. -/
def headerFits (m : Sparse Byte) : Bool :=
  decide (flashNat m 0 8 = 0x90154524843 ∧ flashNat m 20 44 = 0 ∧ totlenOf m ≤ 100663296 ∧ flashNat m 640 3456 = 0) && directoryOk m

/-! ### Firmware (R414) -/

/-- Is a firmware section laid out for its TARGET: its header, and the header of the block at its end? -/
def firmwareFits (m : Sparse Byte) (target : Nat) : Bool :=
  let e := sectOf m (target + 2)
  let h := flashNat m e.1 64
  decide (64 + sigLen 1 ≤ e.2 ∧ bitsOf h 0 32 = 0x57464C44 ∧ bitsOf h 32 8 = target ∧ bitsOf h 40 24 = 0 ∧ bitsOf h 160 352 = 0)
    && (decide (target = 0) || decide (bitsOf h 64 96 = 0)) && sigHeaderOk 1 (BitVec.ofNat 128 (flashNat m (e.1 + e.2 - sigLen 1) 16))

/-- MINEP1 to MINEP3 by role. -/
def minEpoch (m : Sparse Byte) (role : Nat) : Nat := flashNat m ((sectOf m 2).1 + 4 + 4 * role) 4

/-! ### Critical sections: a record and its complement (R37, R414) -/

/-- The half of a section that holds the record. -/
def halfOf (m : Sparse Byte) (st : Nat) : Nat := (sectOf m st).2 / 2

/-- Does the second half of a section hold the complement of the first? -/
def sectPairOk (m : Sparse Byte) (st : Nat) : Bool :=
  let h := halfOf m st
  decide ((sectOf m st).2 % 2 = 0) && compl (8 * h) (flashNat m (sectOf m st).1 h) (flashNat m ((sectOf m st).1 + h) h)

/-! ### The configuration record (R415) -/

/-- The record of a port, with the device fields that its register set holds too (R476). -/
def portRecOf (dev n : Nat) : PortAddr :=
  { mac := BitVec.ofNat 48 (bitsOf n 0 48), vid := bitsOf n 48 12, vlanEn := bitOf n 60, ipv4 := BitVec.ofNat 32 (bitsOf n 64 32),
    gw4 := BitVec.ofNat 32 (bitsOf n 96 32), ipv6 := BitVec.ofNat 128 (bitsOf n 128 128), gw6 := BitVec.ofNat 128 (bitsOf n 256 128),
    iid := BitVec.ofNat 64 (bitsOf n 384 64), pfx6 := bitsOf n 448 8, pfx4 := bitsOf n 456 6,
    mtu := bitsOf dev 192 14, pfcEn := BitVec.ofNat 8 (bitsOf dev 208 8), pauseEn := bitOf dev 216,
    dscp := BitVec.ofNat 96 (bitsOf dev 256 96) }

/-- The reserved bits of a port record. -/
def portReservedOk (n : Nat) : Bool := decide (bitsOf n 61 3 = 0 ∧ bitsOf n 462 50 = 0)

/-- The reserved bits of the device fields. -/
def devReservedOk (n : Nat) : Bool :=
  [(38, 2), (56, 8), (140, 4), (171, 5), (187, 5), (206, 2), (217, 39), (352, 32), (1408, 640)].all
    (fun e => decide (bitsOf n e.1 e.2 = 0))

/-- The configuration record of 768 B. -/
def configOf (n : Nat) : ConfigRec :=
  let dev := bitsOf n 0 2048
  let ports := (List.range 8).map (fun p => bitsOf n (2048 + 512 * p) 512)
  { nodeId := bitsOf dev 0 32, slot := bitsOf dev 32 3, linkPrev := bitOf dev 35, place := bitOf dev 36, mend := bitOf dev 37,
    linkRev := bitsOf dev 40 8, arithRev := bitsOf dev 48 8, minep4 := bitsOf dev 64 32, minep5 := bitsOf dev 96 32,
    pcapDef := bitsOf dev 128 12, rqLimit := bitsOf dev 144 16, ingThresh := bitsOf dev 160 11, resvTop := bitsOf dev 176 11,
    sst := (List.range 256).map (fun i => bitsOf dev (384 + 4 * i) 4), ports := ports.map (portRecOf dev),
    reservedOk := devReservedOk dev && ports.all portReservedOk }

/-- The ranges of R415. -/
def configOk (c : ConfigRec) : Bool :=
  c.reservedOk && decide (c.slot < 8) && (!c.linkPrev || decide (c.linkRev ≠ 0)) && decide (1000 ≤ c.pcapDef ∧ c.pcapDef ≤ 3300)
    && decide (10 ≤ c.rqLimit ∧ c.rqLimit ≤ 30000) && threshOk c.ingThresh && decide (131 ≤ c.resvTop ∧ c.resvTop ≤ 1024)
    && decide (c.sst.length = 256) && c.sst.all (fun n => decide (n < 16)) && decide (c.ports.length = 8) && c.ports.all paOk

/-! ### The repair map (R416) and the Pattern list (R414) -/

/-- The defective sites of the bitmap. -/
def repairSites (n : Nat) : List Nat := (List.range Config.nSites).filter (fun t => bitOf n t)

/-- The listed frames, as vault and frame. -/
def repairFrames (n count : Nat) : List (Nat × Nat) :=
  (List.range count).map (fun i => (bitsOf n (32 * i) 13, bitsOf n (32 * i + 13) 14))

/-- Is the repair map of `n` bytes at `a` in its ranges, with its reserved bits zero? -/
def repairOk (m : Sparse Byte) (a n : Nat) : Bool :=
  let count := flashNat m (a + 576) 4
  decide (count ≤ 4096 ∧ n = 584 + 4 * count ∧ flashNat m (a + 580) 4 = 0)
    && (List.range count).all (fun i =>
      let w := flashNat m (a + 584 + 4 * i) 4
      decide (bitsOf w 0 13 < Config.nSites ∧ bitsOf w 27 5 = 0))

/-- Is the Pattern list of `n` bytes at `a` in its ranges? -/
def patternsOk (m : Sparse Byte) (a n : Nat) : Bool :=
  let count := flashNat m a 4
  decide (count ≤ 256 ∧ n = 64 + 48 * count ∧ flashNat m (a + 4) 60 = 0)

/-! ### A Chart as a whole (R413 to R416) -/

/-- The certificates of CERTS. -/
def certCount (m : Sparse Byte) : Nat := (sectOf m 1).2 / certLen

/-- Where certificate `i` lies. -/
def certAt (m : Sparse Byte) (i : Nat) : Nat := (sectOf m 1).1 + certLen * i

/-- The Chart that a flash device holds. -/
def chartOf (m : Sparse Byte) : ChartImage :=
  let r := (sectOf m 8).1
  let p := (sectOf m 9).1
  { family := flashNat m 8 2, member := flashNat m 10 2, gen := flashNat m 12 4, totlen := totlenOf m,
    config := configOf (flashNat m (sectOf m 7).1 768),
    badSites := repairSites (flashNat m r 576),
    badFrames := repairFrames (flashNat m (r + 584) (4 * flashNat m (r + 576) 4)) (flashNat m (r + 576) 4),
    patterns := (List.range (flashNat m p 4)).map (fun i => BitVec.ofNat 384 (flashNat m (p + 64 + 48 * i) 48)),
    certs := sectBytes m 1, signers := certCount m - 5,
    chartHash := Config.sha384 (flashRun m 0 (totlenOf m)),
    fwHash := Config.sha384 (sectBytes m 2 ++ sectBytes m 3 ++ sectBytes m 4),
    devid := certSubject m (certAt m 1), opid := certSubject m (certAt m 4) }

/-! ### The checks of an image (R396, R417) -/

/-- Has the section of an STYPE its hash (R414)? -/
def hashOk (t : ImageTests) (st : Nat) : Bool := t.hashes.getLsbD (st - 1)

/-- Is certificate `i` accepted but for its epoch (R396)? -/
def certAccepted (m : Sparse Byte) (t : ImageTests) (i : Nat) : Bool := certFits m (certAt m i) i && t.certs.getLsbD i

/-- Is certificate `i` at or above the least epoch of its role (R396)? -/
def certRecent (m : Sparse Byte) (c : ConfigRec) (i : Nat) : Bool :=
  let role := certRole i
  let least := if role ≤ 3 then minEpoch m role else if role = 4 then c.minep4 else c.minep5
  decide (least ≤ certEpoch m (certAt m i))

/-- Is a firmware's signature right (R414, R394)? -/
def firmwareOk (m : Sparse Byte) (t : ImageTests) (target : Nat) : Bool := firmwareFits m target && t.fwSigs.getLsbD target

/-- The first check of R417 that the image of a flash device fails. `la` and `lb` say whether a Lodestar has passed its ROM self-check
and recovered its keys (R390, R397), which takes PUF and SECRET sections of the lengths of R414. -/
def imageCheck (la lb : Bool) (m : Sparse Byte) (t : ImageTests) : Option Code :=
  let c := chartOf m
  let sig := sigHeaderOk 1 (BitVec.ofNat 128 (flashNat m 4096 16))
  firstCode
    [ (!headerFits m, .chartFormat), (decide (c.family ≠ 0x4C4D ∨ c.member ≠ 0x9032), .chartFamily),
      (!hashOk t 1 || decide ((sectOf m 1).2 % certLen ≠ 0 ∨ certCount m < 5 ∨ 9 < certCount m) || !certAccepted m t 3
        || !certAccepted m t 4, .chartCert),
      (!sig || (!t.headRsa && !t.headSlh), .chartSigBoth), (!t.headRsa, .chartSigRsa), (!t.headSlh, .chartSigSlh),
      (!hashOk t 2 || !firmwareOk m t 0, .fwSig), (!([0, 1, 2, 3].all (certRecent m c.config)), .chartCert),
      (!([3, 4, 5, 6, 7, 8, 9].all (hashOk t)), .sectHash), (!firmwareOk m t 1 || !firmwareOk m t 2, .fwSig),
      (!(List.range (certCount m)).all (fun i => certAccepted m t i && certRecent m c.config i), .chartCert),
      (!([7, 8, 9].all (sectPairOk m)), .pairMismatch),
      (decide (halfOf m 7 ≠ 768) || !configOk c.config || !repairOk m (sectOf m 8).1 (halfOf m 8)
        || !patternsOk m (sectOf m 9).1 (halfOf m 9), .chartRange),
      (decide ((sectOf m 5).2 ≠ 16416 ∨ (sectOf m 6).2 ≠ 2168) || (!la && !lb), .pufFail) ]

end Sys2Proof.Machine

namespace Sys2Proof

open Machine

/-! ### Sealed commands (R402, R405) -/

/-- The header fields of a sealed command. -/
def Sealed.opcode (c : Sealed) : Nat := bitsOf c.hdr.toNat 40 8
def Sealed.enc (c : Sealed) : Bool := bitOf c.hdr.toNat 48
def Sealed.signer (c : Sealed) : Nat := bitsOf c.hdr.toNat 49 2
def Sealed.plen (c : Sealed) : Nat := bitsOf c.hdr.toNat 64 32
def Sealed.challenge (c : Sealed) : BitVec 256 := BitVec.ofNat 256 (bitsOf c.hdr.toNat 128 256)
def Sealed.devid (c : Sealed) : BitVec 384 := BitVec.ofNat 384 (bitsOf c.hdr.toNat 384 384)

/-- Check 1 of R405. -/
def Sealed.lengthOk (c : Sealed) : Bool := decide (c.len = 128 + c.plen + sigLen 1 ∧ c.plen ≤ 2 ^ 20)

/-- Check 2 of R405, for the command of an opcode. -/
def Sealed.formatOk (c : Sealed) (op : Nat) : Bool :=
  let n := c.hdr.toNat
  decide (bitsOf n 0 32 = 0x53434C58 ∧ bitsOf n 32 8 = 1 ∧ c.opcode = op ∧ bitsOf n 51 13 = 0 ∧ bitsOf n 96 32 = 0 ∧ bitsOf n 768 256 = 0)
    && sigHeaderOk 1 c.block

end Sys2Proof
end

