-- ==== Sys2Proof/Machine/RegRead.lean ====
section
/-! DEFINITION. The register space and BAR2 as reads show them (R309, R409, R446, R451 to R453, R459, R460, R463 to R481). -/

namespace Sys2Proof.Machine

/-! ### Where an offset lies (R446, R465, R466) -/

/-- The register block of an offset. -/
def blockOf (ofs : Nat) : Option Nat :=
  if ofs < 0x800000 then some (ofs / 0x100000)
  else if 0x1000000 ≤ ofs ∧ ofs < 0x4000000 then some (8 + (ofs - 0x1000000) / 0x200000) else none

/-- Does a block serve register accesses (R422, R446, R478)? -/
def State.serves (s : State) (b : Nat) : Bool :=
  decide (b < 2) ||
    (decide (2 ≤ s.start.stage ∧ s.start.stage ≠ 8) && (decide (b < 8) || (s.dieIn (b - 8) && !s.refLost)))

/-! ### Counters (R453, R468, R473, R475, R478 to R480) -/

/-- Width of the counter at an offset of a compute-die block, or zero. -/
def dieCtrBits (rel : Nat) : Nat :=
  if rel < 0x1000 then 0
  else if rel < 0xC000 then
    (if rel % 0x100 < 0xD0 then (if rel % 8 = 0 then 64 else 0) else if rel % 0x100 < 0xEC ∧ rel % 4 = 0 then 32 else 0)
  else if rel < 0xF000 then
    (if rel % 0x40 < 0x30 then (if rel % 8 = 0 then 64 else 0) else if rel % 4 = 0 then 32 else 0)
  else if rel = 0xF000 ∨ rel = 0xF008 then 64 else if rel = 0xF010 then 32 else 0

/-- Width of the counter at an offset of a port-die block, or zero. -/
def portCtrBits (rel : Nat) : Nat :=
  if rel ∈ [0x1000, 0x1008, 0x1010, 0x1018, 0x1020, 0x1028, 0x1100, 0x1108, 0x1110, 0x1118, 0x1120, 0x1128, 0x1200, 0x1208, 0x1240,
      0x1248, 0x1280, 0x1288, 0x1400, 0x1408, 0x1410] then 64
  else if rel ∈ [0x1030, 0x1034, 0x1130, 0x1134, 0x1210, 0x1250, 0x1290, 0x1418, 0x141C, 0x1420, 0x1424] then 32 else 0

/-- Width of the counter at an offset of a block: 64 for type C64, 32 for type RO, zero where there is none. -/
def ctrBits (b rel : Nat) : Nat :=
  if b = 0 then 0
  else if b = 1 then (if rel = 0x30 ∨ rel = 0x34 then 32 else 0)
  else if b < 4 then
    (if rel = 0x100 ∨ rel = 0x104 then 32 else if 0x110 ≤ rel ∧ rel < 0x150 ∧ rel % 8 = 0 then 64 else 0)
  else if b < 8 then portCtrBits rel else dieCtrBits rel

/-- Counters of clock cycles and of die-cache events, whose values the model leaves free (log 16). -/
def timeDriven (b rel : Nat) : Bool :=
  decide (8 ≤ b) &&
    (if rel < 0xC000 then decide (rel % 0x100 ∈ [0x00, 0x20, 0x28, 0x30, 0x38, 0x40, 0x48, 0x50, 0x58, 0x68, 0x98, 0xC8])
     else if rel < 0xF000 then decide (rel % 0x40 = 0) else true)

/-- Does an offset lie in the record of an absent logical core, or of a vault out of use (R478)? -/
def State.recordOff (s : State) (b rel : Nat) : Bool :=
  if b < 8 ∨ rel < 0x1000 ∨ 0xF000 ≤ rel then false
  else if rel < 0xC000 then s.isAbsent (coreOf (b - 8) ((rel - 0x1000) / 0x100))
  else (s.vault (vaultOf (b - 8) ((rel - 0xC000) / 0x40))).out

/-- Active entries of a Helm's half (R308, R473). -/
def State.activeIn (s : State) (h : Nat) : Nat :=
  (s.helm.streams.filter (fun e => e.2.isSome && decide (e.1 / halfSlots = h))).length

/-- A counter of the event-driven kind, as it stands. -/
def State.countNow (s : State) (b rel : Nat) : W64 :=
  if b = 1 then (if rel = 0x30 then s.host.privDeny.setWidth 64 else s.host.badAccess.setWidth 64)
  else if b < 4 ∧ rel = 0x100 then BitVec.ofNat 64 (s.activeIn (b - 2))
  else if b = 2 ∧ rel = 0x104 then BitVec.ofNat 64 s.helm.parked.length
  else if b = 3 ∧ rel = 0x104 then 0
  else s.ctr (blockBase b + rel)

/-- A free value in a counter's width. -/
def freeCtr (b rel d : Nat) : W64 := BitVec.ofNat 64 ((Config.timeCtr (blockBase b + rel) d).toNat % 2 ^ ctrBits b rel)

/-- The offset in its record under which the model marks that what a timed counter counts can have happened since the counter was
last cleared (R124, R154, R172, R197, R234, R284): each keeps its mark where it is cleared itself. -/
def markOf (rel : Nat) : Nat :=
  let o := rel % 0x100
  if 0xC000 ≤ rel then rel
  else rel - o + (if o = 0x20 ∨ o = 0x28 then 0x00 else if 0x38 ≤ o ∧ o ≤ 0x58 then 0x38 else if o = 0x98 then 0x68 else o)

/-- Has a timed counter had cause to count since it was cleared? The counters of a die cache have once a vault of the die has been
accessed or refreshed. -/
def State.timeMoved (s : State) (b rel : Nat) : Bool :=
  if 0xF000 ≤ rel then
    (List.range 192).any (fun i => let v := s.vault (vaultOf (b - 8) i); !v.openRows.isEmpty || decide (v.refreshed ≠ 0))
  else decide (s.ctr (blockBase b + markOf rel) ≠ 0)

/-- The live counter at an offset; a timed one that has had no cause to count is zero. -/
def State.ctrLive (s : State) (b rel : Nat) : W64 :=
  if s.recordOff b rel then 0
  else if timeDriven b rel then (if s.timeMoved b rel then freeCtr b rel s.drawn else 0)
  else s.countNow b rel

/-- The held copy of the counter at an offset. -/
def State.ctrHeld (s : State) (b rel : Nat) : W64 :=
  if timeDriven b rel then
    (let d := Sparse.get 0 s.reg.snapDraw b
     if d = 0 ∨ s.recordOff b rel = true ∨ (rel < 0xF000 ∧ Sparse.get 0 s.reg.held (blockBase b + markOf rel) = 0) then 0
     else freeCtr b rel d)
  else Sparse.get 0 s.reg.held (blockBase b + rel)

/-! ### Plain registers of the live part -/

/-- UPD_PENDING (R449): the groups with a block that has not applied its staged writes. -/
def State.updPending (s : State) : Nat := (List.range 16).foldl (fun a g =>
  a + (if s.reg.strobed.any (fun e => decide (e.2.1 = g)) then 2 ^ g else 0)) 0

/-- GLB_SVC_MODE (R309). -/
def State.svcMode (s : State) : Nat := b2n s.place + b2n s.mend * 2

/-- The global block (R469). -/
def State.globalReg (s : State) (rel : Nat) : Nat :=
  match rel with
  | 0x00 => 0x4C4D9032
  | 0x04 => s.glbStart
  | 0x08 => s.svcMode
  | 0x0C => s.glbHealth
  | 0x10 => s.log.evNext.toNat
  | 0x14 => s.glbSites
  | 0x40 => s.glbPwrReq
  | 0x44 => s.glbPwrState
  | 0x48 => s.glbPin
  | 0x4C => s.glbTherm
  | 0x84 => s.updPending
  | _ => 0

/-- A word of the MSI-X table; the mask bit is kept inverted (log 34). -/
def State.msixWord (s : State) (i : Nat) : Nat :=
  let w := (Sparse.get 0 s.host.msixTable i).toNat
  if i % 4 = 3 then 1 - w % 2 else w

/-- The host-interface block (R456, R472). -/
def State.hostReg (s : State) (rel : Nat) : Nat :=
  let h := s.host
  match rel with
  | 0x00 => h.irqSeq.toNat * 2 ^ 16 + h.irqBits.toNat
  | 0x10 => h.telBaseLo.toNat
  | 0x14 => h.telBaseHi.toNat
  | 0x18 => h.telSize
  | 0x1C => b2n h.telEnable + h.telThresh % 256 * 256
  | 0x20 => h.telHead.toNat
  | 0x24 => h.telTail.toNat
  | 0x28 => if h.linkUp then h.rate % 16 + h.width % 64 * 16 + b2n h.flit * 1024 else 0
  | 0x2000 => h.pba.toNat
  | _ => if 0x1000 ≤ rel ∧ rel < 0x1200 then s.msixWord ((rel - 0x1000) / 4) else 0

/-- HELM_RESIDENT (R473). -/
def State.residentOn (s : State) (h : Nat) : Nat :=
  (s.helm.pats.filter (fun e => match e.2 with | none => false | some p => p.resident && decide (p.helm.val = h))).length

/-- The status registers of a port-die block (R475). -/
def State.pdReg (s : State) (k rel : Nat) : Nat :=
  let kk : Fin 4 := ⟨k % 4, Nat.mod_lt _ (by decide)⟩
  let p0 : Fin 8 := ⟨2 * (k % 4), by omega⟩
  let p1 : Fin 8 := ⟨2 * (k % 4) + 1, by omega⟩
  match rel with
  | 0x100 => b2n (s.ethUp p0) + b2n (s.ethUp p1) * 2 + b2n (s.nzUp p0) * 2 ^ 8 + b2n (s.nzUp p1) * 2 ^ 9
      + (s.routed.filter (fun e => decide (pdOfLink e.1 = kk ∧ (e.2.st = .up ∨ e.2.st = .retraining ∨ e.2.st = .rekeying)))).length % 4096 * 2 ^ 16
  | 0x104 => s.keysIn kk
  | 0x108 => ((s.pd kk).conns.filter (·.2.isSome)).length
  | _ => 0

/-- SPARE sites of a die. -/
def State.spares (s : State) (d : Nat) : Nat :=
  ((List.range 192).filter (fun i => s.siteOk (vaultOf d i) && (s.heldBy (vaultOf d i)).isNone)).length

/-- The status registers of a compute-die block (R478). -/
def State.dieReg (s : State) (d rel : Nat) : Nat :=
  match rel with
  | 0x100 => b2n (s.dieIn d) + b2n (!Sparse.get false s.helm.diesLost d) * 2 + s.healthy d * 2 ^ 8 + s.spares d * 2 ^ 16
      + (s.absentOn d).length * 2 ^ 24
  | 0x104 => lowBits 8 ((hottest (readings s (junctionsOf d))).getD 0) + lowBits 8 ((hottest (readings s (layersOf d))).getD 0) * 2 ^ 8
      + b2n (Sparse.get false s.power.refresh16 d) * 2 ^ 16
  | _ => 0

/-- A register of the live part that is no counter. -/
def State.plainReg (s : State) (b rel : Nat) : Nat :=
  if rel = 0xF0 then blkKind b + blkIndex b * 2 ^ 8
  else if rel = 0xF8 then (Sparse.get 0 s.reg.snapSeq b).toNat
  else if b = 0 then s.globalReg rel else if b = 1 then s.hostReg rel
  else if b < 4 then (if rel = 0x108 then s.residentOn (b - 2) else 0)
  else if b < 8 then s.pdReg (b - 4) rel else s.dieReg (b - 8) rel

/-! ### The configuration space (R443) -/

/-- The Device Serial Number: bytes 0 to 7 of DEVID, and zero until stage 2 of start-up has recovered the keys. -/
def State.devSerial (s : State) : BitVec 64 := match s.chart with | none => 0 | some c => c.devid.setWidth 64

/-- What the configuration space of the active Lodestar's function says of it. No command of the table reads it (log 98). -/
def State.pciIdentity (s : State) : PciIdentity :=
  { vendor := 0x1F3C, device := 0x9032, revision := 0x01, classCode := 0x120000, subsysVendor := 0x1F3C, subsysId := 0x0001,
    caps := [.powerManagement, .pciExpress, .msix 32, .aer, .serialNumber, .physical16, .physical32, .physical64],
    serial := s.devSerial }

/-! ### The privileged part (R471, R474, R476, R481) -/

/-- A word of the repair map as read (R416, R471). -/
def repairWord (c : ChartImage) (a : Nat) : Nat :=
  if a < 576 then (List.range 32).foldl (fun n i => n + (if 8 * a + i ∈ c.badSites then 2 ^ i else 0)) 0
  else if a = 576 then c.badFrames.length
  else if a = 580 then 0
  else match c.badFrames[(a - 584) / 4]? with
    | none => 0
    | some (v, f) => v % 2 ^ 13 + f % 2 ^ 14 * 2 ^ 13

/-- The privileged registers of the global block, from the Chart in force (R471); zero before it is read. -/
def State.globalPriv (s : State) (rel : Nat) : Option Nat :=
  let g (f : ChartImage → Nat) : Nat := match s.chart with | none => 0 | some c => f c
  match rel with
  | 0x20000 => some (g (fun c => c.config.linkRev % 256 + c.config.arithRev % 256 * 2 ^ 8 + b2n c.config.linkPrev * 2 ^ 16))
  | 0x20004 => some (g (fun c => c.config.nodeId % 2 ^ 32))
  | 0x20008 => some (g (fun c => c.config.slot % 8))
  | 0x2000C => some (g (fun c => c.gen % 2 ^ 32))
  | _ => if 0x30000 ≤ rel ∧ rel < 0x34248 then some (g (fun c => repairWord c (rel - 0x30000))) else none

/-- A word of the slot table in force at a Helm (R293, R474). -/
def sstWord (t : List Nat) (r : Nat) : Nat := (List.range 8).foldl (fun n i => n + t.getD (8 * r + i) 0 % 16 * 2 ^ (4 * i)) 0

/-- A word of a pinned-region entry (R474). -/
def State.pinWord (s : State) (e o : Nat) : Nat :=
  match Sparse.get none s.helm.pinned e with
  | none => 0
  | some (pi, g) =>
    if o = 0 then pi % 64 + 64 + g % 256 * 2 ^ 8
    else match s.pat pi with
      | none => 0
      | some p => match p.segs[g]? with | none => 0 | some x => x.pinix % 64

/-- The privileged registers of a Helm block (R474). -/
def State.helmPriv (s : State) (h rel : Nat) : Option Nat :=
  if 0x20000 ≤ rel ∧ rel < 0x20080 then some (sstWord (if h = 0 then s.helm.sst.get 0 else s.helm.sst.get 1) ((rel - 0x20000) / 4))
  else if 0x21000 ≤ rel ∧ rel < 0x21200 then some (if h = 0 then s.pinWord ((rel - 0x21000) / 8) (rel % 8) else 0)
  else none

/-- Does an offset of a port-die block lie in a key slot (R476)? -/
def inKeySlot (rel : Nat) : Bool := decide (0x40000 ≤ rel ∧ rel < 0x48000 ∧ rel % 0x80 < 112)

/-- The privileged registers of a port-die block (R476): a reset bit is back at zero once retraining has begun, and key slots
read as zero. -/
def State.pdPriv (s : State) (k : Nat) (rel : Nat) : Option Nat :=
  let kk : Fin 4 := ⟨k % 4, Nat.mod_lt _ (by decide)⟩
  if rel = 0x20000 then some 0
  else if rel = 0x20004 then some ((s.pd kk).threshA % 2 ^ 11 + (s.pd kk).threshB % 2 ^ 11 * 2 ^ 16)
  else if 0x21000 ≤ rel ∧ rel < 0x21200 then
    paGet (s.portAddr ⟨2 * (k % 4) + (rel - 0x21000) / 0x100 % 2, by omega⟩) ((rel - 0x21000) % 0x100)
  else if inKeySlot rel then some 0 else none

/-- STATE and STRIKE of a site (R481). -/
def State.siteNibble (s : State) (t : Nat) : Nat :=
  let m := s.mark t
  (if m.retired then 3 else if m.suspect then 2 else if (s.heldBy t).isSome then 0 else 1) + b2n m.strike * 4

/-- An entry of the logical-to-site map with its complement (R311, R481). -/
def State.l2sWord (s : State) (c : Nat) : Nat :=
  let t := match siteOf s.helm c with | none => 0x1FFF | some t => t
  t + (0x1FFF - t) * 2 ^ 16

/-- The privileged registers of a compute-die block (R481). -/
def State.diePriv (s : State) (d rel : Nat) : Option Nat :=
  if 0x20000 ≤ rel ∧ rel < 0x202C0 then some (s.l2sWord (coreOf d ((rel - 0x20000) / 4)))
  else if 0x20400 ≤ rel ∧ rel < 0x20460 then
    some ((List.range 8).foldl (fun n m => n + s.siteNibble (vaultOf d (8 * ((rel - 0x20400) / 4) + m)) * 2 ^ (4 * m)) 0)
  else none

/-- The value of a privileged register; none where the part has no register. -/
def State.privReg (s : State) (b rel : Nat) : Option Nat :=
  if b = 0 then s.globalPriv rel else if b = 1 then none else if b < 4 then s.helmPriv (b - 2) rel
  else if b < 8 then s.pdPriv (b - 4) rel else s.diePriv (b - 8) rel

/-! ### BAR2 (R459, R460, R463, R464) -/

/-- FL_STATUS. -/
def HostIf.flStatus (h : HostIf) : Nat := b2n h.flBusy + b2n h.flDenied * 2 + b2n h.flTimeout * 4

/-- MBX_STATE. -/
def HostIf.mbxState (h : HostIf) : Nat := b2n h.cmdBusy + b2n h.attBusy * 2 + b2n h.ignored * 4

/-- The four bytes of a list from an index. -/
def listWord (l : List Byte) (i : Nat) : Nat := ofBytes ((l.drop i).take 4)

/-- A DWORD of BAR2. -/
def State.bar2Read (s : State) (o : Nat) : Nat :=
  let h := s.host
  if o < 0x20 then wordOf s.lode.challenge.toNat (o / 4)
  else if o = 0x20 then h.chalSeq.toNat
  else if o = 0x40 then h.cmdLen.toNat
  else if o = 0x48 then h.mbxState
  else if 0x80 ≤ o ∧ o < 0xC0 then (Sparse.get 0 h.rdata ((o - 0x80) / 4)).toNat
  else if o = 0x100 then h.flAddr.toNat
  else if o = 0x108 then h.flStatus
  else if 0x100000 ≤ o ∧ o < 0x220000 then rdNat h.cmdBuf (o - 0x100000) 4
  else if 0x400000 ≤ o ∧ o < 0x520000 then listWord h.result (o - 0x400000)
  else if 0x600000 ≤ o ∧ o < 0x610000 then listWord h.report (o - 0x600000)
  else if 0x800000 ≤ o ∧ o < 0xC00000 then
    (match Sparse.get none s.log.log ((o - 0x800000) / 64) with
     | none => 0
     | some r => wordOf (recBits r).toNat (o % 64 / 4))
  else 0

/-! ### A read of one DWORD -/

/-- The host and the privileged view have a shadow each for every counter (R452). -/
def latchShadow (s : State) (v : View) (ofs : Nat) (hi : W32) : State :=
  { s with reg :=
      if v = .priv then { s.reg with shadowPriv := Sparse.set 0 s.reg.shadowPriv ofs hi }
      else { s.reg with shadowHost := Sparse.set 0 s.reg.shadowHost ofs hi } }

/-- The shadow of the counter at an offset. -/
def State.shadow (s : State) (v : View) (ofs : Nat) : Nat :=
  (Sparse.get 0 (if v = .priv then s.reg.shadowPriv else s.reg.shadowHost) ofs).toNat

/-- A host access that R409 or R449 refuses is counted. -/
def denyHost (s : State) : State :=
  { s with host := { s.host with privDeny := BitVec.ofNat 32 (min 0xFFFFFFFF (s.host.privDeny.toNat + 1)) } }

/-- A host access that R446 or R457 ignores is counted. -/
def badHost (s : State) : State :=
  { s with host := { s.host with badAccess := BitVec.ofNat 32 (min 0xFFFFFFFF (s.host.badAccess.toNat + 1)) } }

/-- A read of a counter's word: the low word of a C64 latches the high one (R452). A free value is drawn where one is shown. -/
def readCtr (s : State) (v : View) (ofs b rel : Nat) (x : W64) : State × Nat :=
  let s1 := if timeDriven b rel then { s with drawn := s.drawn + 1 } else s
  if ctrBits b rel = 64 then (latchShadow s1 v ofs (BitVec.ofNat 32 (x.toNat / 2 ^ 32)), x.toNat % 2 ^ 32) else (s1, x.toNat % 2 ^ 32)

/-- A read in the live part or among the held copies. -/
def readLive (s : State) (v : View) (ofs b rel : Nat) (isHeld : Bool) : State × Nat :=
  if ctrBits b rel ≠ 0 then readCtr s v ofs b rel (if isHeld then s.ctrHeld b rel else s.ctrLive b rel)
  else if 4 ≤ rel ∧ ctrBits b (rel - 4) = 64 then (s, s.shadow v (ofs - 4))
  else (s, if isHeld then 0 else s.plainReg b rel)

/-- A read of the DWORD at an offset (R409, R446, R452, R466). -/
def readWord (s : State) (v : View) (at_ : W32) : State × Nat :=
  let ofs := at_.toNat / 4 * 4
  if v = .bar2 then (s, s.bar2Read ofs) else
  match blockOf ofs with
  | none => (s, 0)
  | some b =>
    let rel := ofs - blockBase b
    if s.serves b = false then (s, 0)
    else if rel < 0x10000 then readLive s v ofs b rel false
    else if rel < 0x20000 then readLive s v ofs b (rel - 0x10000) true
    else match s.privReg b rel with
      | none => (s, 0)
      | some x => if v = .priv then (s, x) else (denyHost s, 0)

end Sys2Proof.Machine
end

