-- ==== Sys2Proof/Machine/RegWrite.lean ====
section
/-! DEFINITION. Writes of registers and of BAR2, staged writes and strobes, snapshots, the telemetry controls, the flash window
(R409, R411, R446 to R450, R453, R457 to R463, R477). -/

namespace Sys2Proof.Machine

/-! ### Interrupt status and the telemetry controls (R447, R456 to R458) -/

/-- A write of HOST_IRQ_STATUS (R447): it clears the named bits if SEQ matches. -/
def irqStatusWrite (s : State) (v : W32) : State :=
  if v.toNat / 2 ^ 16 = s.host.irqSeq.toNat then
    { s with host := { s.host with irqBits := s.host.irqBits &&& ~~~(BitVec.ofNat 16 (v.toNat % 2 ^ 16)) } }
  else s

/-- IRQ_STATUS_CLEAR (R447). -/
def execIrqStatusClear (value : W32) (s : State) : Host.Outcome State Fault Refusal := .next (irqStatusWrite s value)

/-- A write of TEL_CTRL (R448, R457, R458): bits [31:16] select which of ENABLE and THRESH change. One that sets ENABLE while
TEL_SIZE is reserved is ignored. -/
def telCtrlWrite (s : State) (v : W32) : State :=
  let m := v.toNat / 2 ^ 16
  let h := s.host
  if bitOf m 0 && bitOf v.toNat 0 && decide (h.telN = 0) then s else
  let old := h.telThresh
  let thr := (List.range 8).foldl (fun a i =>
    a + (if (if bitOf m (8 + i) then bitOf v.toNat (8 + i) else bitOf old i) then 2 ^ i else 0)) 0
  { s with host := { h with telEnable := if bitOf m 0 then bitOf v.toNat 0 else h.telEnable, telThresh := thr } }

/-- TEL_ENABLE_SET (R457). -/
def execTelEnableSet (value : W32) (s : State) : Host.Outcome State Fault Refusal := .next (telCtrlWrite s value)

/-- TEL_ENABLE_CLEAR (R458): writes stop after the record in progress; TEL_HEAD and TEL_TAIL keep their values. -/
def execTelEnableClear (value : W32) (s : State) : Host.Outcome State Fault Refusal := .next (telCtrlWrite s value)

/-- A write of TEL_TAIL (R457): one that would leave TEL_HEAD − TEL_TAIL negative or above N is ignored and counted. -/
def telTailWrite (s : State) (v : W32) : State :=
  if s.host.telN < (s.host.telHead - v).toNat then badHost s else { s with host := { s.host with telTail := v } }

/-- TEL_TAIL_WRITE (R457). -/
def execTelTailWrite (value : W32) (s : State) : Host.Outcome State Fault Refusal := .next (telTailWrite s value)

/-! ### MSI-X (R455) -/

/-- A pending message of an unmasked vector is sent. -/
def sendPending (s : State) (n : Nat) : State :=
  if s.host.pba.getLsbD n && s.mayMsi n then
    ({ s with host := { s.host with pba := s.host.pba &&& ~~~(BitVec.ofNat 32 (2 ^ n)) } }).emit (.msix n)
  else s

/-- Every pending message that may now be sent is sent. -/
def sendAllPending (s : State) : State := (List.range 32).foldl sendPending s

/-- A write of a word of the MSI-X table. -/
def msixWrite (s : State) (i : Nat) (v : W32) : State :=
  let x : W32 := if i % 4 = 3 then BitVec.ofNat 32 (1 - v.toNat % 2) else v
  sendPending { s with host := { s.host with msixTable := Sparse.set 0 s.host.msixTable i x } } (i / 4)

/-! ### Staged writes and strobes (R449, R450, R474, R477) -/

/-- The strobe groups (R449). -/
def isGroup (g : Nat) : Bool := decide (g = 0 ∨ g = 4 ∨ g = 5 ∨ (8 ≤ g ∧ g < 16))

/-- The blocks of a group. -/
def groupBlocks (g : Nat) : List Nat :=
  if g = 0 then [1] else if g = 4 then [2, 3] else if g = 5 then [4, 5, 6, 7] else [4 + (g - 8) / 2]

/-- Is an offset a register of a group at a block? The two Helms' slot tables are one staged register, kept at Helm A's offset
(R474). -/
def inGroup (g b ofs : Nat) : Bool :=
  if g = 0 then decide (ofs = 0x100010 ∨ ofs = 0x100014 ∨ ofs = 0x100018)
  else if g = 4 then decide (0x220000 ≤ ofs ∧ ofs < 0x220080)
  else if g = 5 then decide (ofs = blockBase b + 0x20004)
  else decide (blockBase b + 0x21000 + 0x100 * (g % 2) ≤ ofs ∧ ofs < blockBase b + 0x21100 + 0x100 * (g % 2))

/-- Stage a write (R449): a second one to the same register replaces the first. -/
def stageReg (s : State) (ofs : Nat) (v : W32) : State :=
  { s with reg := { s.reg with staged := Sparse.set none s.reg.staged ofs (some v) } }

/-- The writes staged for a group at a block. -/
def State.stagedFor (s : State) (g b : Nat) : List (Nat × W32) :=
  s.reg.staged.filterMap (fun e => if inGroup g b e.1 then e.2.map (fun v => (e.1, v)) else none)

/-- A strobe of a group travels to its blocks with all that was staged before it; with nothing staged it changes nothing
(R450). -/
def strobe (s : State) (g : Nat) : State :=
  let es := (groupBlocks g).filterMap (fun b => if (s.stagedFor g b).isEmpty then none else some (b, g, s.stagedFor g b))
  if es.isEmpty then s else
  ({ s with reg := { s.reg with
      staged := s.reg.staged.filter (fun e => !((groupBlocks g).any (fun b => inGroup g b e.1))),
      strobed := s.reg.strobed ++ es } }).emit (.strobe g)

/-- A write of UPD_STROBE (R449). The host reaches group 0 alone; one that names a privileged group is counted once. -/
def updStrobe (s : State) (v : View) (w : Nat) : State :=
  let gs := (List.range 16).filter (fun g => isGroup g && bitOf w g)
  if v = .priv then gs.foldl strobe s else
  let s1 := if bitOf w 0 then strobe s 0 else s
  if gs.any (fun g => decide (g ≠ 0)) then denyHost s1 else s1

/-- Group 0 at the host interface (R458): while ENABLE is set the ring starts again at the new base and size. -/
def applyRing (s : State) (l : List (Nat × W32)) : State :=
  let h := l.foldl (fun (h : HostIf) e =>
    if e.1 = 0x100010 then { h with telBaseLo := e.2 }
    else if e.1 = 0x100014 then { h with telBaseHi := e.2 }
    else { h with telSize := e.2.toNat % 32 }) s.host
  { s with host := if h.telEnable then { h with telHead := 0, telTail := 0 } else h }

/-- A slot table with eight slots from one register. -/
def sstPut (t : List Nat) (r w : Nat) : List Nat :=
  (List.range 256).map (fun i => if i / 8 = r then w / 2 ^ (4 * (i % 8)) % 16 else t.getD i 0)

/-- Group 4 at a Helm (R293, R295, R474). -/
def applySst (s : State) (h : Fin 2) (l : List (Nat × W32)) : State :=
  let t := l.foldl (fun t e => sstPut t ((e.1 - 0x220000) / 4) e.2.toNat) (s.helm.sst.get h)
  { s with helm := { s.helm with sst := s.helm.sst.set h.val t h.isLt } }

/-- CFG_RANGE (R477, R485). -/
def cfgRange (s : State) (b g : Nat) : State := s.event b .cfgRange g

/-- Group 5 at a port die (R275, R477). -/
def applyThresh (s : State) (k : Fin 4) (l : List (Nat × W32)) : State :=
  if l.all (fun e => threshOk (bitsOf e.2.toNat 0 11) && threshOk (bitsOf e.2.toNat 16 11)) then
    l.foldl (fun s e => s.setPd k { s.pd k with threshA := bitsOf e.2.toNat 0 11, threshB := bitsOf e.2.toNat 16 11 }) s
  else cfgRange s (4 + k.val) 5

/-- Group 8 + p at port p's die (R477): the values are judged together, and the port's ARP and neighbour entries go. -/
def applyAddr (s : State) (p : Fin 8) (l : List (Nat × W32)) : State :=
  let a := l.foldl (fun a e => paSet a (e.1 % 0x100) e.2.toNat) (s.portAddr p)
  if paOk a then s.setPort p { s.ports.get p with addr := a, arp := [], nbr := [] }
  else cfgRange s (portBlock p) (8 + p.val)

/-- A block applies the staged writes of a group (R450, R477). -/
def applyGroup (s : State) (b g : Nat) (l : List (Nat × W32)) : State :=
  if g = 0 then applyRing s l
  else if g = 4 then applySst s (if b = 2 then 0 else 1) l
  else if g = 5 then applyThresh s ⟨(b - 4) % 4, Nat.mod_lt _ (by decide)⟩ l
  else applyAddr s ⟨(g - 8) % 8, Nat.mod_lt _ (by decide)⟩ l

/-- STAGED_APPLY (R450, R477): the oldest strobe of a group that has not reached a block reaches it. -/
def execStagedApply (block group : Nat) (s : State) : Host.Outcome State Fault Refusal :=
  onBlock block (
    match s.reg.strobed.find? (fun e => decide (e.1 = block ∧ e.2.1 = group)) with
    | none => s
    | some e => applyGroup { s with reg := { s.reg with strobed := s.reg.strobed.erase e } } block group e.2.2)

/-! ### Snapshots (R453, R468) -/

/-- Offsets of a block's counters that are not in the map of counted events: they show what other state holds. -/
def derivedCtrs (b : Nat) : List Nat := if b = 1 then [0x30, 0x34] else if b = 2 ∨ b = 3 then [0x100, 0x104] else []

/-- The held copies of a block: every counter of its first 64 KiB. -/
def heldOf (s : State) (b : Nat) : Sparse W64 :=
  let base := blockBase b
  let m := s.reg.ctrs.filter (fun e => decide (base ≤ e.1 ∧ e.1 < base + 0x10000) && !s.recordOff b (e.1 - base))
  (derivedCtrs b).foldl (fun m rel => Sparse.set 0 m (base + rel) (s.countNow b rel)) m

/-- A block copies its counters (R453). -/
def snapBlock (s : State) (b : Nat) : State :=
  let base := blockBase b
  let keep := s.reg.held.filter (fun e => decide (e.1 < base ∨ base + 0x10000 ≤ e.1))
  { s with
    drawn := s.drawn + 1,
    reg := { s.reg with
      held := (heldOf s b).foldl (fun m e => Sparse.set 0 m e.1 e.2) keep,
      snapSeq := Sparse.set 0 s.reg.snapSeq b (Sparse.get 0 s.reg.snapSeq b + 1),
      snapDraw := Sparse.set 0 s.reg.snapDraw b s.drawn } }

/-- A write of 1 to BLK_SNAP (R453): a SNAP of the global block is sent to every block. -/
def blkSnap (s : State) (b : Nat) : State :=
  if s.serves b = false then s else
  let s1 := snapBlock s b
  if b = 0 then s1.emits ((List.range 31).map (fun n => .snap (n + 1))) else s1

/-- BLK_SNAP (R453). -/
def execBlkSnap (block : Nat) (s : State) : Host.Outcome State Fault Refusal := onBlock block (blkSnap s block)

/-- BLOCK_SNAP_ARRIVAL (R453). -/
def execBlockSnapArrival (block : Nat) (s : State) : Host.Outcome State Fault Refusal :=
  onBlock block (if s.serves block then snapBlock s block else s)

/-! ### The flash window (R411, R463) -/

/-- FL_CTRL writes that are accepted (R411): in SERVICE to the device without the image in force, in RECOVERY to both. -/
def State.flashTakes (s : State) (dev : Fin 2) : Bool :=
  (decide (s.start.stage = 6 ∧ dev.val ≠ s.start.image)) || decide (s.start.stage = 8)

/-- An operation starts on the flash, or ends at once with DENIED; while one runs it is ignored. A write to the image in force
logs FLASH_DENY. -/
def flashStart (s : State) (dev : Fin 2) (erase : Bool) : State :=
  let h := s.host
  if h.flBusy || s.flashOp.isSome then s
  else if s.flashTakes dev then
    { s with
      flashOp := some { dev := dev, erase := erase,
                        addr := if erase then h.flAddr.toNat / 65536 * 65536 else h.flAddr.toNat / 4096 * 4096,
                        data := if erase then [] else h.progBuf },
      flashUsed := true, host := { h with flBusy := true, flDenied := false, flTimeout := false } }
  else
    let s1 := { s with host := { h with flDenied := true, flTimeout := false } }
    raiseIrq (if s.start.stage = 6 then s1.event 0 .flashDeny 0 else s1) 7

/-- FLASH_ERASE (R463). -/
def execFlashErase (dev : Fin 2) (s : State) : Host.Outcome State Fault Refusal := .next (flashStart s dev true)

/-- FLASH_PROGRAM (R463). -/
def execFlashProgram (dev : Fin 2) (s : State) : Host.Outcome State Fault Refusal := .next (flashStart s dev false)

/-- Write bytes of a flash device; an unlisted byte reads as 0xFF (log 4). -/
def flashPut (s : State) (dev : Fin 2) (a : Nat) (l : List Byte) : State :=
  let go (m : Sparse Byte) : Sparse Byte :=
    (List.range l.length).foldl (fun m i => Sparse.set 0xFF m (a + i) (l.getD i 0xFF)) m
  if dev = 0 then { s with flashA := go s.flashA } else { s with flashB := go s.flashB }

/-- Bytes that an operation writes. -/
def FlashOp.size (o : FlashOp) : Nat := if o.erase then 65536 else 4096

/-- The operation is over; BUSY clears and FLASH_DONE rises unless its status was lost (R463). -/
def flashDone (s : State) (timeout : Bool) : State :=
  let s1 := { s with flashOp := none }
  if s.host.flBusy then raiseIrq { s1 with host := { s.host with flBusy := false, flTimeout := timeout } } 7 else s1

/-- FLASH_OP_END (R463). -/
def execFlashOpEnd (s : State) : Host.Outcome State Fault Refusal :=
  .next (match s.flashOp with
    | none => s
    | some o =>
      let l := if o.erase then List.replicate 65536 0xFF else rdBytes o.data 0 4096
      flashDone (flashPut s o.dev o.addr l) false)

/-- FLASH_OP_TIMEOUT (R463): what the bytes hold is not stated, so free values (log 50). -/
def execFlashOpTimeout (s : State) : Host.Outcome State Fault Refusal :=
  .next (match s.flashOp with
    | none => s
    | some o =>
      let l := (List.range o.size).map (fun i => Config.freeByte (s.drawn + i))
      flashDone { flashPut s o.dev o.addr l with drawn := s.drawn + o.size } true)

/-! ### The mailbox (R460 to R462) -/

/-- Doorbell 1 (R461): the challenge that is current is the one the command must carry (R404). -/
def ringSealed (s : State) : State :=
  if s.host.cmdBusy then { s with host := { s.host with ignored := true } }
  else { s with host := { s.host with cmdBusy := true, ignored := false },
                lode := { s.lode with bells := s.lode.bells ++ [(s.lode.challenge, true)] } }

/-- Doorbell 2 (R400, R462). -/
def ringAttest (s : State) : State :=
  if s.host.attBusy then { s with host := { s.host with ignored := true } }
  else { s with host := { s.host with attBusy := true, ignored := false } }

/-- A write that is ignored and sets IGNORED. -/
def ignoreWrite (s : State) : State := { s with host := { s.host with ignored := true } }

/-- A DWORD written to BAR2 (R459 to R463). -/
def bar2Write (s : State) (o : Nat) (v : W32) : State :=
  let h := s.host
  if o = 0x40 then (if h.cmdBusy then ignoreWrite s else { s with host := { h with cmdLen := v } })
  else if o = 0x44 then
    (if v.toNat % 4 = 1 then ringSealed s else if v.toNat % 4 = 2 then ringAttest s else s)
  else if 0x80 ≤ o ∧ o < 0xC0 then
    (if h.attBusy then ignoreWrite s else { s with host := { h with rdata := Sparse.set 0 h.rdata ((o - 0x80) / 4) v } })
  else if o = 0x100 then (if h.flBusy then s else { s with host := { h with flAddr := BitVec.ofNat 32 (v.toNat % 2 ^ 27) } })
  else if o = 0x104 then
    (let dev : Fin 2 := if bitOf v.toNat 0 then 1 else 0
     if bitsOf v.toNat 2 2 = 1 then flashStart s dev true else if bitsOf v.toNat 2 2 = 2 then flashStart s dev false else s)
  else if 0x2000 ≤ o ∧ o < 0x3000 then
    (if h.flBusy then s else { s with host := { h with progBuf := wrNat h.progBuf (o - 0x2000) 4 v.toNat } })
  else if 0x100000 ≤ o ∧ o < 0x220000 then
    (if h.cmdBusy then ignoreWrite s else { s with host := { h with cmdBuf := wrNat h.cmdBuf (o - 0x100000) 4 v.toNat } })
  else s

/-! ### A write of one DWORD -/

/-- A write in the host-interface block (R456, R472). -/
def hostWrite (s : State) (rel : Nat) (v : W32) : State :=
  if rel = 0 then irqStatusWrite s v
  else if rel = 0x10 ∨ rel = 0x14 then stageReg s (0x100000 + rel) v
  else if rel = 0x18 then stageReg s 0x100018 (BitVec.ofNat 32 (v.toNat % 32))
  else if rel = 0x1C then telCtrlWrite s v
  else if rel = 0x24 then telTailWrite s v
  else if 0x1000 ≤ rel ∧ rel < 0x1200 then msixWrite s ((rel - 0x1000) / 4) v
  else s

/-- A write of PD_PORT_RST (R435, R448, R476). -/
def portRstWrite (s : State) (k : Nat) (v : W32) : State :=
  let w := v.toNat
  let on (i : Nat) : Bool := bitOf w i && bitOf w (16 + i)
  let p0 : Fin 8 := ⟨2 * (k % 4), by omega⟩
  let p1 : Fin 8 := ⟨2 * (k % 4) + 1, by omega⟩
  let s1 := if on 0 then resetEth s p0 else s
  let s2 := if on 1 then resetEth s1 p1 else s1
  let s3 := if on 8 then resetLink s2 p0 else s2
  if on 9 then resetLink s3 p1 else s3

/-- Is there a privileged register of type RWM or RWS at an offset of a block (R406)? -/
def privWritable (b rel : Nat) : Bool :=
  if b = 2 ∨ b = 3 then decide (0x20000 ≤ rel ∧ rel < 0x20080)
  else if 4 ≤ b ∧ b < 8 then
    decide (rel = 0x20000 ∨ rel = 0x20004) ||
      (decide (0x21000 ≤ rel ∧ rel < 0x21200) && (paGet PortAddr.init ((rel - 0x21000) % 0x100)).isSome)
  else false

/-- A write of a privileged register (R449, R474, R476); the others ignore writes. -/
def privWrite (s : State) (b rel : Nat) (v : W32) : State :=
  if privWritable b rel = false then s
  else if b < 4 then stageReg s (0x200000 + rel) v
  else if rel = 0x20000 then portRstWrite s (b - 4) v
  else stageReg s (blockBase b + rel) v

/-- A write of the DWORD at an offset (R409, R446, R465, R466). -/
def writeWord (s : State) (vw : View) (at_ v : W32) : State :=
  let ofs := at_.toNat / 4 * 4
  if vw = .bar2 then bar2Write s ofs v else
  match blockOf ofs with
  | none => s
  | some b =>
    let rel := ofs - blockBase b
    if s.serves b = false then s
    else if rel = 0xFC then (if bitOf v.toNat 0 then blkSnap s b else s)
    else if 0x20000 ≤ rel then
      (if (s.privReg b rel).isNone then s else if vw = .priv then privWrite s b rel v else denyHost s)
    else if b = 0 then (if rel = 0x40 then pwrReqWrite s v else if rel = 0x80 then updStrobe s vw v.toNat else s)
    else if b = 1 then hostWrite s rel v
    else s

/-! ### The rows -/

/-- REGISTER_WRITE (R13, R446): a write whose byte enables do not cover the DWORD is ignored and counted. -/
def execRegisterWrite (view : View) (offset value : W32) (fullBytes : Bool) (s : State) : Host.Outcome State Fault Refusal :=
  noted s (.next (if fullBytes then writeWord s view offset value else badHost s))

/-- STAGED_WRITE (R449). -/
def execStagedWrite (view : View) (offset value : W32) (s : State) : Host.Outcome State Fault Refusal :=
  noted s (.next (writeWord s view offset value))

/-- C64_LO_READ (R452). -/
def execC64LoRead (view : View) (offset : W32) (s : State) : Host.Outcome State Fault Refusal :=
  .next (let r := readWord s view offset; r.1.emit (.readData r.2))

/-- BAR0_PRIV_ACCESS (R409): an access to a privileged-only register reads zero or is ignored, and is counted. -/
def execBar0PrivAccess (offset : W32) (write : Bool) (s : State) : Host.Outcome State Fault Refusal :=
  let r := if (blockOf (offset.toNat / 4 * 4)).isSome && decide (0x20000 ≤ offset.toNat / 4 * 4 - blockBase ((blockOf (offset.toNat / 4 * 4)).getD 0))
    then readWord s .host offset else (s, 0)
  .next (if write then r.1 else r.1.emit (.readData r.2))

/-- STROBE_TELEMETRY (R449, R458). -/
def execStrobeTelemetry (view : View) (s : State) : Host.Outcome State Fault Refusal := .next (updStrobe s view (2 ^ 0))

/-- STROBE_SLOT_TABLE (R293, R449). -/
def execStrobeSlotTable (view : View) (s : State) : Host.Outcome State Fault Refusal := .next (updStrobe s view (2 ^ 4))

/-- STROBE_ING_THRESH (R449, R477). -/
def execStrobeIngThresh (view : View) (s : State) : Host.Outcome State Fault Refusal := .next (updStrobe s view (2 ^ 5))

/-- STROBE_PORT_ADDR (R449, R477). -/
def execStrobePortAddr (view : View) (port : Fin 8) (s : State) : Host.Outcome State Fault Refusal :=
  .next (updStrobe s view (2 ^ (8 + port.val)))

end Sys2Proof.Machine
end

