-- ==== Sys2Proof/Machine/Sealed.lean ====
section
/-! DEFINITION. Sealed commands and attestation reports (R347, R398 to R409, R460 to R462). -/

namespace Sys2Proof.Machine

/-! ### Checks and results (R404 to R406, R460) -/

/-- The challenge that a sealed command must carry: the one current when its doorbell rang (R404). -/
def State.challengeDue (s : State) : BitVec 256 :=
  match s.lode.bells with | [] => s.lode.challenge | b :: _ => b.1

/-- Command signers that the Chart in force carries (R396, R414). -/
def State.signers (s : State) : Nat := match s.chart with | none => 0 | some c => c.signers

/-- The first of checks 1 to 7 of R405 that fails. -/
def sealedCheck (s : State) (c : Sealed) (op : Nat) : Option Code :=
  firstCode
    [ (!c.lengthOk, .scFormat), (!c.formatOk op, .scFormat), (decide (s.chart.map (·.devid) ≠ some c.devid), .scDevid),
      (decide (c.challenge ≠ s.challengeDue), .scStale), (decide (s.signers ≤ c.signer), .scSigner),
      (!c.rsaOk && !c.slhOk, .scSigBoth), (!c.rsaOk, .scSigRsa), (!c.slhOk, .scSigSlh),
      ((decide (op = 1) && !c.enc) || (c.enc && !c.openOk), .scDecrypt) ]

/-- The result header and data (R460). -/
def resultBytes (op : Nat) (code : Code) (takeover : Bool) (data : List Byte) : List Byte :=
  toBytes 2 (codeValue code) ++ toBytes 2 (b2n takeover) ++ toBytes 4 data.length ++ toBytes 8 op ++ data

/-- The end of a sealed command: SEALED_CMD is logged, the result is written unless the mailbox has been cleared since (R432),
a new challenge is issued, and MBX_DONE rises (R404, R406, R461). -/
def sealedEnd (s : State) (op : Nat) (code : Code) (data : List Byte) (takeover : Bool) : State :=
  let kept := match s.lode.bells with | [] => true | b :: _ => b.2
  let s1 := s.event 0 .sealedCmd (op + codeValue code * 2 ^ 16 + b2n takeover * 2 ^ 32)
  let s2 := { s1 with lode := { s1.lode with bells := s1.lode.bells.drop 1,
                                             committed := s1.lode.committed + b2n (decide (code = .scOk)) } }
  if kept then
    raiseIrq (newChallenge { s2 with host := { s2.host with result := resultBytes op code takeover data, cmdBusy := false } }) 0
  else newChallenge s2

/-- What an operation does once checks 1 to 7 have passed: its refusal under check 8, or its effect and result data. -/
abbrev SealedEffect := State → Except Code (State × List Byte)

/-- A sealed command (R405, R406): the checks in order, the effect in one step, the result. What is refused before its OPCODE is known to
be good is reported under the OPCODE that its header carries (R460). -/
def sealedRun (s : State) (c : Sealed) (op : Nat) (f : SealedEffect) : State :=
  if s.lode.activeOk = false then s else
  match sealedCheck s c op with
  | some code => sealedEnd s c.opcode code [] false
  | none =>
    match f s with
    | .error code => sealedEnd s op code [] false
    | .ok (s', data) => sealedEnd s' op .scOk data false

/-! ### The operations (R347, R403, R406 to R408) -/

/-- KEY_INSTALL's effect (R407): the lowest free key slot of all four port dies. -/
def keyInstall (p : KeyPayload) : SealedEffect := fun s =>
  if p.keyid = 0 ∨ p.pki = 0 ∨ p.reservedOk = false then .error .scFormat
  else if s.keys.any (fun k => decide (k.payload.keyid = p.keyid)) then .error .keyExists
  else match (List.range 256).find? (fun n => !s.keys.any (fun k => decide (k.slot = n))) with
    | none => .error .keyLimit
    | some n => .ok ({ s with keys := s.keys ++ [{ slot := n, payload := p }] }, [])

/-- KEY_INSTALL (R407). -/
def execKeyInstall (c : Sealed) (p : BitVec 896) (s : State) : Host.Outcome State Fault Refusal :=
  .next (sealedRun s c 1 (keyInstall (keyPayloadOf p)))

/-- KEY_REMOVE (R408): no Open is under way between two commands of this model; the key's slot is zeroed. -/
def execKeyRemove (c : Sealed) (keyid : Nat) (s : State) : Host.Outcome State Fault Refusal :=
  .next (sealedRun s c 2 (fun s =>
    .ok ({ s with keys := s.keys.filter (fun k => !decide (k.payload.keyid = keyid)) }, [])))

/-- May REG_WRITE write an offset (R406)? -/
def regWritable (ofs : W32) : Bool :=
  match blockOf ofs.toNat with
  | none => false
  | some b => decide (ofs.toNat % 4 = 0) && (decide (ofs.toNat = 0x80) || privWritable b (ofs.toNat - blockBase b))

/-- REG_WRITE's effect (R406): all pairs in order, or none. -/
def regWrite (pairs : List (W32 × W32)) : SealedEffect := fun s =>
  if pairs.all (fun e => regWritable e.1) then .ok (pairs.foldl (fun s e => writeWord s .priv e.1 e.2) s, []) else .error .regDenied

/-- REG_WRITE (R403, R406). -/
def execRegWrite (c : Sealed) (pairs : List (W32 × W32)) (s : State) : Host.Outcome State Fault Refusal :=
  noted s (.next (sealedRun s c 3 (regWrite pairs)))

/-- REG_READ's effect (R403, R409): the values in the order of the offsets. -/
def regRead (offsets : List W32) : SealedEffect := fun s =>
  .ok (offsets.foldl (fun a o =>
    let r := readWord a.1 .priv o
    (r.1, a.2 ++ toBytes 4 r.2)) (s, []))

/-- REG_READ (R403). -/
def execRegRead (c : Sealed) (offsets : List W32) (s : State) : Host.Outcome State Fault Refusal :=
  .next (sealedRun s c 4 (regRead offsets))

/-- COLL_FORM's effect (R347, R348). -/
def collForm (g : GroupRec) : SealedEffect := fun s => if collBad s g then .error .collBadcfg else .ok (formGroup s g, [])

/-- COLL_FORM (R347, R348). -/
def execCollForm (c : Sealed) (g : GroupWords) (s : State) : Host.Outcome State Fault Refusal :=
  noted s (.next (sealedRun s c 5 (collForm (groupRecOf g))))

/-- COLL_DISSOLVE (R347). -/
def execCollDissolve (c : Sealed) (gid : Fin 16) (s : State) : Host.Outcome State Fault Refusal :=
  noted s (.next (sealedRun s c 6 (fun s =>
    match s.group gid with
    | none => .ok (s, [])
    | some g => .ok (dropGroup s gid g, []))))

/-- A resident Pattern is to be unloaded (R257, R305, R307): its active streams end with END_UNLOAD, its parked ones are refused,
and its steps are cancelled. -/
def startUnload (s : State) (pi : Nat) (p : Pattern) : State :=
  if p.unloading then s else
  let p' := { p with unloading := true }
  let s1 := refuseParked (endStreams (s.setPat pi p') (s.slotsOf pi) (some .endUnload)) pi
  match s1.pat pi with
  | none => s1
  | some q => haltSteps s1 pi q (fun _ => .cancelling)

/-- PATTERN_UNLOAD's effect (R257, R403, R426): a Pattern that is being loaded is abandoned, a resident one unloaded. -/
def patternUnload (hash : BitVec 384) : SealedEffect := fun s =>
  match s.patOfHash hash with
  | none => .ok (s, [])
  | some pi =>
    match s.pat pi with
    | none => .ok (s, [])
    | some p => .ok (if p.resident then startUnload s pi p else abandonLoad s pi p, [])

/-- PATTERN_UNLOAD (R257, R305). -/
def execPatternUnload (c : Sealed) (hash : BitVec 384) (s : State) : Host.Outcome State Fault Refusal :=
  .next (sealedRun s c 7 (patternUnload hash))

/-- LODESTAR_SWITCH (R388, R403, R406): the takeover follows the commit, and the new active writes the result with TAKEOVER. -/
def execLodestarSwitch (c : Sealed) (s : State) : Host.Outcome State Fault Refusal :=
  noted s (.next (
    if s.lode.activeOk = false then s else
    match sealedCheck s c 9 with
    | some code => sealedEnd s c.opcode code [] false
    | none => if s.lode.standbyOk then sealedEnd (takeOver s) 9 .scOk [] true else sealedEnd s 9 .scNostandby [] false))

/-! ### Attestation (R398 to R400, R462) -/

/-- The report header (R398). -/
def reportHeader (s : State) (c : ChartImage) : List Byte :=
  let res := s.helm.pats.filter (fun e => match e.2 with | none => false | some p => p.resident)
  toBytes 4 0x52504C58 ++ toBytes 2 1 ++ toBytes 2 0x9032 ++ toBytes 1 s.lode.active.val ++ toBytes 1 s.svcMode
    ++ toBytes 1 c.config.linkRev ++ toBytes 1 c.config.arithRev ++ toBytes 4 c.config.nodeId ++ toBytes 1 c.config.slot
    ++ toBytes 1 (s.glbHealth % 256) ++ toBytes 2 (s.glbSites % 2 ^ 16) ++ toBytes 4 (s.log.evNext - 1).toNat
    ++ toBytes 4 (s.lode.rseq + 1).toNat ++ toBytes 2 res.length ++ toBytes 2 s.keys.length ++ toBytes 32 0
    ++ toBytes 48 c.chartHash.toNat ++ toBytes 48 c.fwHash.toNat ++ toBytes 48 c.opid.toNat ++ toBytes 48 c.devid.toNat
    ++ (List.range 16).flatMap (fun i => toBytes 4 (Sparse.get 0 s.host.rdata i).toNat) ++ toBytes 64 0

/-- A recipient key entry (R399). -/
def keyEntry (k : KeyPayload) : List Byte :=
  toBytes 2 k.keyid ++ toBytes 2 k.pki ++ toBytes 12 (b2n k.hybrid) ++ toBytes 32 (Config.x25519Public k.x25519).toNat
    ++ toBytes 48 (if k.hybrid then (Config.mlkemHash k.mlkem).toNat else 0)

/-- The certificate at a place of CERTS. -/
def certOf (c : ChartImage) (i : Nat) : List Byte := (c.certs.drop (certLen * i)).take certLen

/-- The report (R398): what is signed, the device KEM keys with it, then the block of the active Lodestar, its certificate and the device
authority's. -/
def reportBytes (s : State) (c : ChartImage) : List Byte :=
  let pats := s.helm.pats.flatMap (fun e =>
    match e.2 with | none => [] | some p => if p.resident then toBytes 48 p.manifest.hash.toNat else [])
  let keys := (sortBy (fun k : RecipientKey => k.payload.keyid) s.keys).flatMap (fun k => keyEntry k.payload)
  let b := reportHeader s c ++ pats ++ keys ++ toBytes 1216 (Config.deviceKem c.chartHash).toNat
  b ++ sigBlock (Config.reportRsa c.chartHash b) (Config.reportSlh s.lode.active.val c.chartHash b)
    ++ certOf c (1 + s.lode.active.val) ++ certOf c 0

/-- ATTESTATION_REQUEST (R400, R462): doorbell 2. -/
def execAttestationRequest (s : State) : Host.Outcome State Fault Refusal := .next (ringAttest s)

/-- ATTESTATION_DONE (R398, R462): a report of the device as it stands is written, ATT_BUSY clears and ATT_DONE rises. -/
def execAttestationDone (s : State) : Host.Outcome State Fault Refusal :=
  .next (match s.chart with
    | none => s
    | some c =>
      if s.host.attBusy = false ∨ s.lode.activeOk = false then s else
      raiseIrq { s with host := { s.host with report := reportBytes s c, attBusy := false },
                        lode := { s.lode with rseq := s.lode.rseq + 1 } } 1)

end Sys2Proof.Machine
end

