-- ==== Sys2Proof/Machine/Resets.lean ====
section
/-! DEFINITION. Device-level resets, power up and down, the PCI Express resets, and the sealed warm restart (R427 to R432, R444, R496,
R497). -/

namespace Sys2Proof.Machine

/-! ### Device-level resets (R427 to R431) -/

/-- What a device-level reset leaves: all but flash, the power and thermal controllers' readings, the test port and what the host
link keeps (R404, R428, R500). `fast` selects the shortened start-up of R429. -/
def deviceReset (s : State) (host : HostIf) (fast : Bool) : State :=
  { State.reset with
    pending := s.pending, out := s.out, drawn := s.drawn + 1, host := host, lode := Lodestar.init s.drawn,
    start := { StartUp.init with fast := fast, heldReset := s.start.heldReset },
    flashA := s.flashA, flashB := s.flashB, flashOp := s.flashOp,
    power := { s.power with dPwr := 16, dTh := [] },
    tap := if s.tap.instr = .extest then { s.tap with instr := .bypass, driving := false } else s.tap }

/-- The host-interface block of a reset that takes the link down. -/
def State.hostDown (s : State) : HostIf := { HostIf.init with perst := s.host.perst }

/-- COLD_RESET (R427, R496): power-good starts it, and the link's training with it (R418). -/
def execColdReset (s : State) : Host.Outcome State Fault Refusal :=
  .next (if s.power.rails = false then s else (deviceReset s s.hostDown false).emit .pcieTrain)

/-- RST_IN_N (R429, R431): a low of 8 slow cycles or more; while PWR_EN is low it is ignored (R496). The device stays in reset
until the release. -/
def execRstInN (cycles : Nat) (s : State) : Host.Outcome State Fault Refusal :=
  .next (
    if cycles < 8 ∨ s.power.pwrEn = false ∨ s.power.rails = false then s else
    let s1 := deviceReset s s.hostDown true
    { s1 with start := { s1.start with heldReset := true } })

/-- RST_IN_N_RELEASE (R429): start-up begins, and the link trains. -/
def execRstInNRelease (s : State) : Host.Outcome State Fault Refusal :=
  .next (
    if s.start.heldReset = false then s else
    ({ s with start := { s.start with heldReset := false } }).emit .pcieTrain)

/-- The host-interface block over a sealed warm restart (R428, R430): it is kept; the new challenge counts. -/
def State.hostKept (s : State) : HostIf := { s.host with chalSeq := s.host.chalSeq + 1 }

/-- The restart (R430): the Chart is kept for stage 2 if the payload names it and no flash write has been accepted since the last
device-level reset. A device in FAILED, or one that has lost its reference, stays so: only a cold reset or RST_IN_N returns it to
service (R30, R421). -/
def warmRestart (s : State) (hash : BitVec 384) : State :=
  let kept : Option (Nat × ChartImage) := match s.chart with
    | none => none
    | some c => if c.chartHash = hash ∧ s.flashUsed = false then some (s.start.image, c) else none
  let s1 := deviceReset s s.hostKept true
  if s.refLost ∨ s.start.stage = 7 then
    { s1 with refLost := s.refLost, start := s.start, chart := s.chart, pds := s1.pds.map (fun x => { x with closed := true }) }
  else { s1 with start := { s1.start with kept := kept } }

/-- WARM_RESTART (R403, R430): the result first, then the restart. -/
def execWarmRestart (c : Sealed) (hash : BitVec 384) (s : State) : Host.Outcome State Fault Refusal :=
  noted s (.next (
    if s.lode.activeOk = false then s else
    match sealedCheck s c 8 with
    | some code => sealedEnd s c.opcode code [] false
    | none => warmRestart (sealedEnd s 8 .scOk [] false) hash))

/-! ### The PCI Express resets (R432, R444) -/

/-- PERST_N (R432). -/
def execPerstN (s : State) : Host.Outcome State Fault Refusal :=
  let s1 := hostReset s false
  .next { s1 with host := { s1.host with perst := true } }

/-- PERST_N_RELEASE (R432): the link trains. -/
def execPerstNRelease (s : State) : Host.Outcome State Fault Refusal :=
  .next (
    if s.host.perst = false then s else
    ({ s with host := { s.host with perst := false } }).emit .pcieTrain)

/-- FLR (R444): as PERST_N, but the link does not retrain. -/
def execFlr (s : State) : Host.Outcome State Fault Refusal := .next (hostReset s true)

/-- D3HOT_ENTRY (R444): no telemetry record and no MSI-X message is sent. -/
def execD3hotEntry (s : State) : Host.Outcome State Fault Refusal := .next { s with host := { s.host with d3hot := true } }

/-- D3HOT_EXIT (R444): they flow again; pending messages of unmasked vectors are sent. -/
def execD3hotExit (s : State) : Host.Outcome State Fault Refusal :=
  .next (sendAllPending { s with host := { s.host with d3hot := false } })

/-- PCIE_LINK_UP (R418 stage 3, R444, R472): the link of a Lodestar that runs trains once its reset is over. -/
def execPcieLinkUp (rate width : Nat) (flit : Bool) (s : State) : Host.Outcome State Fault Refusal :=
  .next (
    if s.power.rails && s.lode.activeOk && !s.host.perst && !s.start.heldReset then
      sendAllPending { s with host := { s.host with linkUp := true, rate := rate, width := width, flit := flit } }
    else s)

/-! ### Power (R495 to R497) -/

/-- A flash operation that is cut short: what its bytes hold is not stated, so free values (log 50). -/
def cutFlash (s : State) : State :=
  match s.flashOp with
  | none => s
  | some o =>
    let l := (List.range o.size).map (fun i => Config.freeByte (s.drawn + i))
    { flashPut s o.dev o.addr l with drawn := s.drawn + o.size, flashOp := none }

/-- Every rail but standby goes off (R497): no Lodestar runs, nothing is drained, and the test port returns to
Test-Logic-Reset (R515). -/
def powerOff (s : State) : State :=
  let s1 := deviceReset (cutFlash s) s.hostDown false
  { s1 with
    start := StartUp.init, lode := { s1.lode with activeOk := false, standbyOk := false },
    power := { s1.power with rails := false }, tap := { Tap.init with cells := s.tap.cells } }

/-- POWER_UP (R496, R497): with PWR_EN high and the input stable the rails come up; after a thermal trip only once PWR_EN has been
low. -/
def execPowerUp (s : State) : Host.Outcome State Fault Refusal :=
  .next (
    if s.power.rails || s.power.tripLatched then s else
    { s with power := { s.power with pwrEn := true, rails := true, inputFault := false, dPwr := 16, dTh := [], refresh16 := [],
                                     sensors := [] } })

/-- POWER_DOWN (R497): PWR_EN falls; the latch of a thermal trip is gone by the next rise (log 53). -/
def execPowerDown (s : State) : Host.Outcome State Fault Refusal :=
  let s1 := if s.power.rails then powerOff s else s
  .next { s1 with power := { s1.power with pwrEn := false, tripLatched := false }, tap := { Tap.init with cells := s.tap.cells } }

/-- INPUT_FAULT_SHUTDOWN (R495, R497, R512). -/
def execInputFaultShutdown (high : Bool) (s : State) : Host.Outcome State Fault Refusal :=
  let s1 := if s.power.rails then powerOff s else s
  .next { s1 with power := { s1.power with
    inputFault := true, vinOvFault := s1.power.vinOvFault || high, vinUvFault := s1.power.vinUvFault || !high } }

end Sys2Proof.Machine
end

