-- ==== Sys2Proof/Machine/StartUp.lean ====
section
/-! DEFINITION. The start-up sequence: the ROM, the choice and checks of the Chart, self-test, reconciliation, links, service, and the
failures that end it (R386, R390, R410 to R423). -/

namespace Sys2Proof.Machine

/-! ### Failures (R421) -/

/-- The device enters FAILED with a code: every port and link is closed, admission is closed. -/
def failStart (s : State) (code : Code) (log : Bool) : State :=
  let s1 := closePorts { s with start := { s.start with stage := 7, failcode := codeValue code }, helm := { s.helm with admission := false } }
  if log then s1.event 0 code 0 else s1

/-! ### Stage 1 (R386, R412, R418, R422) -/

/-- ROM_STAGE_END (R418): the ROM self-checks are over, the reference has been checked and the PLLs should have locked. With no
Lodestar left nothing runs (R422); without the reference or a lock the device is in FAILED (R421, log 52). -/
def execRomStageEnd (laOk lbOk refOk pllOk : Bool) (s : State) : Host.Outcome State Fault Refusal :=
  noted s (.next (
    if s.start.stage ≠ 0 ∨ s.start.heldReset = true ∨ s.power.rails = false ∨ s.lode.activeOk = false then s else
    let s1 := { s with
      lode := { s.lode with active := if laOk then 0 else 1, activeOk := laOk || lbOk, standbyOk := laOk && lbOk },
      start := { s.start with romLA := laOk, romLB := lbOk } }
    if !laOk && !lbOk then s1
    else if !refOk || !pllOk then failStart { s1 with refLost := true } .refclkLoss true
    else { s1 with start := { s1.start with stage := 1 } }))

/-! ### The choice of an image (R412, R417) -/

/-- Has image `n` been tried? -/
def StartUp.tried (t : StartUp) (n : Fin 2) : Bool := if n = 0 then t.triedA else t.triedB

/-- Is it image `n`'s turn (R412): the image with the higher GEN first, image A on a tie, the other one after it? `gen` and
`other` are the GENs that the headers give. -/
def turnOf (t : StartUp) (n : Fin 2) (gen other : Option Nat) : Bool :=
  if t.tried n then false
  else if t.tried (otherLode n) then true
  else match gen, other with
    | some g, some o => decide (o < g ∨ (o = g ∧ n = 0))
    | some _, none => true
    | none, some _ => false
    | none, none => decide (n = 0)

/-- An image fails: its code is recorded, the other one is next, and after both the device is in RECOVERY with the flash owner
active (R412, R417, R422). -/
def imageFails (s : State) (n : Fin 2) (code : Code) : State :=
  let t := s.start
  let t1 := if n = 0 then { t with triedA := true, codeA := codeValue code } else { t with triedB := true, codeB := codeValue code }
  if t.tried (otherLode n) then { s with start := { t1 with stage := 8 } } else { s with start := { t1 with fallback := true } }

/-- An image is in force (R386, R412, R415): LA is active if its keys were recovered (`la`), and the configuration is copied. -/
def inForce (s : State) (n : Nat) (i : ChartImage) (la lb : Bool) : State :=
  let c := i.config
  { s with
    chart := some i,
    start := { s.start with stage := 2, image := n, kept := none },
    lode := { s.lode with active := if la then 0 else 1, activeOk := la || lb, standbyOk := la && lb },
    pwr := { s.pwr with pcap := c.pcapDef },
    helm := { s.helm with sst := Vector.replicate 2 c.sst },
    ports := Vector.ofFn (fun p : Fin 8 => { s.ports.get p with addr := c.ports.getD p.val PortAddr.init }),
    pds := s.pds.map (fun d => { d with threshA := c.ingThresh, threshB := c.ingThresh }) }

/-- CHART_IMAGE_CHECK (R412, R417): the image whose turn it is is judged. After a sealed warm restart that reuses the Chart the
hashes of what was held are computed again; a mismatch makes the flash be read (R430). `keys` says whether LA and LB recover their
keys (R390, R391, R397); only a Lodestar that has passed its ROM self-check does. -/
def execChartImageCheck (n : Fin 2) (t : ImageTests) (keys : Bool × Bool) (s : State) : Host.Outcome State Fault Refusal :=
  let la := s.start.romLA && keys.1
  let lb := s.start.romLB && keys.2
  noted s (.next (
    if s.start.stage ≠ 1 then s else
    match s.start.kept with
    | some (m, c) =>
      if t.hashes = BitVec.allOnes 9 then inForce s m c la lb else { s with start := { s.start with kept := none } }
    | none =>
      if turnOf s.start n (genOf (s.flash n)) (genOf (s.flash (otherLode n))) = false then s else
      match imageCheck la lb (s.flash n) t with
      | some code => imageFails s n code
      | none => inForce s n.val (chartOf (s.flash n)) la lb))

/-- FLASH_READ_TIMEOUT (R417): the image fails with FLASH_READ. -/
def execFlashReadTimeout (n : Fin 2) (s : State) : Host.Outcome State Fault Refusal :=
  noted s (.next (
    if s.start.stage ≠ 1 ∨ s.start.tried n = true ∨ s.start.kept.isSome = true then s else imageFails s n .flashRead))

/-! ### Stages 4 to 6 (R418 to R421) -/

/-- SELF_TEST_END (R418, R421). -/
def execSelfTestEnd (t : SelfTest) (s : State) : Host.Outcome State Fault Refusal :=
  noted s (.next (
    if s.start.stage ≠ 2 then s
    else if t.helmBad then failStart s .helmTest true
    else if t.portBad then failStart s .portTest true
    else { s with start := { s.start with stage := 3, selfTest := some t } }))

/-- A vault fails its pattern passes or its row clear (R420). -/
def vaultFails (s : State) (v : Nat) : State :=
  (s.setVault v { s.vault v with out := true }).event (dieBlock (dieOfSite v)) .vaultTestFail v

/-- The vaults of dies whose stack interface fails. -/
def stackVaults (ds : List Nat) : List Nat := ds.flatMap (fun d => (List.range 192).map (vaultOf d))

/-- The event of a site (R485): before its placement a site holds no logical core. -/
def siteEvent (s : State) (t : Nat) (c : Code) : State :=
  s.logRec { mkRec (dieBlock (dieOfSite t)) .event c with detail := BitVec.ofNat 256 (t + dieOfSite t * 2 ^ 16) }

/-- A site's state from the repair map and the self-test (R419). -/
def judgeSite (marked failed : List Nat) (s : State) (t : Nat) : State :=
  let m := decide (t ∈ marked)
  let f := decide (t ∈ failed)
  let s1 := if m || f then s.setMark t { s.mark t with retired := true } else s
  if f && !m then siteEvent { s1 with start := { s1.start with repairDiff := true } } t .repairNew
  else if m && !f then siteEvent s1 t .repairMarkedPass else s1

/-- Reconciliation (R419): the states of the sites, die by die; dies that failed or fall short; then the placement of the cores. -/
def reconcile (s : State) (marked : List Nat) (t : SelfTest) (badStacks : List Nat) : State :=
  let s1 := (List.range 24).foldl (fun s d => ((List.range 192).map (vaultOf d)).foldl (judgeSite marked t.badSites) s) s
  let s2 := (t.badCompute ++ badStacks).foldl retireDie s1
  let s3 := (List.range 24).foldl dieCheck s2
  (List.range Config.nCores).foldl seatCore s3

/-- Does every die's reserve hold its pages of the device areas (R420)? -/
def areasFit (s : State) : Bool :=
  s.helm.areaDies.all (fun d =>
    decide (stripesOn s.helm.areaDies 0 lzStripes d + stripesOn s.helm.areaDies 1 parkStripes d
      ≤ ((List.range 192).map (fun i => (s.reserveOf (vaultOf d i)).length)).foldl (· + ·) 0))

/-- Training of all ports and links starts (R418 stage 7, R341). -/
def startLinks (s : State) : State :=
  { s with
    start := { s.start with stage := 5 },
    pds := s.pds.map (fun d => { d with closed := false }),
    ports := s.ports.map (fun p => { p with training := true }),
    links := s.links.map (fun l => { l with st := .training }) }

/-- Stage 6: reconciliation, the device areas, and either a failure or the links. -/
def reconcileStage (s : State) (badStacks : List Nat) : State :=
  match s.chart, s.start.selfTest with
  | some c, some t =>
    let s1 := reconcile s c.badSites t badStacks
    if s1.diesIn.length < 8 then failStart s1 .deviceFailed false
    else
      let s2 := { s1 with helm := { s1.helm with areaDies := s1.diesIn } }
      if areasFit s2 then startLinks s2 else failStart s2 .resvShort true
  | _, _ => s

/-- STACK_TEST_END (R418 to R420): vaults that failed leave use, then reconciliation. STAGE passes through 4. -/
def execStackTestEnd (badVaults badStacks : List Nat) (s : State) : Host.Outcome State Fault Refusal :=
  if badVaults.any (fun v => decide (Config.nSites ≤ v)) then .fault .noSuchVault
  else if badStacks.any (fun d => decide (24 ≤ d)) then .fault .noSuchBlock
  else .next (
    if s.start.stage ≠ 3 then s else
    let s1 := (badVaults ++ stackVaults badStacks).dedup.foldl vaultFails { s with mem := [], start := { s.start with stage := 4 } }
    let s2 := note s s1
    note s2 (reconcileStage s2 badStacks))

/-- LINK_STAGE_END (R418): every link is up, or 2 s have passed; the device is in SERVICE. A PARK written before takes effect. -/
def execLinkStageEnd (s : State) : Host.Outcome State Fault Refusal :=
  noted s (.next (
    if s.start.stage ≠ 5 then s else
    { s with start := { s.start with stage := 6, linksDone := true }, helm := { s.helm with admission := true },
             pwr := { s.pwr with entering := s.pwr.park } }))

/-- START_TIMEOUT (R418): stages 4 to 6 have taken more than 5 s. -/
def execStartTimeout (s : State) : Host.Outcome State Fault Refusal :=
  noted s (.next (if 2 ≤ s.start.stage ∧ s.start.stage ≤ 4 then failStart s .startTimeout true else s))

end Sys2Proof.Machine
end

