-- ==== Sys2Proof/Machine/Management.lean ====
section
/-! DEFINITION. Power measurement and throttling, the sensors, the management buses and the test port (R495 to R515). -/

namespace Sys2Proof.Machine

/-! ### The input (R495, R501) -/

/-- Put a number in its place in a rising list. -/
def insertNat (n : Nat) : List Nat → List Nat
  | [] => [n]
  | a :: l => if n ≤ a then n :: a :: l else a :: insertNat n l

/-- A list in rising order. -/
def sortNat (l : List Nat) : List Nat := l.foldr insertNat []

/-- The median of a full window of 64 samples lies between the two middle ones; where they differ the spec does not say where,
so it is a free value between them (log 54). -/
def vinMedian (win : List Nat) (d : Nat) : Nat :=
  let l := sortNat win
  let lo := l.getD 31 0
  let hi := l.getD 32 0
  if lo = hi then lo else lo + (Config.freeWord d).toNat % (hi - lo + 1)

/-- VIN_SAMPLE (R495, R469): the window keeps the last 64 samples, and VIN is their median once there are 64 (log 54). -/
def execVinSample (tenths : Nat) (s : State) : Host.Outcome State Fault Refusal :=
  let win := (s.power.vinWin ++ [tenths]).drop (s.power.vinWin.length - 63)
  .next (
    if win.length < 64 then { s with power := { s.power with vinWin := win } } else
    let m := vinMedian win s.drawn
    { s with
      drawn := s.drawn + 1,
      power := { s.power with vinWin := win, vin := m, vinUvWarn := s.power.vinUvWarn || decide (m < 420),
                              vinOvWarn := s.power.vinOvWarn || decide (580 < m) } })

/-- FAST_CURRENT_LIMIT (R501): every die sets D_pwr to 4, and IIN_OC_WARNING is latched (R512). -/
def execFastCurrentLimit (s : State) : Host.Outcome State Fault Refusal :=
  noted s (.next (if s.power.rails then { s with power := { s.power with dPwr := 4, iinOcWarn := true } } else s))

/-- Ten times the power cap of R501, in watts: VIN is in tenths of a volt. -/
def powerCap10 (pcap vin : Nat) : Nat := min (10 * min 3300 (max 1000 pcap)) (min 33000 (75 * vin))

/-- The update of D_pwr (R501), by the mean input power. -/
def nextDPwr (d p cap10 : Nat) : Nat :=
  if cap10 < 10 * p then max 2 (d - 2) else if 1000 * p < 97 * cap10 ∧ d < 16 then d + 1 else d

/-- DUTY_POWER_UPDATE (R501): `meanWatts` is the mean input power of the last 1 ms, which GLB_PIN also shows (R469). -/
def execDutyPowerUpdate (meanWatts : Nat) (s : State) : Host.Outcome State Fault Refusal :=
  noted s (.next (
    if s.power.rails then
      { s with power := { s.power with
          pin := min 4095 meanWatts, dPwr := nextDPwr s.power.dPwr meanWatts (powerCap10 s.pwr.pcap s.power.vin) } }
    else s))

/-! ### Temperature (R504 to R506) -/

/-- Have all of some sensors failed? -/
def State.allFailed (s : State) (l : List SensorId) : Bool := l.all (fun i => (s.sensor i).failed)

/-- The update of one die's D_th (R505). A die with no reading yet is below every limit. -/
def nextDTh (s : State) (die elapsedMs : Nat) : Nat :=
  let tj := (hottest (readings s (junctionsOf die))).getD (-20)
  let td := (hottest (readings s (layersOf die))).getD (-20)
  let d := s.dTh die
  if s.allFailed (junctionsOf die) || s.allFailed (layersOf die) then 4
  else if 95 ≤ tj ∨ 95 ≤ td then 2
  else if 90 ≤ tj ∨ 93 ≤ td then max 2 (d - 1)
  else if tj < 88 ∧ td < 91 ∧ 10 ≤ elapsedMs then min 16 (d + 1)
  else d

/-- DUTY_THERMAL_UPDATE (R505): `elapsedMs` is the time since the die's D_th last changed. OT_WARNING is latched while any D_th is
below 16 (R512). -/
def execDutyThermalUpdate (die elapsedMs : Nat) (s : State) : Host.Outcome State Fault Refusal :=
  if 24 ≤ die then .fault .noSuchBlock else
  noted s (.next (
    if s.power.rails then
      let s1 := { s with power := { s.power with dTh := Sparse.set 16 s.power.dTh die (nextDTh s die elapsedMs) } }
      { s1 with power := { s1.power with otWarn := s1.power.otWarn || s1.thrTherm } }
    else s))

/-- Does a sensor exist (R504)? -/
def sensorExists : SensorId → Bool
  | .dieJunction d _ => decide (d < 24)
  | .layer d _ => decide (d < 24)
  | .other d _ => decide (d < 8)
  | .outlet => true

/-- The reading at which a sensor counts towards a thermal trip (R506); the outlet sensor has none. -/
def sensorTripAt : SensorId → Option Int
  | .dieJunction _ _ => some 105
  | .layer _ _ => some 100
  | .other _ _ => some 105
  | .outlet => none

/-- A sample is discarded outside −20 °C to 150 °C or more than 5 °C from the last one accepted (R504). -/
def Sensor.discard (x : Sensor) (v : Int) : Bool :=
  decide (v < -20 ∨ 150 < v) || (match x.last with | none => false | some l => decide (5 < (v - l).natAbs))

/-- A sensor after a sample (R504, R506): 16 consecutive discards fail it until the next power-up. -/
def Sensor.take (x : Sensor) (trip : Option Int) (v : Int) : Sensor :=
  if x.failed then x
  else if x.discard v then
    { x with discards := x.discards + 1, failed := decide (16 ≤ x.discards + 1) }
  else
    let hot : Bool := match trip with | none => false | some t => decide (t ≤ v)
    { last := some v, discards := 0, failed := false, hot := if hot then x.hot + 1 else 0 }

/-- The refresh window of a stack (R205, R505): the 16 ms window begins when a layer reads above 85 °C, or when no sensor is left, and ends when
every layer reads below 83 °C. -/
def nextRefresh (s : State) (die : Nat) : Bool :=
  let r := readings s (layersOf die)
  if s.allFailed (layersOf die) then true
  else if r.any (fun v => decide (85 < v)) then true
  else if r.all (fun v => decide (v < 83)) then false
  else Sparse.get false s.power.refresh16 die

/-- The refresh window after a sample of a layer sensor. -/
def refreshAfter (s : State) : SensorId → State
  | .layer d _ => { s with power := { s.power with refresh16 := Sparse.set false s.power.refresh16 d (nextRefresh s d) } }
  | _ => s

/-- The thermal trip (R497, R506): every rail but standby goes off, the shutdown is latched, OT_FAULT is set. -/
def thermalTrip (s : State) : State :=
  let s1 := powerOff s
  { s1 with power := { s1.power with tripLatched := true, otFault := true } }

/-- SENSOR_SAMPLE (R504 to R506). -/
def execSensorSample (i : SensorId) (value : Int) (s : State) : Host.Outcome State Fault Refusal :=
  if sensorExists i = false then .fault .noSuchBlock else
  noted s (.next (
    if s.power.rails then
      let x := (s.sensor i).take (sensorTripAt i) value
      let s1 := { s with power := { s.power with sensors := Sparse.set Sensor.init s.power.sensors (sensorKey i) x } }
      let s2 := refreshAfter s1 i
      if 2 ≤ x.hot then thermalTrip s2 else s2
    else s))

/-! ### The management SMBus (R511) -/

/-- A block read of 4 bytes of the active Lodestar's view: zero before stage 1 of start-up ends and without rails. With no Lodestar in
service nothing answers (log 54). -/
def smbRead (s : State) (v : Nat) : Host.Outcome State Fault Refusal :=
  .next (
    if s.start.stage = 0 ∨ s.power.rails = false then s.emit (.smbus (toBytes 4 0))
    else if s.lode.activeOk then s.emit (.smbus (toBytes 4 v)) else s)

/-- SMB_GLB_IDENT: command 0x00. -/
def execSmbGlbIdent (s : State) : Host.Outcome State Fault Refusal := smbRead s (s.globalReg 0x00)
/-- SMB_GLB_START: command 0x01. -/
def execSmbGlbStart (s : State) : Host.Outcome State Fault Refusal := smbRead s (s.globalReg 0x04)
/-- SMB_GLB_HEALTH: command 0x02. -/
def execSmbGlbHealth (s : State) : Host.Outcome State Fault Refusal := smbRead s (s.globalReg 0x0C)
/-- SMB_GLB_PWR_STATE: command 0x03. -/
def execSmbGlbPwrState (s : State) : Host.Outcome State Fault Refusal := smbRead s (s.globalReg 0x44)
/-- SMB_GLB_PIN: command 0x04. -/
def execSmbGlbPin (s : State) : Host.Outcome State Fault Refusal := smbRead s (s.globalReg 0x48)
/-- SMB_GLB_THERM: command 0x05. -/
def execSmbGlbTherm (s : State) : Host.Outcome State Fault Refusal := smbRead s (s.globalReg 0x4C)
/-- SMB_GLB_EVNEXT: command 0x06. -/
def execSmbGlbEvnext (s : State) : Host.Outcome State Fault Refusal := smbRead s (s.globalReg 0x10)

/-- SMBUS_CLOCK_TIMEOUT (R511): the transaction ends and the module releases the bus. -/
def execSmbusClockTimeout (s : State) : Host.Outcome State Fault Refusal := .next (s.emit .smbusRelease)

/-! ### The PMBus (R512, R513); where the bits stand in the status registers is log 51 -/

/-- An answer on the PMBus, which is served from standby at all times. -/
def pmbus (s : State) (l : List Byte) : Host.Outcome State Fault Refusal := .next (s.emit (.pmbus l))

/-- STATUS_INPUT. -/
def Power.statusInput (p : Power) : Nat :=
  b2n p.vinOvFault * 2 ^ 7 + b2n p.vinOvWarn * 2 ^ 6 + b2n p.vinUvWarn * 2 ^ 5 + b2n p.vinUvFault * 2 ^ 4 + b2n p.iinOcWarn * 2

/-- STATUS_TEMPERATURE. -/
def Power.statusTemperature (p : Power) : Nat := b2n p.otFault * 2 ^ 7 + b2n p.otWarn * 2 ^ 6

/-- STATUS_CML. -/
def Power.statusCml (p : Power) : Nat := b2n p.cmlInvalid * 2 ^ 7 + b2n p.cmlData * 2 ^ 6 + b2n p.cmlPec * 2 ^ 5

/-- The failed sensors (R504). -/
def Power.failedSensors (p : Power) : Nat := (p.sensors.filter (fun e => e.2.failed)).length

/-- STATUS_MFR_SPECIFIC. -/
def Power.statusMfr (p : Power) : Nat := b2n (decide (0 < p.failedSensors)) + b2n (decide (p.dPwr < 16)) * 2

/-- The high byte of STATUS_WORD: INPUT, MFR_SPECIFIC and POWER_GOOD#. -/
def Power.statusHigh (p : Power) : Nat :=
  b2n (decide (p.statusInput ≠ 0)) * 2 ^ 5 + b2n (decide (p.statusMfr ≠ 0)) * 2 ^ 4 + b2n (!p.rails) * 2 ^ 3

/-- STATUS_BYTE: OFF, VIN_UV_FAULT, TEMPERATURE, CML, and NONE OF THE ABOVE for the high byte. -/
def Power.statusByte (p : Power) : Nat :=
  b2n (!p.rails) * 2 ^ 6 + b2n p.vinUvFault * 2 ^ 3 + b2n (decide (p.statusTemperature ≠ 0)) * 2 ^ 2
    + b2n (decide (p.statusCml ≠ 0)) * 2 + b2n (decide (p.statusHigh ≠ 0))

/-- CLEAR_FAULTS (R506, R512): the latched status bits clear. OT_WARNING stands again at once while any D_th is below 16. -/
def execClearFaults (s : State) : Host.Outcome State Fault Refusal :=
  .next { s with power := { s.power with
    vinOvFault := false, vinOvWarn := false, vinUvWarn := false, vinUvFault := false, iinOcWarn := false, otFault := false,
    otWarn := s.thrTherm, cmlInvalid := false, cmlData := false, cmlPec := false } }

/-- CAPABILITY: 0xB0. -/
def execCapability (s : State) : Host.Outcome State Fault Refusal := pmbus s [0xB0]
/-- STATUS_BYTE. -/
def execStatusByte (s : State) : Host.Outcome State Fault Refusal := pmbus s (toBytes 1 s.power.statusByte)
/-- STATUS_WORD, low byte first. -/
def execStatusWord (s : State) : Host.Outcome State Fault Refusal :=
  pmbus s (toBytes 2 (s.power.statusByte + s.power.statusHigh * 2 ^ 8))
/-- STATUS_INPUT. -/
def execStatusInput (s : State) : Host.Outcome State Fault Refusal := pmbus s (toBytes 1 s.power.statusInput)
/-- STATUS_TEMPERATURE. -/
def execStatusTemperature (s : State) : Host.Outcome State Fault Refusal := pmbus s (toBytes 1 s.power.statusTemperature)
/-- STATUS_CML. -/
def execStatusCml (s : State) : Host.Outcome State Fault Refusal := pmbus s (toBytes 1 s.power.statusCml)
/-- STATUS_MFR_SPECIFIC. -/
def execStatusMfrSpecific (s : State) : Host.Outcome State Fault Refusal := pmbus s (toBytes 1 s.power.statusMfr)

/-- A quantity in LINEAR11 (log 51). -/
def linear (milli : Nat) (v : Int) : List Byte := toBytes 2 (Config.linear11 milli v).toNat

/-- READ_VIN: the median input voltage, in tenths of a volt. -/
def execReadVin (s : State) : Host.Outcome State Fault Refusal := pmbus s (linear 100 s.power.vin)
/-- READ_IIN: the input current is a measurement that nothing else in the spec gives, so a free value (log 13). -/
def execReadIin (s : State) : Host.Outcome State Fault Refusal :=
  pmbus { s with drawn := s.drawn + 1 } (toBytes 2 (Config.freeWord s.drawn).toNat)
/-- READ_PIN: the input power in watts. -/
def execReadPin (s : State) : Host.Outcome State Fault Refusal := pmbus s (linear 1000 s.power.pin)
/-- READ_TEMPERATURE_1: TJ_MAX. -/
def execReadTemperature1 (s : State) : Host.Outcome State Fault Refusal := pmbus s (linear 1000 s.tjMax)
/-- READ_TEMPERATURE_2: TDRAM_MAX. -/
def execReadTemperature2 (s : State) : Host.Outcome State Fault Refusal := pmbus s (linear 1000 s.tdramMax)
/-- READ_TEMPERATURE_3: the coolant outlet. -/
def execReadTemperature3 (s : State) : Host.Outcome State Fault Refusal :=
  pmbus s (linear 1000 ((hottest (readings s [.outlet])).getD 0))

/-- PMBUS_REVISION: 0x33. -/
def execPmbusRevision (s : State) : Host.Outcome State Fault Refusal := pmbus s [0x33]
/-- MFR_ID: DVORUMEL in ASCII. -/
def execMfrId (s : State) : Host.Outcome State Fault Refusal := pmbus s [0x44, 0x56, 0x4F, 0x52, 0x55, 0x4D, 0x45, 0x4C]
/-- MFR_MODEL: LX-9032-M in ASCII. -/
def execMfrModel (s : State) : Host.Outcome State Fault Refusal :=
  pmbus s [0x4C, 0x58, 0x2D, 0x39, 0x30, 0x33, 0x32, 0x2D, 0x4D]

/-- The least D_th of any die (R512). -/
def State.leastDTh (s : State) : Nat := (List.range 24).foldl (fun a d => min a (s.dTh d)) 16

/-- MFR_READ_DUTY: D_pwr in bits [4:0], the least D_th in bits [12:8]. -/
def execMfrReadDuty (s : State) : Host.Outcome State Fault Refusal :=
  pmbus s (toBytes 2 (s.power.dPwr % 32 + s.leastDTh % 32 * 2 ^ 8))

/-- MFR_SENSOR_FAIL: the failed sensors, 0 to 593. -/
def execMfrSensorFail (s : State) : Host.Outcome State Fault Refusal := pmbus s (toBytes 2 s.power.failedSensors)

/-- PMBUS_INVALID_COMMAND (R512): CML is set and the command is otherwise ignored. -/
def execPmbusInvalidCommand (s : State) : Host.Outcome State Fault Refusal :=
  .next { s with power := { s.power with cmlInvalid := true } }

/-- Is ALERT_N asserted (R513)? -/
def State.alert (s : State) : Bool :=
  decide (s.power.statusInput ≠ 0 ∨ s.power.statusTemperature ≠ 0 ∨ s.power.statusCml ≠ 0)
    || decide (s.start.stage = 7 ∨ s.start.stage = 8) || (fins 4).any (fun k => s.lode.silent.get k)

/-- ALERT_RESPONSE (R513): while it asserts ALERT_N the module answers with its PMBus address, as a byte whose lowest bit is
zero (log 51). -/
def execAlertResponse (s : State) : Host.Outcome State Fault Refusal :=
  .next (if s.alert then s.emit (.pmbus (toBytes 1 (2 * (0x40 + Config.straps.toNat)))) else s)

/-! ### The test access port (R515) -/

/-- Does a device answer on the port: the active Lodestar, with its rails on? -/
def State.tapUp (s : State) : Bool := s.power.rails && s.lode.activeOk

/-- The port takes an instruction. -/
def tapTake (s : State) (t : TapInstr) (drive : Bool) : State :=
  { s with tap := { s.tap with reset := false, instr := t, driving := drive } }

/-- BYPASS (R515). -/
def execBypass (s : State) : Host.Outcome State Fault Refusal := .next (if s.tapUp then tapTake s .bypass false else s)

/-- IDCODE (R515): 0x1903_29CF. -/
def execIdcode (s : State) : Host.Outcome State Fault Refusal :=
  .next (if s.tapUp then (tapTake s .idcode false).emit (.tdo 0x190329CF) else s)

/-- SAMPLE_PRELOAD (R515): with cells given they are preloaded; without, the pins are sampled, whose levels are outside the
model: a free value (log 13). The cells' former contents are shifted out on a preload, the sample on a sample. -/
def execSamplePreload (cells : Option (BitVec 64)) (s : State) : Host.Outcome State Fault Refusal :=
  .next (
    if s.tapUp then
      let s1 := tapTake s .sample false
      match cells with
      | some c => ({ s1 with tap := { s1.tap with cells := c } }).emit (.tdo s.tap.cells.toNat)
      | none =>
        let v : BitVec 64 := Config.freeWord s.drawn ++ Config.freeWord (s.drawn + 1)
        ({ s1 with drawn := s.drawn + 2, tap := { s1.tap with cells := v } }).emit (.tdo v.toNat)
    else s)

/-- EXTEST (R422, R515): in RECOVERY alone it drives the J1 and J2 low-speed pins; elsewhere it acts as BYPASS. -/
def execExtest (s : State) : Host.Outcome State Fault Refusal :=
  .next (
    if s.tapUp then (if s.start.stage = 8 then tapTake s .extest true else tapTake s .bypass false) else s)

/-- TEST_LOGIC_RESET (R515). -/
def execTestLogicReset (s : State) : Host.Outcome State Fault Refusal := .next { s with tap := { Tap.init with cells := s.tap.cells } }

end Sys2Proof.Machine
end

