-- ==== Sys2Proof/Machine/MessageEvents.lean ====
section
/-! DEFINITION. Arrivals at a core's Message Unit: items, connections, credits (R268 to R274). -/

namespace Sys2Proof.Machine

/-- The held command of a core's Message Unit tries to go on. -/
def messageGoOn (s : State) (c : Nat) : State :=
  let k := s.core c
  if k.st ≠ .running ∨ k.cancelling = true then s else
  match (k.queue 4).prog with
  | [] => s
  | fl :: _ =>
    if fl.held = false then s else
    match messageTry s c fl with
    | .go s1 fl1 => putProg s1 c 4 0 fl1
    | .stop s1 st => stopCore s1 c 4 fl.entry st
    | _ => s

/-- The pointer copies of a queue disagree (R273): it is reset, and the consumer is faulted. -/
def queuePtr (s : State) (c : Nat) (q : Fin 8) : State :=
  let s1 := resetQueue s c q
  let k := s1.core c
  cmdFault s1 c 5 .faulted .queuePtr k.pos k.wordAt

/-- The words that an arrival moves on from a queue's tail registers go to its spill region (R265); one on a lost die cannot be
reached (R333). -/
def spillItem (s : State) (c : Nat) (q : Fin 8) (n : Nat) : State :=
  let k := s.core c
  let x := k.recvq q
  if spillWords x.words ≤ spillWords n then s else
  match spillOf s c q with
  | none => s
  | some f =>
    if s.lostAt (frameAddr f) then
      coreFault s c 5 .faulted .vaultUe k.pos k.wordAt
        (coreDetail k.wordAt k.pos 0xFF 0xFF 0 (physVault (frameAddr f) + physRow (frameAddr f) * 2 ^ 13))
    else spillPut s f x (4 + spillWords n) (4 + spillWords x.words)

/-- An item joins a queue (R271, R272): at the threshold TSEM rises by one. A STOPPED core keeps its semaphores (R87, R88). -/
def takeItem (s : State) (c : Nat) (q : Fin 8) (i : Item) : State :=
  let k := s.core c
  let x := k.recvq q
  let x1 := { x with items := x.items ++ [i] }.advance 0 (itemWords i.len)
  let hit := x.armed && decide (x.thresh ≠ 0) && decide (x.thresh ≤ x1.words)
  let s1 := (s.setCore c (k.setRecvq q { x1 with armed := x.armed && !hit })).bump (coreCtr c 0xB0)
    (spillWords x1.words - spillWords x.words)
  let s2 := spillItem s1 c q x.words
  if hit ∧ (s2.core c).st ≠ .stopped then raiseSem s2 c 5 x.tsem 1 k.pos k.wordAt else s2

/-- ITEM_ARRIVAL (R271): an item lies whole in its queue. Where the queue's pointer copies disagree, as with `ptrOk` clear one of
them has come to, the queue is reset (R273); an item of an older epoch, or for a disabled queue, is discarded and answered with
STALE (R274). -/
def execItemArrival (c : Nat) (item : Item) (ptrOk : Bool) (s : State) : Host.Outcome State Fault Refusal :=
  onCore s c (fun k =>
    let q : Fin 8 := ⟨item.dq % 8, by omega⟩
    let x := k.recvq q
    if ptrOk = false ∨ x.ptrOk = false then queuePtr s c q
    else if x.depth = 0 ∨ item.epoch ≠ x.epoch then
      (discardStale s c c item.src q item.epoch).emit (.stale item.src c q)
    else messageGoOn (takeItem s c q item) c)

/-- CONNECT (R268): the consumer grants its effective GRANT if the pool holds it, and otherwise answers WAIT; a disabled
queue grants nothing, which its reply says with a grant of zero. A CONNECT of an older epoch is discarded (R274). -/
def execConnect (c : Nat) (q : Fin 8) (producer : Nat) (epoch : Option (BitVec 8)) (s : State) :
    Host.Outcome State Fault Refusal :=
  onCore s c (fun k =>
    let x := k.recvq q
    let g := x.effGrant
    if (match epoch with | none => false | some e => decide (e ≠ x.epoch)) then
      (discardStale s c c producer q (epoch.getD 0)).emit (.stale producer c q)
    else if x.depth = 0 then s.emit (.connectReply producer c q (some 0) x.epoch)
    else if g ≤ x.pool then
      (s.setCore c (k.setRecvq q { x with pool := x.pool - g })).emit (.connectReply producer c q (some g) x.epoch)
    else s.emit (.connectReply producer c q none x.epoch))

/-- Is a SEND to a queue of a core held? -/
def sendHeld (s : State) (k : Core) (dest : Nat) (q : Fin 8) : Option InFlight :=
  (k.queue 4).prog.find? (fun fl => fl.held && (match fl.entry.op with
    | .send d q' _ _ _ => decide (q' = q) && decide ((s.corePat k).bind (fun p => p.placed d) = some dest)
    | _ => false))

/-- CONNECT's reply at the producer (R268): a grant enters the producer table; WAIT makes it try again later; a disabled
queue rejects the SEND with MSG_DEST. -/
def execConnectReply (producer dest : Nat) (q : Fin 8) (grant : Option Nat) (epoch : BitVec 8) (s : State) :
    Host.Outcome State Fault Refusal :=
  onCore s producer (fun k =>
    match grant with
    | none => s.setCore producer { k with connWait := some (dest, q) }
    | some 0 =>
      match sendHeld s k dest q with
      | none => s
      | some fl => stopCore s producer 4 fl.entry (rejectS .msgDest)
    | some g =>
      let e : ProdEnt := { dest := dest, q := q, epoch := epoch, credits := g, grant := g }
      messageGoOn ((s.setCore producer { k with prod := dropEnt k.prod dest q ++ [e] }).bump (coreCtr producer 0xB8) 1) producer)

/-- CONNECT_RETRY (R268): 256 NoC cycles after a WAIT the producer sends CONNECT again, if its SEND still waits. -/
def execConnectRetry (c : Nat) (s : State) : Host.Outcome State Fault Refusal :=
  onCore s c (fun k =>
    match k.connWait with
    | none => s
    | some (dest, q) =>
      let s1 := s.setCore c { k with connWait := none }
      if (sendHeld s k dest q).isSome && (k.prodEnt dest q).isNone then sendConnect s1 c dest q else s1)

/-- DISCONNECT (R269): the credits it carries go to the pool; one of an older epoch is discarded and answered with STALE (R274,
log 27). -/
def execDisconnect (c : Nat) (q : Fin 8) (producer : Nat) (epoch : BitVec 8) (words : Nat) (s : State) :
    Host.Outcome State Fault Refusal :=
  onCore s c (fun k =>
    let x := k.recvq q
    if epoch ≠ x.epoch then (discardStale s c c producer q epoch).emit (.stale producer c q)
    else s.setCore c (k.setRecvq q { x with pool := x.pool + words }))

/-- CREDIT_RETURN at the producer (R268 to R270): the credits join its entry; with no entry they go on to the consumer's
pool; those of another epoch are discarded (R274, log 27). -/
def execCreditReturn (producer c : Nat) (q : Fin 8) (epoch : BitVec 8) (words : Nat) (s : State) :
    Host.Outcome State Fault Refusal :=
  onCore s producer (fun k =>
    match k.prodEnt c q with
    | none => s.emit (.disconnect c q producer epoch words)
    | some e =>
      if e.epoch ≠ epoch then discardStale s producer c c q epoch
      else
        let prod := k.prod.map (fun x => if x.dest = c ∧ x.q = q then { x with credits := x.credits + words } else x)
        messageGoOn (s.setCore producer { k with prod := prod }) producer)

/-- STALE at the producer (R274): its entry is dropped, and it connects again at its next SEND. -/
def execStale (producer c : Nat) (q : Fin 8) (s : State) : Host.Outcome State Fault Refusal :=
  onCore s producer (fun k => messageGoOn (s.setCore producer { k with prod := dropEnt k.prod c q }) producer)

end Sys2Proof.Machine
end

