-- ==== Sys2Proof/Machine/Sequencer.lean ====
section
/-! DEFINITION. The commands that the sequencer executes itself: scalar, flow and synchronisation (R69 to R75, R82). -/

namespace Sys2Proof.Machine

/-- Write a register and continue at the next position. -/
def seqWrite (s : State) (c : Nat) (k : Core) (d : Reg) (v : W64) : State := seqGoto s c (k.setReg d v) (k.pos + 1)

/-- The scratch byte address of LD and ST: S[A] + IMM32 sign-extended, modulo 2^64 (R59, R69). -/
def ldAddr (k : Core) (a : Reg) (imm : BitVec 32) : Nat := (k.reg a + imm.signExtend 64).toNat

/-- The checks of R70, in order. -/
def ldCheck (addr : Nat) : Option Code :=
  if addr % 8 ≠ 0 then some .misalign else if Config.scratchTop ≤ addr then some .scratchRange else none

/-- SET (R69). -/
def execSet (c : Nat) (d : Reg) (imm : BitVec 64) (s : State) : Host.Outcome State Fault Refusal :=
  seqTake c [d] s (fun k => seqWrite s c k d imm)

/-- ADDI (R69). -/
def execAddi (c : Nat) (d a : Reg) (imm : BitVec 32) (s : State) : Host.Outcome State Fault Refusal :=
  seqTake c [a, d] s (fun k => seqWrite s c k d (k.reg a + imm.signExtend 64))

/-- ADD (R69). -/
def execAdd (c : Nat) (d a b : Reg) (s : State) : Host.Outcome State Fault Refusal :=
  seqTake c [a, b, d] s (fun k => seqWrite s c k d (k.reg a + k.reg b))

/-- SUB (R69). -/
def execSub (c : Nat) (d a b : Reg) (s : State) : Host.Outcome State Fault Refusal :=
  seqTake c [a, b, d] s (fun k => seqWrite s c k d (k.reg a - k.reg b))

/-- SHL (R69). -/
def execShl (c : Nat) (d a : Reg) (sh : Fin 64) (s : State) : Host.Outcome State Fault Refusal :=
  seqTake c [a, d] s (fun k => seqWrite s c k d (k.reg a <<< sh.val))

/-- SHR, logical (R69). -/
def execShr (c : Nat) (d a : Reg) (sh : Fin 64) (s : State) : Host.Outcome State Fault Refusal :=
  seqTake c [a, d] s (fun k => seqWrite s c k d (k.reg a >>> sh.val))

/-- LD (R69, R70): after its checks, the 8 B are read and the register is pending until REGISTER_RESULT (R81). -/
def execLd (c : Nat) (d a : Reg) (imm : BitVec 32) (s : State) : Host.Outcome State Fault Refusal :=
  seqTake c [a, d] s (fun k =>
    match ldCheck (ldAddr k a imm) with
    | some e => cmdFault (s.setCore c k) c 0 .rejected e k.pos (scalarWord 6 d a 0 (at_ imm.toNat 64))
    | none =>
      seqGoto s c { k with pend := k.pend ++ [(d, some (BitVec.ofNat 64 (rdNat k.scratch (ldAddr k a imm) 8)))] } (k.pos + 1))

/-- ST (R69, R70). -/
def execSt (c : Nat) (d a : Reg) (imm : BitVec 32) (s : State) : Host.Outcome State Fault Refusal :=
  seqTake c [a, d] s (fun k =>
    match ldCheck (ldAddr k a imm) with
    | some e => cmdFault (s.setCore c k) c 0 .rejected e k.pos (scalarWord 7 d a 0 (at_ imm.toNat 64))
    | none => seqGoto s c { k with scratch := wrNat k.scratch (ldAddr k a imm) 8 (k.reg d).toNat } (k.pos + 1))

/-- The value that GETID's SEL 0 to 4 selects (R69, R236, R314): it comes from the declared region, in Pattern
coordinates, wherever the region is placed. -/
def getidValue (s : State) (c : Nat) (k : Core) (sel : Nat) : Nat :=
  match s.coreRegion k with
  | none => if sel = 0 then c else 0
  | some r =>
    let i := indexIn c r.cores
    if sel = 0 then regionCoord r.image i else if sel = 1 then i % r.image.width else if sel = 2 then i / r.image.width
    else if sel = 3 then r.image.width else r.image.height

/-- GETID (R69). SEL 5 reads the free-running cycle counter, whose value is free (log 16); the reserved SEL values
never pass the loader and are rejected with BAD_COMMAND (R68, log 17). -/
def execGetid (c : Nat) (d : Reg) (sel : Fin 16) (s : State) : Host.Outcome State Fault Refusal :=
  seqTake c [d] s (fun k =>
    if sel.val ≤ 4 then seqWrite s c k d (BitVec.ofNat 64 (getidValue s c k sel))
    else if sel.val = 5 then
      seqWrite { s with drawn := s.drawn + 1 } c { k with cycles := Config.cycles s.drawn } d (Config.cycles s.drawn)
    else cmdFault (s.setCore c k) c 0 .rejected .badCommand k.pos (scalarWord 8 d 0 0 (at_ sel 64)))

/-- The count of a LOOP (R71): its field, or bits [31:0] of S[CREG]. -/
def loopCount (k : Core) (count : BitVec 16) (creg : Reg) (csrc : Bool) : Nat :=
  if csrc then (k.reg creg).toNat % 2 ^ 32 else count.toNat

/-- LOOP (R71 to R73). A zero count is rejected with ZERO_EXTENT. -/
def execLoop (c : Nat) (count : BitVec 16) (creg : Reg) (csrc : Bool) (ireg : Reg) (ien : Bool) (last : Fin 2048) (s : State) :
    Host.Outcome State Fault Refusal :=
  seqTake c ((if csrc then [creg] else []) ++ (if ien then [ireg] else [])) s (fun k =>
    let n := loopCount k count creg csrc
    if n = 0 then cmdFault (s.setCore c k) c 0 .rejected .zeroExtent k.pos (loopWord count creg csrc ireg ien last) else
    let e : LoopEnt := { start := k.pos + 1, last := last, count := n, iter := 0, ireg := if ien then some ireg else none }
    let k1 := if ien then k.setReg ireg 0 else k
    seqGoto s c { k1 with loops := e :: k1.loops } (k.pos + 1))

/-- LEXIT (R71): leaves the innermost loop and continues at its END + 1. Outside every loop it never passes the loader
(R72) and is rejected with BAD_COMMAND (log 17). -/
def execLexit (c : Nat) (s : State) : Host.Outcome State Fault Refusal :=
  seqTake c [] s (fun k =>
    match k.loops with
    | [] => cmdFault (s.setCore c k) c 0 .rejected .badCommand k.pos (seqWord 1 1 0)
    | e :: es => seqGoto s c { k with loops := es } (e.last + 1))

/-- JMP (R71). -/
def execJmp (c : Nat) (target : Fin 2048) (s : State) : Host.Outcome State Fault Refusal :=
  seqTake c [] s (fun k => seqGoto s c k target)

/-- BRZ (R71, R72). -/
def execBrz (c : Nat) (a : Reg) (target : Fin 2048) (s : State) : Host.Outcome State Fault Refusal :=
  seqTake c [a] s (fun k => seqGoto s c k (if k.reg a = 0 then target.val else k.pos + 1))

/-- BRNZ (R71, R72). -/
def execBrnz (c : Nat) (a : Reg) (target : Fin 2048) (s : State) : Host.Outcome State Fault Refusal :=
  seqTake c [a] s (fun k => seqGoto s c k (if k.reg a = 0 then k.pos + 1 else target.val))

/-- BRLT, signed (R71, R72). -/
def execBrlt (c : Nat) (a b : Reg) (target : Fin 2048) (s : State) : Host.Outcome State Fault Refusal :=
  seqTake c [a, b] s (fun k => seqGoto s c k (if (k.reg a).slt (k.reg b) then target.val else k.pos + 1))

/-- HALT (R74): the sequencer stops issuing and waits for every issued command. -/
def execHalt (c : Nat) (s : State) : Host.Outcome State Fault Refusal :=
  seqTake c [] s (fun k => s.setCore c { k with wait := .halt })

/-- TRAP (R71): the core is faulted with PATTERN_TRAP, and CODE is reported in the record's detail (R485). -/
def execTrap (c : Nat) (code : BitVec 16) (s : State) : Host.Outcome State Fault Refusal :=
  seqTake c [] s (fun k =>
    let w := seqWord 1 7 (at_ code.toNat 32)
    coreFault (s.setCore c k) c 0 .faulted .patternTrap k.pos w (coreDetail w k.pos 0xFF 0xFF 0 code.toNat))

/-- NOP (R71). -/
def execNop (c : Nat) (s : State) : Host.Outcome State Fault Refusal :=
  seqTake c [] s (fun k => seqGoto s c k (k.pos + 1))

/-- SEMWAIT (R75): the sequencer waits until the wait is granted; it is tried at once, in its turn (R61). -/
def execSemwait (c : Nat) (sem : Fin 64) (n : BitVec 16) (s : State) : Host.Outcome State Fault Refusal :=
  seqTake c [] s (fun k => semRound s c { k with wait := .sem sem n })

/-- SEMSIG (R60, R75): past 65,535 the semaphore keeps its value and the core is faulted, naming engine 0. -/
def execSemsig (c : Nat) (sem : Fin 64) (n : BitVec 16) (s : State) : Host.Outcome State Fault Refusal :=
  seqTake c [] s (fun k =>
    if k.sem sem + n.toNat ≤ 65535 then seqGoto s c (k.setSem sem (k.sem sem + n.toNat)) (k.pos + 1)
    else cmdFault (s.setCore c k) c 0 .faulted .semOverflow k.pos (semWord 1 sem n))

/-- SEMSET (R75). -/
def execSemset (c : Nat) (sem : Fin 64) (n : BitVec 16) (s : State) : Host.Outcome State Fault Refusal :=
  seqTake c [] s (fun k => seqGoto s c (k.setSem sem n.toNat) (k.pos + 1))

/-- FENCE (R75): the sequencer waits until the selected engines have completed everything issued to them. -/
def execFence (c : Nat) (mask : BitVec 5) (s : State) : Host.Outcome State Fault Refusal :=
  seqTake c [] s (fun k =>
    if k.drained mask then seqGoto s c k (k.pos + 1) else s.setCore c { k with wait := .fence mask })

/-- BARRIER (R82): with FEN first a fence of all five engines, then the arrival. -/
def execBarrier (c : Nat) (bid : Fin 4) (fen : Bool) (s : State) : Host.Outcome State Fault Refusal :=
  seqTake c [] s (fun k =>
    if fen && !k.drained 31 then s.setCore c { k with wait := .barrierFence bid } else sendArrival s c k bid)

end Sys2Proof.Machine
end

