-- ==== Sys2Proof/Machine/Dispatch.lean ====
section
/-! DEFINITION. The dispatch: one arm per command, each one call of its meaning. -/

namespace Sys2Proof.Machine

/-- What command `i` does to everything but the queue. -/
def exec (i : Instr) (s : State) : Host.Outcome State Fault Refusal :=
  match i with
  | .set core d imm => Sys2Proof.Machine.execSet core d imm s
  | .addi core d a imm => Sys2Proof.Machine.execAddi core d a imm s
  | .add core d a b => Sys2Proof.Machine.execAdd core d a b s
  | .sub core d a b => Sys2Proof.Machine.execSub core d a b s
  | .shl core d a sh => Sys2Proof.Machine.execShl core d a sh s
  | .shr core d a sh => Sys2Proof.Machine.execShr core d a sh s
  | .ld core d a imm => Sys2Proof.Machine.execLd core d a imm s
  | .st core d a imm => Sys2Proof.Machine.execSt core d a imm s
  | .getid core d sel => Sys2Proof.Machine.execGetid core d sel s
  | .loop core count creg csrc ireg ien last => Sys2Proof.Machine.execLoop core count creg csrc ireg ien last s
  | .lexit core => Sys2Proof.Machine.execLexit core s
  | .jmp core target => Sys2Proof.Machine.execJmp core target s
  | .brz core a target => Sys2Proof.Machine.execBrz core a target s
  | .brnz core a target => Sys2Proof.Machine.execBrnz core a target s
  | .brlt core a b target => Sys2Proof.Machine.execBrlt core a b target s
  | .halt core => Sys2Proof.Machine.execHalt core s
  | .trap core code => Sys2Proof.Machine.execTrap core code s
  | .nop core => Sys2Proof.Machine.execNop core s
  | .semwait core sem n => Sys2Proof.Machine.execSemwait core sem n s
  | .semsig core sem n => Sys2Proof.Machine.execSemsig core sem n s
  | .semset core sem n => Sys2Proof.Machine.execSemset core sem n s
  | .fence core mask => Sys2Proof.Machine.execFence core mask s
  | .barrier core bid fen => Sys2Proof.Machine.execBarrier core bid fen s
  | .tmul core k opset shape acc bank eop red mod => Sys2Proof.Machine.execTmul core k opset shape acc bank eop red mod s
  | .fchain core k chain run bank => Sys2Proof.Machine.execFchain core k chain run bank s
  | .accrd core k dst bank => Sys2Proof.Machine.execAccrd core k dst bank s
  | .rfunc core k f => Sys2Proof.Machine.execRfunc core k f s
  | .rred core k f => Sys2Proof.Machine.execRred core k f s
  | .ralu core k f => Sys2Proof.Machine.execRalu core k f s
  | .rrescale core k f => Sys2Proof.Machine.execRrescale core k f s
  | .rtload core k f => Sys2Proof.Machine.execRtload core k f s
  | .rquant core k f => Sys2Proof.Machine.execRquant core k f s
  | .copy core k desc list => Sys2Proof.Machine.execCopy core k desc list s
  | .streamGather core k desc list => Sys2Proof.Machine.execStreamGather core k desc list s
  | .scatter core k desc list => Sys2Proof.Machine.execScatter core k desc list s
  | .tcopy core k desc list => Sys2Proof.Machine.execTcopy core k desc list s
  | .vaultGather core k f => Sys2Proof.Machine.execVaultGather core k f s
  | .scadd core k f => Sys2Proof.Machine.execScadd core k f s
  | .merge core k f => Sys2Proof.Machine.execMerge core k f s
  | .topk core k f => Sys2Proof.Machine.execTopk core k f s
  | .vaultRred core k f => Sys2Proof.Machine.execVaultRred core k f s
  | .fill core k f => Sys2Proof.Machine.execFill core k f s
  | .decomp core k f => Sys2Proof.Machine.execDecomp core k f s
  | .ctradd core k desc dreg => Sys2Proof.Machine.execCtradd core k desc dreg s
  | .ctrsetInit core k f => Sys2Proof.Machine.execCtrsetInit core k f s
  | .ctrsetDone core k f => Sys2Proof.Machine.execCtrsetDone core k f s
  | .ctrsetRelease core k f => Sys2Proof.Machine.execCtrsetRelease core k f s
  | .lock core k desc dreg => Sys2Proof.Machine.execLock core k desc dreg s
  | .lockRetry core => Sys2Proof.Machine.execLockRetry core s
  | .unlock core k f => Sys2Proof.Machine.execUnlock core k f s
  | .send core k dest dq src len tag => Sys2Proof.Machine.execSend core k dest dq src len tag s
  | .recv core k q blk dsts maxlen lreg lenEn => Sys2Proof.Machine.execRecv core k q blk dsts maxlen lreg lenEn s
  | .credit core k q n => Sys2Proof.Machine.execCredit core k q n s
  | .registerResult core reg => Sys2Proof.Machine.execRegisterResult core reg s
  | .semWaitGrant core => Sys2Proof.Machine.execSemWaitGrant core s
  | .fenceEnd core => Sys2Proof.Machine.execFenceEnd core s
  | .engineCommandStart core eng => Sys2Proof.Machine.execEngineCommandStart core eng s
  | .engineCommandComplete core eng idx => Sys2Proof.Machine.execEngineCommandComplete core eng idx s
  | .haltDrainEnd core => Sys2Proof.Machine.execHaltDrainEnd core s
  | .barrierArrival src bid phase => Sys2Proof.Machine.execBarrierArrival src bid phase s
  | .barrierRelease core bid phase => Sys2Proof.Machine.execBarrierRelease core bid phase s
  | .dispatch core rec => Sys2Proof.Machine.execDispatch core rec s
  | .waitTimeout core eng => Sys2Proof.Machine.execWaitTimeout core eng s
  | .stepTimeout core => Sys2Proof.Machine.execStepTimeout core s
  | .slotStall core eng => Sys2Proof.Machine.execSlotStall core eng s
  | .resourceHang res holder => Sys2Proof.Machine.execResourceHang res holder s
  | .preemption res held waited progress => Sys2Proof.Machine.execPreemption res held waited progress s
  | .vaultReadRequest vault offset issuer first retry => Sys2Proof.Machine.execVaultReadRequest vault offset issuer first retry s
  | .vaultWriteRequest vault offset data mask issuer first retry => Sys2Proof.Machine.execVaultWriteRequest vault offset data mask issuer first retry s
  | .patrolRead vault offset first retry => Sys2Proof.Machine.execPatrolRead vault offset first retry s
  | .refreshOperation vault bank => Sys2Proof.Machine.execRefreshOperation vault bank s
  | .darnRebuild vault offset readable => Sys2Proof.Machine.execDarnRebuild vault offset readable s
  | .miscorrectionResolve report => Sys2Proof.Machine.execMiscorrectionResolve report s
  | .migrationStart pat seg page toVault waits => Sys2Proof.Machine.execMigrationStart pat seg page toVault waits s
  | .migrationCopyEnd pat seg page => Sys2Proof.Machine.execMigrationCopyEnd pat seg page s
  | .migrationEnd pat seg page => Sys2Proof.Machine.execMigrationEnd pat seg page s
  | .siteTestEnd site pass => Sys2Proof.Machine.execSiteTestEnd site pass s
  | .computePllLoss die => Sys2Proof.Machine.execComputePllLoss die s
  | .refclkLoss cause => Sys2Proof.Machine.execRefclkLoss cause s
  | .regionStop core => Sys2Proof.Machine.execRegionStop core s
  | .stepCancel pat stepSeq => Sys2Proof.Machine.execStepCancel pat stepSeq s
  | .cancel core => Sys2Proof.Machine.execCancel core s
  | .drained core => Sys2Proof.Machine.execDrained core s
  | .clear core => Sys2Proof.Machine.execClear core s
  | .cancelTimeout core => Sys2Proof.Machine.execCancelTimeout core s
  | .regionReset pat region => Sys2Proof.Machine.execRegionReset pat region s
  | .coreReset core => Sys2Proof.Machine.execCoreReset core s
  | .lockRelease core addr epoch => Sys2Proof.Machine.execLockRelease core addr epoch s
  | .orphanNotice vault core => Sys2Proof.Machine.execOrphanNotice vault core s
  | .orphanNoticeAck vault core => Sys2Proof.Machine.execOrphanNoticeAck vault core s
  | .stepReplay pat stepSeq => Sys2Proof.Machine.execStepReplay pat stepSeq s
  | .stepForm pat => Sys2Proof.Machine.execStepForm pat s
  | .haltReport core => Sys2Proof.Machine.execHaltReport core s
  | .outputGate pat stepSeq => Sys2Proof.Machine.execOutputGate pat stepSeq s
  | .reqItem helm pd ptrOk => Sys2Proof.Machine.execReqItem helm pd ptrOk s
  | .admissionCycle => Sys2Proof.Machine.execAdmissionCycle s
  | .streamRelease slot => Sys2Proof.Machine.execStreamRelease slot s
  | .zeroingComplete sid => Sys2Proof.Machine.execZeroingComplete sid s
  | .itemArrival core item ptrOk => Sys2Proof.Machine.execItemArrival core item ptrOk s
  | .connect core q producer epoch => Sys2Proof.Machine.execConnect core q producer epoch s
  | .connectReply producer dest q grant epoch => Sys2Proof.Machine.execConnectReply producer dest q grant epoch s
  | .connectRetry core => Sys2Proof.Machine.execConnectRetry core s
  | .disconnect core q producer epoch words => Sys2Proof.Machine.execDisconnect core q producer epoch words s
  | .creditReturn producer core q epoch words => Sys2Proof.Machine.execCreditReturn producer core q epoch words s
  | .stale producer core q => Sys2Proof.Machine.execStale producer core q s
  | .eventRecordArrival block => Sys2Proof.Machine.execEventRecordArrival block s
  | .foldWindowEnd block code => Sys2Proof.Machine.execFoldWindowEnd block code s
  | .heartbeat => Sys2Proof.Machine.execHeartbeat s
  | .lodestarTakeover selfReport => Sys2Proof.Machine.execLodestarTakeover selfReport s
  | .lodestarStandbyLost => Sys2Proof.Machine.execLodestarStandbyLost s
  | .lodestarSilence pd => Sys2Proof.Machine.execLodestarSilence pd s
  | .challengeExpiry => Sys2Proof.Machine.execChallengeExpiry s
  | .keyInstall c p => Sys2Proof.Machine.execKeyInstall c p s
  | .keyRemove c keyid => Sys2Proof.Machine.execKeyRemove c keyid s
  | .regWrite c pairs => Sys2Proof.Machine.execRegWrite c pairs s
  | .regRead c offsets => Sys2Proof.Machine.execRegRead c offsets s
  | .collForm c g => Sys2Proof.Machine.execCollForm c g s
  | .collDissolve c gid => Sys2Proof.Machine.execCollDissolve c gid s
  | .patternUnload c hash => Sys2Proof.Machine.execPatternUnload c hash s
  | .unloadComplete pat => Sys2Proof.Machine.execUnloadComplete pat s
  | .warmRestart c chartHash => Sys2Proof.Machine.execWarmRestart c chartHash s
  | .lodestarSwitch c => Sys2Proof.Machine.execLodestarSwitch c s
  | .attestationRequest => Sys2Proof.Machine.execAttestationRequest s
  | .attestationDone => Sys2Proof.Machine.execAttestationDone s
  | .irqStatusClear value => Sys2Proof.Machine.execIrqStatusClear value s
  | .c64LoRead view offset => Sys2Proof.Machine.execC64LoRead view offset s
  | .bar0PrivAccess offset write => Sys2Proof.Machine.execBar0PrivAccess offset write s
  | .stagedWrite view offset value => Sys2Proof.Machine.execStagedWrite view offset value s
  | .registerWrite view offset value fullBytes => Sys2Proof.Machine.execRegisterWrite view offset value fullBytes s
  | .blkSnap block => Sys2Proof.Machine.execBlkSnap block s
  | .blockSnapArrival block => Sys2Proof.Machine.execBlockSnapArrival block s
  | .strobeTelemetry view => Sys2Proof.Machine.execStrobeTelemetry view s
  | .strobeSlotTable view => Sys2Proof.Machine.execStrobeSlotTable view s
  | .strobeIngThresh view => Sys2Proof.Machine.execStrobeIngThresh view s
  | .strobePortAddr view port => Sys2Proof.Machine.execStrobePortAddr view port s
  | .stagedApply block group => Sys2Proof.Machine.execStagedApply block group s
  | .telEnableSet value => Sys2Proof.Machine.execTelEnableSet value s
  | .telEnableClear value => Sys2Proof.Machine.execTelEnableClear value s
  | .telTailWrite value => Sys2Proof.Machine.execTelTailWrite value s
  | .parkSet value => Sys2Proof.Machine.execParkSet value s
  | .parkClear value => Sys2Proof.Machine.execParkClear value s
  | .lpmaxWrite value => Sys2Proof.Machine.execLpmaxWrite value s
  | .flashErase dev => Sys2Proof.Machine.execFlashErase dev s
  | .flashProgram dev => Sys2Proof.Machine.execFlashProgram dev s
  | .flashOpEnd => Sys2Proof.Machine.execFlashOpEnd s
  | .flashOpTimeout => Sys2Proof.Machine.execFlashOpTimeout s
  | .ethPortReset port => Sys2Proof.Machine.execEthPortReset port s
  | .nzLinkReset link => Sys2Proof.Machine.execNzLinkReset link s
  | .ethSignalLoss port => Sys2Proof.Machine.execEthSignalLoss port s
  | .ethFrameRx port f => Sys2Proof.Machine.execEthFrameRx port f s
  | .arpRequest port target senderMac senderIp => Sys2Proof.Machine.execArpRequest port target senderMac senderIp s
  | .icmpEcho port v6 dst src payload => Sys2Proof.Machine.execIcmpEcho port v6 dst src payload s
  | .neighborSolicitation port target src => Sys2Proof.Machine.execNeighborSolicitation port target src s
  | .pauseFrame port pfc prios => Sys2Proof.Machine.execPauseFrame port pfc prios s
  | .rqSegment seg => Sys2Proof.Machine.execRqSegment seg s
  | .requestOpen pd rec result => Sys2Proof.Machine.execRequestOpen pd rec result s
  | .rsack pd rec ack sack => Sys2Proof.Machine.execRsack pd rec ack sack s
  | .rqpCancel pd rec => Sys2Proof.Machine.execRqpCancel pd rec s
  | .rqackTimer pd rec => Sys2Proof.Machine.execRqackTimer pd rec s
  | .rsRetransmit pd rec seq => Sys2Proof.Machine.execRsRetransmit pd rec seq s
  | .requestTimeout pd rec => Sys2Proof.Machine.execRequestTimeout pd rec s
  | .connRecordExpiry pd rec => Sys2Proof.Machine.execConnRecordExpiry pd rec s
  | .forwardedRequest link srcNodeSlot key pre body => Sys2Proof.Machine.execForwardedRequest link srcNodeSlot key pre body s
  | .forwardedResponse link key body => Sys2Proof.Machine.execForwardedResponse link key body s
  | .loadPart0 m h => Sys2Proof.Machine.execLoadPart0 m h s
  | .loadPart h body => Sys2Proof.Machine.execLoadPart h body s
  | .loadAbandoned => Sys2Proof.Machine.execLoadAbandoned s
  | .nzDataFrame link h => Sys2Proof.Machine.execNzDataFrame link h s
  | .nzAckFrame link h => Sys2Proof.Machine.execNzAckFrame link h s
  | .nzNakFrame link h => Sys2Proof.Machine.execNzNakFrame link h s
  | .nzCreditFrame link h => Sys2Proof.Machine.execNzCreditFrame link h s
  | .handshake link h => Sys2Proof.Machine.execHandshake link h s
  | .laneTrainingEnd link => Sys2Proof.Machine.execLaneTrainingEnd link s
  | .linkBringupTimeout link => Sys2Proof.Machine.execLinkBringupTimeout link s
  | .linkRetry link => Sys2Proof.Machine.execLinkRetry link s
  | .linkSilence1ms link => Sys2Proof.Machine.execLinkSilence1ms link s
  | .linkSilence10ms link => Sys2Proof.Machine.execLinkSilence10ms link s
  | .retrainEnd link => Sys2Proof.Machine.execRetrainEnd link s
  | .linkDown link => Sys2Proof.Machine.execLinkDown link s
  | .join gid rank hash arithRev => Sys2Proof.Machine.execJoin gid rank hash arithRev s
  | .joinWindowEnd gid => Sys2Proof.Machine.execJoinWindowEnd gid s
  | .formed gid ranks => Sys2Proof.Machine.execFormed gid ranks s
  | .groupNoleader gid => Sys2Proof.Machine.execGroupNoleader gid s
  | .layerDoorbellComplete gid layer => Sys2Proof.Machine.execLayerDoorbellComplete gid layer s
  | .contribChunk c => Sys2Proof.Machine.execContribChunk c s
  | .partialChunk c node => Sys2Proof.Machine.execPartialChunk c node s
  | .collDeadline gid layer => Sys2Proof.Machine.execCollDeadline gid layer s
  | .shardDone gid rank incomplete => Sys2Proof.Machine.execShardDone gid rank incomplete s
  | .leaderStepTimeout gid => Sys2Proof.Machine.execLeaderStepTimeout gid s
  | .collCommit gid => Sys2Proof.Machine.execCollCommit gid s
  | .collAbort gid => Sys2Proof.Machine.execCollAbort gid s
  | .groupLost gid => Sys2Proof.Machine.execGroupLost gid s
  | .updateChunk c => Sys2Proof.Machine.execUpdateChunk c s
  | .updateAck gid blk rank => Sys2Proof.Machine.execUpdateAck gid blk rank s
  | .mcDropped gid rank => Sys2Proof.Machine.execMcDropped gid rank s
  | .dropped gid owner => Sys2Proof.Machine.execDropped gid owner s
  | .pull gid blk rank => Sys2Proof.Machine.execPull gid blk rank s
  | .pullAnswer c => Sys2Proof.Machine.execPullAnswer c s
  | .blockL1Entry block => Sys2Proof.Machine.execBlockL1Entry block s
  | .l2Entry => Sys2Proof.Machine.execL2Entry s
  | .l3Entry => Sys2Proof.Machine.execL3Entry s
  | .wakeTrigger cause => Sys2Proof.Machine.execWakeTrigger cause s
  | .wakeEnd => Sys2Proof.Machine.execWakeEnd s
  | .powerUp => Sys2Proof.Machine.execPowerUp s
  | .coldReset => Sys2Proof.Machine.execColdReset s
  | .powerDown => Sys2Proof.Machine.execPowerDown s
  | .inputFaultShutdown high => Sys2Proof.Machine.execInputFaultShutdown high s
  | .rstInN cycles => Sys2Proof.Machine.execRstInN cycles s
  | .perstN => Sys2Proof.Machine.execPerstN s
  | .flr => Sys2Proof.Machine.execFlr s
  | .d3hotEntry => Sys2Proof.Machine.execD3hotEntry s
  | .vinSample tenths => Sys2Proof.Machine.execVinSample tenths s
  | .fastCurrentLimit => Sys2Proof.Machine.execFastCurrentLimit s
  | .dutyPowerUpdate meanWatts => Sys2Proof.Machine.execDutyPowerUpdate meanWatts s
  | .dutyThermalUpdate die elapsedMs => Sys2Proof.Machine.execDutyThermalUpdate die elapsedMs s
  | .sensorSample sensor value => Sys2Proof.Machine.execSensorSample sensor value s
  | .romStageEnd laOk lbOk refOk pllOk => Sys2Proof.Machine.execRomStageEnd laOk lbOk refOk pllOk s
  | .chartImageCheck image tests keys => Sys2Proof.Machine.execChartImageCheck image tests keys s
  | .flashReadTimeout image => Sys2Proof.Machine.execFlashReadTimeout image s
  | .pcieLinkUp rate width flit => Sys2Proof.Machine.execPcieLinkUp rate width flit s
  | .selfTestEnd t => Sys2Proof.Machine.execSelfTestEnd t s
  | .stackTestEnd badVaults badStacks => Sys2Proof.Machine.execStackTestEnd badVaults badStacks s
  | .linkStageEnd => Sys2Proof.Machine.execLinkStageEnd s
  | .startTimeout => Sys2Proof.Machine.execStartTimeout s
  | .smbGlbIdent => Sys2Proof.Machine.execSmbGlbIdent s
  | .smbGlbStart => Sys2Proof.Machine.execSmbGlbStart s
  | .smbGlbHealth => Sys2Proof.Machine.execSmbGlbHealth s
  | .smbGlbPwrState => Sys2Proof.Machine.execSmbGlbPwrState s
  | .smbGlbPin => Sys2Proof.Machine.execSmbGlbPin s
  | .smbGlbTherm => Sys2Proof.Machine.execSmbGlbTherm s
  | .smbGlbEvnext => Sys2Proof.Machine.execSmbGlbEvnext s
  | .smbusClockTimeout => Sys2Proof.Machine.execSmbusClockTimeout s
  | .clearFaults => Sys2Proof.Machine.execClearFaults s
  | .capability => Sys2Proof.Machine.execCapability s
  | .statusByte => Sys2Proof.Machine.execStatusByte s
  | .statusWord => Sys2Proof.Machine.execStatusWord s
  | .statusInput => Sys2Proof.Machine.execStatusInput s
  | .statusTemperature => Sys2Proof.Machine.execStatusTemperature s
  | .statusCml => Sys2Proof.Machine.execStatusCml s
  | .statusMfrSpecific => Sys2Proof.Machine.execStatusMfrSpecific s
  | .readVin => Sys2Proof.Machine.execReadVin s
  | .readIin => Sys2Proof.Machine.execReadIin s
  | .readPin => Sys2Proof.Machine.execReadPin s
  | .readTemperature1 => Sys2Proof.Machine.execReadTemperature1 s
  | .readTemperature2 => Sys2Proof.Machine.execReadTemperature2 s
  | .readTemperature3 => Sys2Proof.Machine.execReadTemperature3 s
  | .pmbusRevision => Sys2Proof.Machine.execPmbusRevision s
  | .mfrId => Sys2Proof.Machine.execMfrId s
  | .mfrModel => Sys2Proof.Machine.execMfrModel s
  | .mfrReadDuty => Sys2Proof.Machine.execMfrReadDuty s
  | .mfrSensorFail => Sys2Proof.Machine.execMfrSensorFail s
  | .pmbusInvalidCommand => Sys2Proof.Machine.execPmbusInvalidCommand s
  | .alertResponse => Sys2Proof.Machine.execAlertResponse s
  | .bypass => Sys2Proof.Machine.execBypass s
  | .idcode => Sys2Proof.Machine.execIdcode s
  | .samplePreload cells => Sys2Proof.Machine.execSamplePreload cells s
  | .extest => Sys2Proof.Machine.execExtest s
  | .testLogicReset => Sys2Proof.Machine.execTestLogicReset s
  | .txcntWrapHandshake link => Sys2Proof.Machine.execTxcntWrapHandshake link s
  | .ethTrainingEnd port => Sys2Proof.Machine.execEthTrainingEnd port s
  | .rstInNRelease => Sys2Proof.Machine.execRstInNRelease s
  | .perstNRelease => Sys2Proof.Machine.execPerstNRelease s
  | .d3hotExit => Sys2Proof.Machine.execD3hotExit s
  | .pauseTimeExpiry port prios => Sys2Proof.Machine.execPauseTimeExpiry port prios s
  | .arpReply port ip mac => Sys2Proof.Machine.execArpReply port ip mac s
  | .neighborAdvertisement port ip mac => Sys2Proof.Machine.execNeighborAdvertisement port ip mac s

end Sys2Proof.Machine
end

