-- ==== Sys2Proof/Machine/Words.lean ====
section
/-! DEFINITION. Which command of the table a stored command word stands for (R66, R69, R71, R75 to R80), and back. -/

namespace Sys2Proof.Machine

/-- The word of a command of a core's program; none for a command that has no word. The three uses of CTRSET have one word: the
descriptor's SUB tells them apart (R214). -/
def commandWord : Instr → Option CmdWord
  | .set _ d imm => some (scalarWord 0 d 0 0 (at_ imm.toNat 64))
  | .addi _ d a imm => some (scalarWord 1 d a 0 (at_ imm.toNat 64))
  | .add _ d a b => some (scalarWord 2 d a b 0)
  | .sub _ d a b => some (scalarWord 3 d a b 0)
  | .shl _ d a sh => some (scalarWord 4 d a 0 (at_ sh 64))
  | .shr _ d a sh => some (scalarWord 5 d a 0 (at_ sh 64))
  | .ld _ d a imm => some (scalarWord 6 d a 0 (at_ imm.toNat 64))
  | .st _ d a imm => some (scalarWord 7 d a 0 (at_ imm.toNat 64))
  | .getid _ d sel => some (scalarWord 8 d 0 0 (at_ sel 64))
  | .loop _ count creg csrc ireg ien last => some (loopWord count creg csrc ireg ien last)
  | .lexit _ => some (seqWord 1 1 0)
  | .jmp _ target => some (branchWord 2 0 0 target)
  | .brz _ a target => some (branchWord 3 a 0 target)
  | .brnz _ a target => some (branchWord 4 a 0 target)
  | .brlt _ a b target => some (branchWord 5 a b target)
  | .halt _ => some (seqWord 1 6 0)
  | .trap _ code => some (seqWord 1 7 (at_ code.toNat 32))
  | .nop _ => some (seqWord 1 8 0)
  | .semwait _ sem n => some (semWord 0 sem n)
  | .semsig _ sem n => some (semWord 1 sem n)
  | .semset _ sem n => some (semWord 2 sem n)
  | .fence _ mask => some (seqWord 2 3 (at_ mask.toNat 32))
  | .barrier _ bid fen => some (seqWord 2 4 (at_ bid 32 + at_ (b2n fen) 34))
  | .tmul _ k opset shape acc bank eop red mod => some (tmulWord k opset shape acc bank eop red mod)
  | .fchain _ k chain run bank => some (fchainWord k chain run bank)
  | .accrd _ k dst bank => some (accrdWord k dst bank)
  | .rfunc _ k f => some (rowWord 0 k f)
  | .rred _ k f => some (rowWord 1 k f)
  | .ralu _ k f => some (rowWord 2 k f)
  | .rrescale _ k f => some (rowWord 3 k f)
  | .rtload _ k f => some (rowWord 4 k f)
  | .rquant _ k f => some (rowWord 5 k f)
  | .copy _ k desc list => some (streamWord 0 k desc list)
  | .streamGather _ k desc list => some (streamWord 1 k desc list)
  | .scatter _ k desc list => some (streamWord 2 k desc list)
  | .tcopy _ k desc list => some (streamWord 3 k desc list)
  | .vaultGather _ k f => some (vaultWord 0 k f.desc f.dreg false)
  | .scadd _ k f => some (vaultWord 1 k f.desc f.dreg false)
  | .merge _ k f => some (vaultWord 2 k f.desc f.dreg false)
  | .topk _ k f => some (vaultWord 3 k f.desc f.dreg false)
  | .vaultRred _ k f => some (vaultWord 4 k f.desc f.dreg false)
  | .fill _ k f => some (vaultWord 5 k f.desc f.dreg false)
  | .decomp _ k f => some (vaultWord 6 k f.desc f.dreg false)
  | .ctradd _ k desc dreg => some (vaultWord 7 k desc dreg true)
  | .ctrsetInit _ k f => some (vaultWord 8 k f.desc f.dreg false)
  | .ctrsetDone _ k f => some (vaultWord 8 k f.desc f.dreg false)
  | .ctrsetRelease _ k f => some (vaultWord 8 k f.desc f.dreg false)
  | .lock _ k desc dreg => some (vaultWord 9 k desc dreg true)
  | .unlock _ k f => some (vaultWord 10 k f.desc f.dreg false)
  | .send _ k dest dq src len tag => some (sendWord k dest dq src len tag)
  | .recv _ k q blk dsts maxlen lreg lenEn => some (recvWord k q blk dsts maxlen lreg lenEn)
  | .credit _ k q n => some (creditWord k q n)
  | _ => none

/-- The `n`-bit field of a word at bit `lo`. -/
def fieldOf (w : CmdWord) (lo n : Nat) : BitVec n := BitVec.ofNat n (bitsOf w.toNat lo n)

/-- A field as a number below `n`. -/
def finOf (n : Nat) (h : 0 < n) (w : CmdWord) (lo bits : Nat) : Fin n := ⟨bitsOf w.toNat lo bits % n, Nat.mod_lt _ h⟩

/-- A register field. -/
def regOf (w : CmdWord) (lo : Nat) : Reg := finOf 16 (by decide) w lo 4

/-- A one-bit field. -/
def flagOf (w : CmdWord) (i : Nat) : Bool := bitOf w.toNat i

/-- The common fields of an engine command (R66). -/
def commonOf (w : CmdWord) : Common :=
  { wen := flagOf w 8, wsem := finOf 64 (by decide) w 9 6, sen := flagOf w 15, ssem := finOf 64 (by decide) w 16 6,
    xen := flagOf w 22, xreg := regOf w 23, xsh := finOf 32 (by decide) w 27 5 }

/-- The fields of a row command (R77). -/
def rowOf (w : CmdWord) : RowFields :=
  { src := fieldOf w 32 16, dst := fieldOf w 48 16, param := fieldOf w 64 16, sub := fieldOf w 80 8,
    bank := finOf 2 (by decide) w 88 1 }

/-- The scalar and flow classes. -/
def scalarOf (c op : Nat) (w : CmdWord) : Option Instr :=
  let d := regOf w 32
  let a := regOf w 36
  let b := regOf w 40
  match op with
  | 0 => some (.set c d (fieldOf w 64 64))
  | 1 => some (.addi c d a (fieldOf w 64 32))
  | 2 => some (.add c d a b)
  | 3 => some (.sub c d a b)
  | 4 => some (.shl c d a (finOf 64 (by decide) w 64 6))
  | 5 => some (.shr c d a (finOf 64 (by decide) w 64 6))
  | 6 => some (.ld c d a (fieldOf w 64 32))
  | 7 => some (.st c d a (fieldOf w 64 32))
  | 8 => some (.getid c d (finOf 16 (by decide) w 64 4))
  | _ => none

def flowOf (c op : Nat) (w : CmdWord) : Option Instr :=
  let a := regOf w 32
  let b := regOf w 36
  let t : Fin 2048 := finOf 2048 (by decide) w 64 11
  match op with
  | 0 => some (.loop c (fieldOf w 32 16) (regOf w 48) (flagOf w 52) (regOf w 53) (flagOf w 57) t)
  | 1 => some (.lexit c)
  | 2 => some (.jmp c t)
  | 3 => some (.brz c a t)
  | 4 => some (.brnz c a t)
  | 5 => some (.brlt c a b t)
  | 6 => some (.halt c)
  | 7 => some (.trap c (fieldOf w 32 16))
  | 8 => some (.nop c)
  | _ => none

/-- The synchronisation and matrix classes. -/
def syncOf (c op : Nat) (w : CmdWord) : Option Instr :=
  let sem : Fin 64 := finOf 64 (by decide) w 32 6
  match op with
  | 0 => some (.semwait c sem (fieldOf w 48 16))
  | 1 => some (.semsig c sem (fieldOf w 48 16))
  | 2 => some (.semset c sem (fieldOf w 48 16))
  | 3 => some (.fence c (fieldOf w 32 5))
  | 4 => some (.barrier c (finOf 4 (by decide) w 32 2) (flagOf w 34))
  | _ => none

def matrixOf (c op : Nat) (w : CmdWord) : Option Instr :=
  let k := commonOf w
  let f := fieldOf w 32 16
  match op with
  | 0 => some (.tmul c k f (finOf 8 (by decide) w 48 3) (finOf 8 (by decide) w 51 3) (finOf 2 (by decide) w 54 1)
      (finOf 4 (by decide) w 55 2) (finOf 4 (by decide) w 57 2) (flagOf w 59))
  | 1 => some (.fchain c k f (flagOf w 48) (finOf 2 (by decide) w 49 1))
  | 2 => some (.accrd c k f (finOf 2 (by decide) w 48 1))
  | _ => none

/-- The row and stream classes. -/
def rowCmdOf (c op : Nat) (w : CmdWord) : Option Instr :=
  let k := commonOf w
  let f := rowOf w
  match op with
  | 0 => some (.rfunc c k f)
  | 1 => some (.rred c k f)
  | 2 => some (.ralu c k f)
  | 3 => some (.rrescale c k f)
  | 4 => some (.rtload c k f)
  | 5 => some (.rquant c k f)
  | _ => none

def streamCmdOf (c op : Nat) (w : CmdWord) : Option Instr :=
  let k := commonOf w
  let f := fieldOf w 32 16
  let l := fieldOf w 48 16
  match op with
  | 0 => some (.copy c k f l)
  | 1 => some (.streamGather c k f l)
  | 2 => some (.scatter c k f l)
  | 3 => some (.tcopy c k f l)
  | _ => none

/-- The vault class; `sub` is the SUB of the descriptor that DESC names. -/
def vaultCmdOf (c sub op : Nat) (w : CmdWord) : Option Instr :=
  let k := commonOf w
  let f := fieldOf w 32 16
  let d := regOf w 48
  match op with
  | 0 => some (.vaultGather c k ⟨f, d⟩)
  | 1 => some (.scadd c k ⟨f, d⟩)
  | 2 => some (.merge c k ⟨f, d⟩)
  | 3 => some (.topk c k ⟨f, d⟩)
  | 4 => some (.vaultRred c k ⟨f, d⟩)
  | 5 => some (.fill c k ⟨f, d⟩)
  | 6 => some (.decomp c k ⟨f, d⟩)
  | 7 => some (.ctradd c k f d)
  | 8 => if sub = 0 then some (.ctrsetInit c k ⟨f, d⟩) else if sub = 1 then some (.ctrsetDone c k ⟨f, d⟩)
         else if sub = 2 then some (.ctrsetRelease c k ⟨f, d⟩) else none
  | 9 => some (.lock c k f d)
  | 10 => some (.unlock c k ⟨f, d⟩)
  | _ => none

/-- The message class. -/
def messageOf (c op : Nat) (w : CmdWord) : Option Instr :=
  let k := commonOf w
  match op with
  | 0 => some (.send c k (fieldOf w 32 13) (finOf 8 (by decide) w 45 3) (fieldOf w 48 16) (fieldOf w 64 13) (fieldOf w 80 16))
  | 1 => some (.recv c k (finOf 8 (by decide) w 32 3) (flagOf w 35) (fieldOf w 48 16) (fieldOf w 64 13) (regOf w 80) (flagOf w 84))
  | 2 => some (.credit c k (finOf 8 (by decide) w 32 3) (fieldOf w 48 16))
  | _ => none

/-- The command that a word of core `c`'s program stands for; none for a reserved class or operation. `sub` is the SUB of the
descriptor that a CTRSET names. -/
def commandOf (c sub : Nat) (w : CmdWord) : Option Instr :=
  let op := bitsOf w.toNat 4 4
  match bitsOf w.toNat 0 4 with
  | 0 => scalarOf c op w
  | 1 => flowOf c op w
  | 2 => syncOf c op w
  | 3 => matrixOf c op w
  | 4 => rowCmdOf c op w
  | 5 => streamCmdOf c op w
  | 6 => vaultCmdOf c sub op w
  | 7 => messageOf c op w
  | _ => none

/-- The core whose program a command is a word of, and the SUB that tells a CTRSET's use. -/
def coreAndSub : Instr → Nat × Nat
  | .set c _ _ | .addi c _ _ _ | .add c _ _ _ | .sub c _ _ _ | .shl c _ _ _ | .shr c _ _ _ | .ld c _ _ _ | .st c _ _ _
  | .getid c _ _ | .loop c _ _ _ _ _ _ | .lexit c | .jmp c _ | .brz c _ _ | .brnz c _ _ | .brlt c _ _ _ | .halt c | .trap c _
  | .nop c | .semwait c _ _ | .semsig c _ _ | .semset c _ _ | .fence c _ | .barrier c _ _ | .tmul c _ _ _ _ _ _ _ _
  | .fchain c _ _ _ _ | .accrd c _ _ _ | .rfunc c _ _ | .rred c _ _ | .ralu c _ _ | .rrescale c _ _ | .rtload c _ _
  | .rquant c _ _ | .copy c _ _ _ | .streamGather c _ _ _ | .scatter c _ _ _ | .tcopy c _ _ _ | .vaultGather c _ _
  | .scadd c _ _ | .merge c _ _ | .topk c _ _ | .vaultRred c _ _ | .fill c _ _ | .decomp c _ _ | .ctradd c _ _ _
  | .ctrsetInit c _ _ | .lock c _ _ _ | .unlock c _ _ | .send c _ _ _ _ _ _ | .recv c _ _ _ _ _ _ _ | .credit c _ _ _ => (c, 0)
  | .ctrsetDone c _ _ => (c, 1)
  | .ctrsetRelease c _ _ => (c, 2)
  | _ => (0, 0)

end Sys2Proof.Machine
end

