-- ==== Sys2Proof/Safety.lean ====
section
/-! DEFINITION. The words in which claims about the block are made: when a command is taken, what a stop of a core is, what stays
unchanged. -/

namespace Sys2Proof.Machine

/-! ### The sequencer -/

/-- The sequencer takes its word: it stands at a command boundary and none of `regs` is pending (R57, R81). -/
def Core.takes (k : Core) (regs : List Reg) : Bool := k.atBoundary && regs.all (fun r => !k.pending r)

/-- Under these loops and with a program of this length, continuing at `p` is plain: it is no end of the innermost body, and it lies in
the program (R56, R72). -/
def landsIn (loops : List LoopEnt) (len p : Nat) : Bool :=
  decide (p < len) && (match loops with | [] => true | e :: _ => decide (p ≠ e.last + 1))

/-- Continuing at `p` is plain for the core as it stands. -/
def Core.lands (k : Core) (p : Nat) : Bool := landsIn k.loops k.progLen p

/-- The core with its sequencer at position `p`, waiting for nothing. -/
def Core.goes (k : Core) (p : Nat) : Core := { k with pos := p, wait := .none }

/-! ### Issue of an engine command (R62, R63, R67, R81) -/

/-- The queue entry that an engine command becomes. -/
def entryOf (k : Core) (kc : Common) (word : CmdWord) (op : EngineOp) : QEntry :=
  { word := word, pos := k.pos, wait := if kc.wen then some kc.wsem else none, granted := false,
    signal := if kc.sen then some kc.ssem else none, stalled := none, op := op }

/-- The core after the sequencer has placed a command at the tail of engine `e + 1`'s queue: a result register is pending, the
sequencer continues, and nothing else has changed. -/
def Core.placed (k : Core) (e : Fin 5) (q : QEntry) (dest : Option Reg) : Core :=
  ({ (k.setQueue e { k.queue e with issue := (k.queue e).issue ++ [q] }) with
       pend := k.pend ++ dest.toList.map (fun r => (r, none)) }).goes (k.pos + 1)

/-- An engine command with these parts can be issued: its word passes the static checks, the registers it reads or names are not pending,
the queue has a place, its indexed field fits, and the sequencer continues plainly. -/
def Core.mayIssue (k : Core) (e : Fin 5) (kc : Common) (word : CmdWord) (fld : Nat) (dest : Option Reg) : Bool :=
  k.takes ((if kc.xen then [kc.xreg] else []) ++ dest.toList) && decide (staticCheck word = none)
    && decide ((k.queue e).issue.length < 16) && !(kc.xen && decide (Config.topUnit ≤ formed k kc fld)) && k.lands (k.pos + 1)

/-- A RUNNING core that is not being cancelled, whose only queued command is `h`, the head of engine `e + 1`'s queue, with no wait
left, nothing in progress at that engine and no ring buffers declared: the engine may start it (R63). -/
def Core.onlyHead (k : Core) (e : Fin 5) (h : QEntry) : Bool :=
  decide (k.st = .running) && !k.cancelling && [0, 1, 2, 3, 4].all (fun x : Fin 5 => decide (x = e) || (k.queue x).issue.isEmpty)
    && decide (k.queue e = { issue := [h], prog := [] }) && h.wait.isNone && k.rings.isEmpty

/-! ### Stops of a core (R87) -/

/-- Core `c` has been stopped between `s` and `t`, by engine `eng`, with a kind and a code, at position `pos`: its fault record says so
and holds its registers and semaphores, its engines are quiet, its banks EMPTY, its locks released. -/
def Stopped (s t : State) (c eng : Nat) (kind : Kind) (code : Code) (pos : Nat) : Prop :=
  (t.core c).st = .stopped ∧ (t.core c).locks = [] ∧ (t.core c).bhold = none
    ∧ (∀ e, (t.core c).queue e = EngineQ.reset) ∧ (∀ b, (t.core c).bank b = Bank.reset)
    ∧ ∃ f, (t.core c).fault = some f ∧ f.core = c ∧ f.engine = eng ∧ f.kind = kind ∧ f.code = code ∧ f.pos = pos
        ∧ f.regs = (s.core c).regs ∧ f.sems = (s.core c).sems

/-! ### What stays -/

/-- Every logical core but `c` is as it was. -/
def OtherCores (c : Nat) (s t : State) : Prop := ∀ c', c' ≠ c → t.core c' = s.core c'

/-- A command that a core's sequencer stalls on or ignores may at most change what the sequencer waits for. -/
def OnlyWaits (c : Nat) (s t : State) : Prop := ∃ w, t = s.setCore c { s.core c with wait := w }

end Sys2Proof.Machine
end

