-- ==== Sys2Proof/WellFormed.lean ====
section
/-! DEFINITION. Well-formed commands: every number that a command carries is one the device has, or fits the field that carries it. The
encodings that the spec calls reserved stay: the block takes such commands and answers them. -/

namespace Sys2Proof

/-! ### Numbers of the device -/

/-- A logical core (R20). -/
def coreOk (c : Nat) : Bool := decide (c < Config.nCores)
/-- A vault or site (R19, R24). -/
def vaultOk (v : Nat) : Bool := decide (v < Config.nSites)
/-- A compute die (R17). -/
def dieOk (d : Nat) : Bool := decide (d < 24)
/-- A register block (R465). -/
def blockOk (b : Nat) : Bool := decide (b < 32)

/-- The issuer of a vault access: nobody's, or an engine of a core. -/
def issuerWf : Option (Nat × Fin 6) → Bool
  | none => true
  | some e => coreOk e.1

/-! ### Records -/

/-- A resource of the arbitration (R277). -/
def Resource.wf : Resource → Bool
  | .scratchBank c b => coreOk c && decide (b < 32)
  | .injection c => coreOk c
  | .vaultPort v => vaultOk v
  | .nmuPath v => vaultOk v
  | .accBank c b => coreOk c && decide (b < 2)

/-- A holder of a resource (R283). -/
def Holder.wf : Holder → Bool
  | .engine c _ => coreOk c
  | .vaultTask v => vaultOk v
  | .darning => true
  | .reduction _ gid blk => decide (gid < 16) && decide (blk < 2 ^ 20)

/-- A dispatch record (R297). -/
def DispatchRec.wf (r : DispatchRec) : Bool :=
  decide (r.bucket < 2 ^ 13) && decide (r.ntoken < 2 ^ 13) && decide (r.nbatch < 2 ^ 13) && decide (r.lclass < 16)

/-- An item's header fields and its data (R266). -/
def Item.wf (i : Item) : Bool :=
  coreOk i.src && decide (i.dq < 8) && decide (i.len ≤ 4096) && decide (i.data.length = i.len)

/-- The payload of COLL_FORM (R347): it holds the NLAYER layer entries and the NMEM roster entries that its record names. -/
def GroupWords.wf (g : GroupWords) : Bool :=
  decide (g.layers.length = g.head.toNat / 2 ^ 224 % 256) && decide (g.roster.length = g.head.toNat / 2 ^ 16 % 2 ^ 13)

/-- A chunk's header; every group holds 32 values (R354). -/
def Chunk.wf (c : Chunk) : Bool :=
  decide (c.gid < 16) && decide (c.blk < 2 ^ 20) && decide (c.rank < 4096) && decide (c.ncount ≤ 4096)
    && c.groups.all (fun g => decide (g.v.length = 32))

/-- A link's name (R336, R346). -/
def LinkId.wf : LinkId → Bool
  | .direct _ => true
  | .routed _ node slot => decide (node < 2 ^ 32) && decide (slot < 8)

/-- A received frame's fields (R383). -/
def EthFrame.wf (f : EthFrame) : Bool :=
  f.tags.all (fun v => decide (v < 4096)) && decide (f.ihl < 16) && decide (f.proto < 256) && decide (f.udpPort < 2 ^ 16)
    && decide (f.udpLen < 2 ^ 16)

/-- A connection's key (R369). -/
def ConnKey.wf (k : ConnKey) : Bool := decide (k.udp < 2 ^ 16)

/-- A preamble (R370). -/
def Preamble.wf (p : Preamble) : Bool := decide (p.keyid < 2 ^ 16) && decide (p.dslot < 8) && decide (p.clen < 2 ^ 32)

/-- An RQ segment (R369 to R371). -/
def RqSegment.wf (r : RqSegment) : Bool :=
  r.key.wf && decide (r.payload.length ≤ 65535)

/-- A load header (R424). -/
def LoadHeader.wf (h : LoadHeader) : Bool :=
  decide (h.part < 2 ^ 16) && decide (h.npart < 2 ^ 16) && decide (h.seg < 256) && decide (h.offset < 2 ^ 64)

/-- The outcome of an Open (R370, R379): no plaintext is longer than a request. -/
def OpenResult.wf : OpenResult → Bool
  | .authFail => true
  | .plain b => decide (b.length ≤ 2 ^ 26)

/-- A manifest (R253, R424): NPART has 16 bits. -/
def Manifest.wf (m : Manifest) : Bool := decide (m.parts.length < 2 ^ 16)

/-- A sensor (R504). -/
def SensorId.wf : SensorId → Bool
  | .dieJunction d _ => dieOk d
  | .layer d _ => dieOk d
  | .other d _ => decide (d < 8)
  | .outlet => true

/-- What self-test found (R418, R419). -/
def SelfTest.wf (t : SelfTest) : Bool := t.badSites.all vaultOk && t.badCompute.all dieOk

/-! ### Commands -/

/-- A well-formed command. -/
def Instr.wf : Instr → Bool
  | .set core _ _ | .addi core _ _ _ | .add core _ _ _ | .sub core _ _ _ | .shl core _ _ _ | .shr core _ _ _ | .ld core _ _ _
  | .st core _ _ _ | .getid core _ _ | .loop core _ _ _ _ _ _ | .lexit core | .jmp core _ | .brz core _ _ | .brnz core _ _
  | .brlt core _ _ _ | .halt core | .trap core _ | .nop core | .semwait core _ _ | .semsig core _ _ | .semset core _ _ | .fence core _
  | .barrier core _ _ | .tmul core _ _ _ _ _ _ _ _ | .fchain core _ _ _ _ | .accrd core _ _ _ | .rfunc core _ _ | .rred core _ _
  | .ralu core _ _ | .rrescale core _ _ | .rtload core _ _ | .rquant core _ _ | .copy core _ _ _ | .streamGather core _ _ _
  | .scatter core _ _ _ | .tcopy core _ _ _ | .vaultGather core _ _ | .scadd core _ _ | .merge core _ _ | .topk core _ _
  | .vaultRred core _ _ | .fill core _ _ | .decomp core _ _ | .ctradd core _ _ _ | .ctrsetInit core _ _ | .ctrsetDone core _ _
  | .ctrsetRelease core _ _ | .lock core _ _ _ | .lockRetry core | .unlock core _ _ | .send core _ _ _ _ _ _
  | .recv core _ _ _ _ _ _ _ | .credit core _ _ _ | .registerResult core _ | .semWaitGrant core | .fenceEnd core
  | .engineCommandStart core _ | .engineCommandComplete core _ _ | .haltDrainEnd core | .barrierRelease core _ _ | .waitTimeout core _
  | .stepTimeout core | .slotStall core _ | .regionStop core | .cancel core | .drained core | .clear core | .cancelTimeout core
  | .coreReset core | .haltReport core | .connectRetry core => coreOk core
  | .barrierArrival src _ _ => coreOk src
  | .dispatch core rec => coreOk core && rec.wf
  | .resourceHang res holder => res.wf && holder.wf
  | .preemption res _ _ _ => res.wf
  | .vaultReadRequest vault offset issuer _ _ | .vaultWriteRequest vault offset _ _ issuer _ _ =>
    vaultOk vault && decide (offset < Config.vaultBytes) && issuerWf issuer
  | .patrolRead vault offset _ _ | .darnRebuild vault offset _ => vaultOk vault && decide (offset < Config.vaultBytes)
  | .refreshOperation vault _ => vaultOk vault
  | .miscorrectionResolve _ | .refclkLoss _ | .reqItem _ _ _ | .admissionCycle | .streamRelease _ | .zeroingComplete _ | .heartbeat
  | .lodestarTakeover _ | .lodestarStandbyLost | .lodestarSilence _ | .challengeExpiry | .regWrite _ _ | .regRead _ _
  | .collDissolve _ _ | .patternUnload _ _ | .warmRestart _ _ | .lodestarSwitch _ | .attestationRequest | .attestationDone
  | .irqStatusClear _ | .c64LoRead _ _ | .bar0PrivAccess _ _ | .stagedWrite _ _ _ | .registerWrite _ _ _ _ | .strobeTelemetry _
  | .strobeSlotTable _ | .strobeIngThresh _ | .strobePortAddr _ _ | .telEnableSet _ | .telEnableClear _ | .telTailWrite _ | .parkSet _
  | .parkClear _ | .lpmaxWrite _ | .flashErase _ | .flashProgram _ | .flashOpEnd | .flashOpTimeout | .ethPortReset _ | .nzLinkReset _
  | .ethSignalLoss _ | .arpRequest _ _ _ _ | .icmpEcho _ _ _ _ _ | .neighborSolicitation _ _ _ | .pauseFrame _ _ _ | .rsack _ _ _ _
  | .rqpCancel _ _ | .rqackTimer _ _ | .rsRetransmit _ _ _ | .requestTimeout _ _ | .connRecordExpiry _ _ | .loadAbandoned
  | .joinWindowEnd _ | .groupNoleader _ | .layerDoorbellComplete _ _ | .collDeadline _ _ | .leaderStepTimeout _ | .collCommit _
  | .collAbort _ | .groupLost _ | .l2Entry | .l3Entry | .wakeTrigger _ | .wakeEnd | .powerUp | .coldReset | .powerDown
  | .inputFaultShutdown _ | .rstInN _ | .perstN | .flr | .d3hotEntry | .vinSample _ | .fastCurrentLimit | .dutyPowerUpdate _
  | .romStageEnd _ _ _ _ | .chartImageCheck _ _ _ | .flashReadTimeout _ | .pcieLinkUp _ _ _ | .linkStageEnd | .startTimeout | .smbGlbIdent | .smbGlbStart
  | .smbGlbHealth | .smbGlbPwrState | .smbGlbPin | .smbGlbTherm | .smbGlbEvnext | .smbusClockTimeout | .clearFaults | .capability
  | .statusByte | .statusWord | .statusInput | .statusTemperature | .statusCml | .statusMfrSpecific | .readVin | .readIin | .readPin
  | .readTemperature1 | .readTemperature2 | .readTemperature3 | .pmbusRevision | .mfrId | .mfrModel | .mfrReadDuty | .mfrSensorFail
  | .pmbusInvalidCommand | .alertResponse | .bypass | .idcode | .samplePreload _ | .extest | .testLogicReset | .ethTrainingEnd _
  | .rstInNRelease | .perstNRelease | .d3hotExit | .pauseTimeExpiry _ _ | .arpReply _ _ _ | .neighborAdvertisement _ _ _ => true
  | .migrationStart pat seg page toVault _ => decide (pat < 2 ^ 6) && decide (seg < 2 ^ 8) && decide (page < 2 ^ 27) && vaultOk toVault
  | .migrationCopyEnd pat seg page | .migrationEnd pat seg page => decide (pat < 2 ^ 6) && decide (seg < 2 ^ 8) && decide (page < 2 ^ 27)
  | .siteTestEnd site _ => vaultOk site
  | .computePllLoss die | .dutyThermalUpdate die _ => dieOk die
  | .stepCancel pat _ | .regionReset pat _ | .stepReplay pat _ | .stepForm pat | .outputGate pat _ | .unloadComplete pat =>
    decide (pat < 2 ^ 6)
  | .lockRelease core addr _ => coreOk core && decide (addr < 2 ^ 43)
  | .orphanNotice vault core | .orphanNoticeAck vault core => vaultOk vault && coreOk core
  | .itemArrival core item _ => coreOk core && item.wf
  | .connect core _ producer _ | .disconnect core _ producer _ _ => coreOk core && coreOk producer
  | .connectReply producer dest _ _ _ => coreOk producer && coreOk dest
  | .creditReturn producer core _ _ _ | .stale producer core _ => coreOk producer && coreOk core
  | .eventRecordArrival block | .blkSnap block | .blockSnapArrival block | .stagedApply block _ | .blockL1Entry block => blockOk block
  | .foldWindowEnd block code => blockOk block && decide (code < 2 ^ 8)
  | .keyInstall _ _ => true
  | .keyRemove _ keyid => decide (keyid < 2 ^ 16)
  | .collForm _ g => g.wf
  | .ethFrameRx _ f => f.wf
  | .rqSegment seg => seg.wf
  | .requestOpen _ _ result => result.wf
  | .forwardedRequest _ srcNodeSlot key pre _ => decide (srcNodeSlot < 2 ^ 35) && key.wf && pre.wf
  | .forwardedResponse _ key _ => key.wf
  | .loadPart0 m h => m.wf && h.wf
  | .loadPart h _ => h.wf
  | .nzDataFrame link _ | .nzAckFrame link _ | .nzNakFrame link _ | .nzCreditFrame link _ | .handshake link _ => link.wf
  | .laneTrainingEnd link | .linkBringupTimeout link | .linkRetry link | .linkSilence1ms link | .linkSilence10ms link
  | .retrainEnd link | .linkDown link | .txcntWrapHandshake link => link.wf
  | .join _ rank _ arithRev => decide (rank < 4096) && decide (arithRev < 2 ^ 8)
  | .formed _ ranks => decide (ranks.length ≤ 4096)
  | .contribChunk c | .updateChunk c | .pullAnswer c => c.wf
  | .partialChunk c node => c.wf && decide (node < 2 ^ 32)
  | .shardDone _ rank _ | .mcDropped _ rank => decide (rank < 4096)
  | .updateAck _ blk rank | .pull _ blk rank => decide (blk < 2 ^ 20) && decide (rank < 4096)
  | .dropped _ owner => decide (owner < 4096)
  | .sensorSample sensor _ => sensor.wf
  | .selfTestEnd t => t.wf
  | .stackTestEnd badVaults badStacks => badVaults.all vaultOk && badStacks.all dieOk

end Sys2Proof
end

