-- ==== Sys2Proof/Certificates/Slice0/Obligations.lean ====
section
/-! DEFINITION. The statements for the provers. -/

open Sys2Proof Sys2Proof.Machine

/-- A step runs the command at the front of the queue. For every state and command, a step of the state with that command at the front of its queue is exec of the command on the state with the rest of the queue; a step on an empty queue idles (the model's choice, log entry 15). -/
def Obligations.StepRunsTheFrontCommand : Prop :=
  (∀ (c : Instr) (rest : List Instr) (s : State), step { s with pending := c :: rest } = exec c { s with pending := rest })
  ∧ ∀ s : State, s.pending = [] → step s = .next s

/-- SET, ADDI, ADD, SUB, SHL, SHR, GETID, LD and ST on a core that takes them. On a RUNNING core at a command boundary, with the registers named not pending and a next position that is plain, each scalar command answers the state in which S[D] holds the value of its row (LD: the 8 bytes are on their way to the pending S[D]; ST: the 8 bytes are stored) and the position has advanced by one; nothing else changes. GETID with SEL 5 writes a free value (log 16). -/
def Obligations.ScalarCommandsWriteTheirRegister : Prop :=
  ∀ (s : State) (c : Nat) (d a b : Reg), c < Config.nCores → (s.core c).lands ((s.core c).pos + 1) = true →
    let k := s.core c
    let p := k.pos + 1
    (k.takes [d] = true →
      (∀ imm, exec (.set c d imm) s = .next (s.setCore c ((k.setReg d imm).goes p)))
      ∧ (∀ r sel, s.coreRegion k = some r → sel.val < 5 →
          exec (.getid c d sel) s = .next (s.setCore c ((k.setReg d (BitVec.ofNat 64
            (let i := indexIn c r.cores
             if sel.val = 0 then regionCoord r.image i else if sel.val = 1 then i % r.image.width
             else if sel.val = 2 then i / r.image.width else if sel.val = 3 then r.image.width else r.image.height))).goes p)))
      ∧ ∃ v, exec (.getid c d 5) s
          = .next ({ s with drawn := s.drawn + 1 }.setCore c ((({ k with cycles := v }).setReg d v).goes p)))
    ∧ (k.takes [a, d] = true →
      (∀ imm, exec (.addi c d a imm) s = .next (s.setCore c ((k.setReg d (k.reg a + imm.signExtend 64)).goes p)))
      ∧ (∀ sh, exec (.shl c d a sh) s = .next (s.setCore c ((k.setReg d (k.reg a <<< sh.val)).goes p)))
      ∧ (∀ sh, exec (.shr c d a sh) s = .next (s.setCore c ((k.setReg d (k.reg a >>> sh.val)).goes p)))
      ∧ (∀ imm, (k.reg a + imm.signExtend 64).toNat % 8 = 0 → (k.reg a + imm.signExtend 64).toNat < 0x2F0000 →
          exec (.ld c d a imm) s = .next (s.setCore c (({ k with
            pend := k.pend ++ [(d, some (BitVec.ofNat 64 (rdNat k.scratch (k.reg a + imm.signExtend 64).toNat 8)))] }).goes p))
          ∧ exec (.st c d a imm) s = .next (s.setCore c (({ k with
            scratch := wrNat k.scratch (k.reg a + imm.signExtend 64).toNat 8 (k.reg d).toNat }).goes p))))
    ∧ (k.takes [a, b, d] = true →
      exec (.add c d a b) s = .next (s.setCore c ((k.setReg d (k.reg a + k.reg b)).goes p))
      ∧ exec (.sub c d a b) s = .next (s.setCore c ((k.setReg d (k.reg a - k.reg b)).goes p)))

/-- LD and ST at an address that is misaligned or at the reserved top. An LD or ST whose address is no multiple of 8 stops its core with MISALIGN; one whose aligned address is at or above 3 MiB less 64 KiB stops it with SCRATCH_RANGE; both are rejections by the sequencer at the command's position, and scratch keeps its bytes. -/
def Obligations.BadLoadAndStoreAddressesAreRejected : Prop :=
  ∀ (s : State) (c : Nat) (d a : Reg) (imm : BitVec 32), c < Config.nCores → (s.core c).takes [a, d] = true →
    let k := s.core c
    let addr := (k.reg a + imm.signExtend 64).toNat
    ∀ i, (i = Instr.ld c d a imm ∨ i = Instr.st c d a imm) →
      (addr % 8 ≠ 0 → ∃ t, exec i s = .next t ∧ Stopped s t c 0 .rejected .misalign k.pos ∧ (t.core c).scratch = k.scratch)
      ∧ (addr % 8 = 0 → 3 * 1048576 - 65536 ≤ addr →
          ∃ t, exec i s = .next t ∧ Stopped s t c 0 .rejected .scratchRange k.pos ∧ (t.core c).scratch = k.scratch)

/-- LOOP, LEXIT, JMP, BRZ, BRNZ, BRLT and NOP on a core that takes them. On a core that takes the word, each flow command answers the state in which the sequencer stands where its row says, where that position is plain: LOOP with a count other than zero opens its loop and, with IEN, zeroes S[IREG]; LEXIT drops the innermost loop and goes to END + 1; a branch goes to TARGET or to the next position; NOP only advances. Nothing else changes. -/
def Obligations.FlowCommandsMoveThePosition : Prop :=
  ∀ (s : State) (c : Nat) (a b : Reg) (target : Fin 2048), c < Config.nCores →
    let k := s.core c
    let next := s.setCore c (k.goes (k.pos + 1))
    let there := s.setCore c (k.goes target.val)
    (∀ count creg csrc ireg ien last,
      k.takes ((if csrc = true then [creg] else []) ++ (if ien = true then [ireg] else [])) = true → loopCount k count creg csrc ≠ 0 →
      k.pos + 1 < k.progLen → last.val ≠ k.pos →
      exec (.loop c count creg csrc ireg ien last) s
        = .next (s.setCore c (({ (if ien = true then k.setReg ireg 0 else k) with
            loops := { start := k.pos + 1, last := last.val, count := loopCount k count creg csrc, iter := 0,
                       ireg := if ien = true then some ireg else none } :: k.loops }).goes (k.pos + 1))))
    ∧ (k.takes [] = true →
      (∀ e es, k.loops = e :: es → landsIn es k.progLen (e.last + 1) = true →
        exec (.lexit c) s = .next (s.setCore c (({ k with loops := es }).goes (e.last + 1))))
      ∧ (k.lands target.val = true → exec (.jmp c target) s = .next there)
      ∧ (k.lands (k.pos + 1) = true → exec (.nop c) s = .next next))
    ∧ (k.takes [a] = true →
      (k.lands target.val = true → k.reg a = 0 → exec (.brz c a target) s = .next there)
      ∧ (k.lands (k.pos + 1) = true → k.reg a ≠ 0 → exec (.brz c a target) s = .next next)
      ∧ (k.lands target.val = true → k.reg a ≠ 0 → exec (.brnz c a target) s = .next there)
      ∧ (k.lands (k.pos + 1) = true → k.reg a = 0 → exec (.brnz c a target) s = .next next))
    ∧ (k.takes [a, b] = true →
      (k.lands target.val = true → (k.reg a).toInt < (k.reg b).toInt → exec (.brlt c a b target) s = .next there)
      ∧ (k.lands (k.pos + 1) = true → (k.reg b).toInt ≤ (k.reg a).toInt → exec (.brlt c a b target) s = .next next))

/-- The end of a loop body returns to the top, or leaves the loop after COUNT iterations. A NOP at END of the innermost body, or a JMP from inside it to the position just past it: with iterations remaining the sequencer stands at the top of the body, the iteration is one higher and S[IREG], where the loop names one, has risen by one; in the last iteration the loop is closed and execution continues at END + 1 with every register kept. A LOOP whose register count is zero is rejected with ZERO_EXTENT. -/
def Obligations.LoopEndReturnsOrLeaves : Prop :=
  ∀ (s : State) (c : Nat), c < Config.nCores → (s.core c).takes [] = true →
    let k := s.core c
    (∀ i e es, k.loops = e :: es →
      (i = Instr.nop c ∧ k.pos = e.last ∨ ∃ tg : Fin 2048, i = Instr.jmp c tg ∧ tg.val = e.last + 1) →
      (e.iter + 1 < e.count → e.start < k.progLen →
        exec i s = .next (s.setCore c ({ (match e.ireg with | none => k | some r => k.setReg r (k.reg r + 1)) with
          loops := { e with iter := e.iter + 1 } :: es, pos := e.start, wait := .none })))
      ∧ (e.count ≤ e.iter + 1 → landsIn es k.progLen (e.last + 1) = true →
        exec i s = .next (s.setCore c (({ k with loops := es }).goes (e.last + 1)))))
    ∧ ∀ count creg last, k.pending creg = false → (k.reg creg).toNat % 2 ^ 32 = 0 →
        ∃ t, exec (.loop c count creg true 0 false last) s = .next t ∧ Stopped s t c 0 .rejected .zeroExtent k.pos

/-- Reaching the program length faults the core; so does TRAP, with its code. A NOP as the last command of a program outside every loop stops its core with PATTERN_TRAP, the program length as the position and a command word of zero. TRAP stops its core with PATTERN_TRAP at its own position, with its command word and CODE in the record. -/
def Obligations.RunningPastTheProgramTraps : Prop :=
  ∀ (s : State) (c : Nat), c < Config.nCores → (s.core c).takes [] = true →
    let k := s.core c
    (k.loops = [] → k.pos + 1 = k.progLen →
      ∃ t, exec (.nop c) s = .next t ∧ Stopped s t c 0 .faulted .patternTrap k.progLen
        ∧ ∃ f, (t.core c).fault = some f ∧ f.word = 0)
    ∧ ∀ code : BitVec 16, ∃ t, exec (.trap c code) s = .next t ∧ Stopped s t c 0 .faulted .patternTrap k.pos
        ∧ OtherCores c s t
        ∧ ∃ f, (t.core c).fault = some f ∧ f.word = seqWord 1 7 (at_ code.toNat 32) ∧ bitsOf f.extra.toNat 192 16 = code.toNat

/-- HALT waits for every issued command; then the loop stack is cleared and the core is IDLE. HALT on a core that takes it leaves everything but the sequencer's wait unchanged, and the core takes no word after it. HALT_DRAIN_END while a command is still queued or in progress changes nothing; once every engine has drained it reports completion to the Helm, and with an empty latch the core is IDLE with an empty loop stack, registers and semaphores kept. -/
def Obligations.HaltDrainsThenIdles : Prop :=
  ∀ (s : State) (c : Nat), c < Config.nCores →
    let k := s.core c
    (k.takes [] = true →
      exec (.halt c) s = .next (s.setCore c { k with wait := .halt })
      ∧ ∀ regs, ({ k with wait := SeqWait.halt }).takes regs = false)
    ∧ (k.st = .running → k.wait = .halt →
      (k.drained 31 = false → exec (.haltDrainEnd c) s = .next s)
      ∧ (k.drained 31 = true → k.latch = none →
        exec (.haltDrainEnd c) s
          = .next ((s.emit (.halted c)).setCore c { k with st := .idle, wait := .none, loops := [], bhold := none })))

/-- FENCE, BARRIER, FENCE_END and BARRIER_RELEASE. FENCE goes on at once where the selected engines have drained and waits otherwise; BARRIER without FEN, or with all five engines drained, sends its arrival with the barrier's phase bit, which then alternates, and waits for the release; with FEN and an engine not drained it waits as a FENCE. FENCE_END lets a fence go on, and a waiting barrier send its arrival, only once the engines have drained. BARRIER_RELEASE of the awaited barrier and phase lets the sequencer go on; any other release changes nothing. -/
def Obligations.FencesAndBarriersWait : Prop :=
  ∀ (s : State) (c : Nat), c < Config.nCores →
    let k := s.core c
    let arrive (bid : Fin 4) : State :=
      (s.setCore c { k with phase := k.phase.set bid.val (!k.phase.get bid) bid.isLt, wait := .barrier bid (k.phase.get bid) }).emit
        (.barrierArrival c bid (k.phase.get bid))
    (k.takes [] = true → ∀ mask bid,
      (k.drained mask = true → k.lands (k.pos + 1) = true → exec (.fence c mask) s = .next (s.setCore c (k.goes (k.pos + 1))))
      ∧ (k.drained mask = false → exec (.fence c mask) s = .next (s.setCore c { k with wait := .fence mask }))
      ∧ exec (.barrier c bid false) s = .next (arrive bid)
      ∧ (k.drained 31 = true → exec (.barrier c bid true) s = .next (arrive bid))
      ∧ (k.drained 31 = false → exec (.barrier c bid true) s = .next (s.setCore c { k with wait := .barrierFence bid })))
    ∧ (∀ mask, k.wait = .fence mask →
      (k.drained mask = true → k.lands (k.pos + 1) = true → exec (.fenceEnd c) s = .next (s.setCore c (k.goes (k.pos + 1))))
      ∧ (k.drained mask = false → exec (.fenceEnd c) s = .next s))
    ∧ (∀ bid, k.wait = .barrierFence bid → k.drained 31 = true → exec (.fenceEnd c) s = .next (arrive bid))
    ∧ (∀ bid ph, k.st = .running → k.lands (k.pos + 1) = true →
      (k.wait = .barrier bid ph → exec (.barrierRelease c bid ph) s = .next (s.setCore c (k.goes (k.pos + 1))))
      ∧ (k.wait ≠ .barrier bid ph → exec (.barrierRelease c bid ph) s = .next s))

/-- BARRIER_ARRIVAL: the root counts arrivals and releases the region when every core has arrived. In a region of a resident Pattern none of whose cores is stopped, an arrival that is not the last is counted and sends nothing; the arrival that completes the region sends the release of that barrier and phase to every core of the region and empties the count. -/
def Obligations.BarrierRootReleasesWhenAllHaveArrived : Prop :=
  ∀ (s : State) (c pi : Nat) (p : Pattern) (r : Region) (bid : Fin 4) (phase : Bool), c < Config.nCores →
    (s.core c).pat = some pi → s.pat pi = some p → p.regions[(s.core c).region]? = some r → c ∈ r.cores →
    (∀ x ∈ r.cores, (s.core x).st ≠ .stopped) →
    let counted := Sparse.get [] r.arrived (2 * bid.val + b2n phase)
    c ∉ counted →
    ∃ t, exec (.barrierArrival c bid phase) s = .next t ∧ t.cores = s.cores ∧
      ((∀ x ∈ r.cores, x ∈ counted ∨ x = c) →
        t.out = s.out ++ r.cores.map (fun x => Emit.barrierRelease x bid phase)
        ∧ ∃ p' r', t.pat pi = some p' ∧ p'.regions[(s.core c).region]? = some r'
            ∧ r'.arrived = Sparse.set [] r.arrived (2 * bid.val + b2n phase) [])
      ∧ ((∃ x ∈ r.cores, x ∉ counted ∧ x ≠ c) →
        t.out = s.out
        ∧ ∃ p' r', t.pat pi = some p' ∧ p'.regions[(s.core c).region]? = some r'
            ∧ Sparse.get [] r'.arrived (2 * bid.val + b2n phase) = counted ++ [c])

/-- SEMSIG, SEMSET, SEMWAIT and SEM_WAIT_GRANT. SEMSET sets the semaphore. SEMSIG raises it by N where the sum fits 16 bits and otherwise stops the core with SEM_OVERFLOW, naming engine 0, the semaphore keeping its value. SEMWAIT, with no engine waiting, takes N from a semaphore that holds at least N and goes on, and otherwise waits with the semaphore unchanged; SEM_WAIT_GRANT tries a waiting SEMWAIT again with the same outcomes. No other semaphore and no register changes. Where the heads of two engines' queues wait on the same semaphore, which holds exactly one count, and both have a place, one round of grants grants the lower-numbered engine and leaves the other ungranted. -/
def Obligations.SemaphoresCountAndSaturateNowhere : Prop :=
  ∀ (s : State) (c : Nat) (i : Fin 64) (n : BitVec 16), c < Config.nCores → (s.core c).lands ((s.core c).pos + 1) = true →
    let k := s.core c
    let p := k.pos + 1
    (k.takes [] = true →
      exec (.semset c i n) s = .next (s.setCore c ((k.setSem i n.toNat).goes p))
      ∧ (k.sem i + n.toNat < 65536 → exec (.semsig c i n) s = .next (s.setCore c ((k.setSem i (k.sem i + n.toNat)).goes p)))
      ∧ (65536 ≤ k.sem i + n.toNat →
          ∃ t, exec (.semsig c i n) s = .next t ∧ Stopped s t c 0 .faulted .semOverflow k.pos)
      ∧ ((∀ e, (k.queue e).issue = []) →
        (n.toNat ≤ k.sem i → exec (.semwait c i n) s = .next (s.setCore c ((k.setSem i (k.sem i - n.toNat)).goes p)))
        ∧ (k.sem i < n.toNat → exec (.semwait c i n) s = .next (s.setCore c { k with wait := .sem i n }))))
    ∧ (k.st = .running → k.wait = .sem i n → (∀ e, (k.queue e).issue = []) →
        (n.toNat ≤ k.sem i → exec (.semWaitGrant c) s = .next (s.setCore c ((k.setSem i (k.sem i - n.toNat)).goes p)))
        ∧ (k.sem i < n.toNat → exec (.semWaitGrant c) s = .next (s.setCore c k)))
    ∧ ∀ (x : Core) (e f : Fin 5) (h g : QEntry) (hs gs : List QEntry), e < f → (∀ y, y ≠ e → y ≠ f → (x.queue y).issue = []) →
      (x.queue e).issue = h :: hs → (x.queue f).issue = g :: gs → h.wait = some i → g.wait = some i →
      h.granted = false → g.granted = false → x.room e = true → x.room f = true → x.sem i = 1 →
      (x.grantEngines.queue e).issue = { h with granted := true } :: hs
        ∧ (x.grantEngines.queue f).issue = g :: gs ∧ x.grantEngines.sem i = 0

/-- DISPATCH on a RUNNING, an IDLE and any other core. A dispatch to a RUNNING core with an empty latch waits in the latch and changes nothing else. An IDLE core with an empty latch takes it: it is RUNNING at its restart entry if one is due and at its entry otherwise, S15 holds the step's number, S14 its bucket, S13 the byte address of the Pattern's dispatch area, S0 to S12 and every semaphore keep their values, and the loop stack is empty. A core whose latch is full, or in RESET or STOPPED, does not change. -/
def Obligations.DispatchEntersTheLatchOrStartsTheCore : Prop :=
  ∀ (s : State) (c : Nat) (d : DispatchRec), c < Config.nCores →
    let k := s.core c
    (k.latch = none → k.st = .running → exec (.dispatch c d) s = .next (s.setCore c { k with latch := some d }))
    ∧ (k.latch ≠ none ∨ k.st = .reset ∨ k.st = .stopped → exec (.dispatch c d) s = .next s)
    ∧ ∀ p, k.latch = none → k.st = .idle → s.corePat k = some p →
        (if k.useRestart = true then k.restart else k.entry) < k.progLen →
        ∃ t, exec (.dispatch c d) s = .next t ∧ OtherCores c s t ∧ t.mem = s.mem ∧ t.out = s.out
          ∧ (t.core c).st = .running ∧ (t.core c).pos = (if k.useRestart = true then k.restart else k.entry)
          ∧ (t.core c).reg 15 = d.stepSeq.setWidth 64 ∧ (t.core c).reg 14 = BitVec.ofNat 64 d.bucket
          ∧ (t.core c).reg 13 = BitVec.ofNat 64 (p.manifest.params.dispatchUnit * 64)
          ∧ (∀ r : Reg, r.val < 13 → (t.core c).reg r = k.reg r) ∧ (t.core c).sems = k.sems ∧ (t.core c).loops = []
          ∧ (t.core c).latch = none ∧ (t.core c).useRestart = false ∧ (t.core c).scratch = k.scratch

/-- WAIT_TIMEOUT, STEP_TIMEOUT and SLOT_STALL. On a RUNNING core: STEP_TIMEOUT stops it with STEP_TIMEOUT, naming the sequencer; WAIT_TIMEOUT of the sequencer stops it with WAIT_TIMEOUT if it waits for a semaphore, a fence, a barrier's fence or a barrier, and changes nothing if it waits for HALT's drain or does not wait; WAIT_TIMEOUT of an engine whose head waits ungranted stops it, naming the engine and the command's position; SLOT_STALL of an engine whose head is stalled at a slot stops it with SLOT_STALL, and the record names the ring and the slot. -/
def Obligations.TimeoutsStopTheCore : Prop :=
  ∀ (s : State) (c : Nat), c < Config.nCores → (s.core c).st = .running →
    let k := s.core c
    (∃ t, exec (.stepTimeout c) s = .next t ∧ Stopped s t c 0 .faulted .stepTimeout k.pos)
    ∧ ((∃ i n, k.wait = .sem i n) ∨ (∃ m, k.wait = .fence m) ∨ (∃ b, k.wait = .barrierFence b) ∨ (∃ b ph, k.wait = .barrier b ph) →
        ∃ t, exec (.waitTimeout c 0) s = .next t ∧ Stopped s t c 0 .faulted .waitTimeout k.pos)
    ∧ (k.wait = .halt ∨ k.wait = .none → exec (.waitTimeout c 0) s = .next s)
    ∧ (∀ (e : Fin 5) (h : QEntry) (hs : List QEntry), (k.queue e).issue = h :: hs → (k.queue e).prog.all (fun p => !p.held) = true →
        h.wait.isSome = true → h.granted = false → k.room e = true →
        ∃ t, exec (.waitTimeout c ⟨e.val + 1, by omega⟩) s = .next t ∧ Stopped s t c (e.val + 1) .faulted .waitTimeout h.pos)
    ∧ ∀ (e : Fin 5) (h : QEntry) (hs : List QEntry) (ring slot : Nat), (k.queue e).issue = h :: hs → (k.queue e).prog = [] →
        h.stalled = some (ring, slot) → ring < 256 → slot < 256 →
        ∃ t, exec (.slotStall c e) s = .next t ∧ Stopped s t c (e.val + 1) .faulted .slotStall h.pos
          ∧ ∃ f, (t.core c).fault = some f ∧ bitsOf f.extra.toNat 144 8 = ring ∧ bitsOf f.extra.toNat 152 8 = slot

/-- A pending register stalls the sequencer; REGISTER_RESULT delivers its value. A command that reads or writes a pending register leaves everything unchanged but the sequencer's wait for that register (ADD is stated, for each of its three registers). REGISTER_RESULT of a pending register whose value has come, on a core that is neither in RESET nor STOPPED, writes exactly that value and no other register, takes the register off the pending list and ends the sequencer's wait for it; while no value has come, and on a STOPPED core, nothing changes. -/
def Obligations.PendingRegistersStallAndArrive : Prop :=
  ∀ (s : State) (c : Nat), c < Config.nCores →
    let k := s.core c
    (∀ (d a b r : Reg), k.atBoundary = true → [a, b, d].find? (fun x => k.pending x) = some r →
      exec (.add c d a b) s = .next (s.setCore c { k with wait := .reg r }))
    ∧ (∀ (r : Reg) (v : W64), k.st ≠ .reset → k.st ≠ .stopped → k.pend.find? (fun p => decide (p.1 = r)) = some (r, some v) →
      ∃ t, exec (.registerResult c r) s = .next t ∧ OtherCores c s t ∧ (t.core c).reg r = v
        ∧ (∀ r', r' ≠ r → (t.core c).reg r' = k.reg r') ∧ (t.core c).pending r = false
        ∧ (∀ r', r' ≠ r → (t.core c).pending r' = k.pending r') ∧ (t.core c).sems = k.sems ∧ (t.core c).pos = k.pos
        ∧ (k.wait = .reg r → (t.core c).wait = .none) ∧ (t.core c).scratch = k.scratch ∧ t.mem = s.mem)
    ∧ ∀ r : Reg, k.pend.find? (fun p => decide (p.1 = r)) = some (r, none) ∨ k.st = .stopped → exec (.registerResult c r) s = .next s

/-- The matrix, row, stream and message classes are queued at their engine. On a core that may issue it, each of TMUL, FCHAIN, ACCRD, RFUNC, RRED, RALU, RRESCALE, RTLOAD, RQUANT, COPY, GATHER, SCATTER, TCOPY, SEND, RECV and CREDIT is placed at the tail of its engine's issue queue with its indexed field formed, its wait and signal as its word says, and its result register pending; the sequencer continues at the next position; the engine then starts its head if it may. Nothing else changes before that start. -/
def Obligations.CoreEngineCommandsAreQueued : Prop :=
  ∀ (s : State) (c : Nat) (k : Common) (x : Core), c < Config.nCores → s.core c = x →
    let f (v : BitVec 16) : Nat := formed x k v.toNat
    let issued (i : Instr) (e : Fin 5) (w : CmdWord) (fld : BitVec 16) (dest : Option Reg) (op : EngineOp) : Prop :=
      x.mayIssue e k w fld.toNat dest = true →
        exec i s = .next (tryStart (s.setCore c (x.placed e (entryOf x k w op) dest)) c e)
    (∀ o shape acc bank eop red mod, issued (.tmul c k o shape acc bank eop red mod) 0 (tmulWord k o shape acc bank eop red mod) o (none) (.tmul (f o) shape (accOf x acc) bank eop red mod))
    ∧ (∀ o run bank, issued (.fchain c k o run bank) 0 (fchainWord k o run bank) o (none) (.fchain (f o) run bank))
    ∧ (∀ o bank, issued (.accrd c k o bank) 0 (accrdWord k o bank) o (none) (.accrd (f o) bank))
    ∧ (∀ r, issued (.rfunc c k r) 1 (rowWord 0 k r) r.src (none) (.row .rfunc (f r.src) (!k.xen && decide (r.src = 0xFFFF)) r))
    ∧ (∀ r, issued (.rred c k r) 1 (rowWord 1 k r) r.src (none) (.row .rred (f r.src) (!k.xen && decide (r.src = 0xFFFF)) r))
    ∧ (∀ r, issued (.ralu c k r) 1 (rowWord 2 k r) r.src (none) (.row .ralu (f r.src) (!k.xen && decide (r.src = 0xFFFF)) r))
    ∧ (∀ r, issued (.rrescale c k r) 1 (rowWord 3 k r) r.src (none) (.row .rrescale (f r.src) (!k.xen && decide (r.src = 0xFFFF)) r))
    ∧ (∀ r, issued (.rtload c k r) 1 (rowWord 4 k r) r.src (none) (.row .rtload (f r.src) (!k.xen && decide (r.src = 0xFFFF)) r))
    ∧ (∀ r, issued (.rquant c k r) 1 (rowWord 5 k r) r.src (none) (.row .rquant (f r.src) (!k.xen && decide (r.src = 0xFFFF)) r))
    ∧ (∀ d l, issued (.copy c k d l) 2 (streamWord 0 k d l) d (none) (.stream .copy (f d) l.toNat))
    ∧ (∀ d l, issued (.streamGather c k d l) 2 (streamWord 1 k d l) d (none) (.stream .gather (f d) l.toNat))
    ∧ (∀ d l, issued (.scatter c k d l) 2 (streamWord 2 k d l) d (none) (.stream .scatter (f d) l.toNat))
    ∧ (∀ d l, issued (.tcopy c k d l) 2 (streamWord 3 k d l) d (none) (.stream .tcopy (f d) l.toNat))
    ∧ (∀ dest dq src len tag, issued (.send c k dest dq src len tag) 4 (sendWord k dest dq src len tag) src (none) (.send dest.toNat dq (f src) len.toNat tag))
    ∧ (∀ q blk dsts maxlen lreg lenEn, issued (.recv c k q blk dsts maxlen lreg lenEn) 4 (recvWord k q blk dsts maxlen lreg lenEn) dsts (if lenEn = true then some lreg else none) (.recv q blk (f dsts) maxlen.toNat (if lenEn = true then some lreg else none)))
    ∧ (∀ q n, issued (.credit c k q n) 4 (creditWord k q n) 0 (none) (.credit q n.toNat))

/-- The vault class is queued at the NMU. On a core that may issue it, each of the vault class's GATHER, SCADD, MERGE, TOPK, RRED, FILL, DECOMP, CTRADD, CTRSET in its three uses, LOCK and UNLOCK is placed at the tail of its engine's issue queue with its indexed field formed, its wait and signal as its word says, and its result register pending; the sequencer continues at the next position; the engine then starts its head if it may. Nothing else changes before that start. -/
def Obligations.VaultCommandsAreQueued : Prop :=
  ∀ (s : State) (c : Nat) (k : Common) (x : Core), c < Config.nCores → s.core c = x →
    let f (v : BitVec 16) : Nat := formed x k v.toNat
    let issued (i : Instr) (e : Fin 5) (w : CmdWord) (fld : BitVec 16) (dest : Option Reg) (op : EngineOp) : Prop :=
      x.mayIssue e k w fld.toNat dest = true →
        exec i s = .next (tryStart (s.setCore c (x.placed e (entryOf x k w op) dest)) c e)
    (∀ d g, issued (.vaultGather c k ⟨d, g⟩) 3 (vaultWord 0 k d g false) d (none) (.vault .gather (f d) none))
    ∧ (∀ d g, issued (.scadd c k ⟨d, g⟩) 3 (vaultWord 1 k d g false) d (none) (.vault .scadd (f d) none))
    ∧ (∀ d g, issued (.merge c k ⟨d, g⟩) 3 (vaultWord 2 k d g false) d (none) (.vault .merge (f d) none))
    ∧ (∀ d g, issued (.topk c k ⟨d, g⟩) 3 (vaultWord 3 k d g false) d (none) (.vault .topk (f d) none))
    ∧ (∀ d g, issued (.vaultRred c k ⟨d, g⟩) 3 (vaultWord 4 k d g false) d (none) (.vault .rred (f d) none))
    ∧ (∀ d g, issued (.fill c k ⟨d, g⟩) 3 (vaultWord 5 k d g false) d (none) (.vault .fill (f d) none))
    ∧ (∀ d g, issued (.decomp c k ⟨d, g⟩) 3 (vaultWord 6 k d g false) d (none) (.vault .decomp (f d) none))
    ∧ (∀ d g, issued (.ctrsetInit c k ⟨d, g⟩) 3 (vaultWord 8 k d g false) d (none) (.vault .ctrset (f d) none))
    ∧ (∀ d g, issued (.ctrsetDone c k ⟨d, g⟩) 3 (vaultWord 8 k d g false) d (none) (.vault .ctrset (f d) none))
    ∧ (∀ d g, issued (.ctrsetRelease c k ⟨d, g⟩) 3 (vaultWord 8 k d g false) d (none) (.vault .ctrset (f d) none))
    ∧ (∀ d g, issued (.unlock c k ⟨d, g⟩) 3 (vaultWord 10 k d g false) d (none) (.vault .unlock (f d) none))
    ∧ (∀ d g, issued (.ctradd c k d g) 3 (vaultWord 7 k d g true) d (some g) (.vault .ctradd (f d) (some g)))
    ∧ (∀ d g, issued (.lock c k d g) 3 (vaultWord 9 k d g true) d (some g) (.vault .lock (f d) (some g)))

/-- An engine command meets a full queue, an index out of range or a failed static check. A COPY that the sequencer takes (its word passing the static checks) stalls, with nothing else changed, while the Stream Engine's queue holds 16 commands; with a place, and an indexed field that exceeds 48,127, it stops the core with INDEX_RANGE as a rejection by the sequencer. A COPY whose word fails the static checks stops the core with the check's code. -/
def Obligations.IssueStallsOrRejects : Prop :=
  ∀ (s : State) (c : Nat) (kc : Common) (desc list : BitVec 16), c < Config.nCores →
    let k := s.core c
    let w := streamWord 0 kc desc list
    k.takes (if kc.xen = true then [kc.xreg] else []) = true →
    (staticCheck w = none → 16 ≤ (k.queue 2).issue.length →
      exec (.copy c kc desc list) s = .next (s.setCore c { k with wait := .queue 2 }))
    ∧ (staticCheck w = none → (k.queue 2).issue.length < 16 → kc.xen = true →
        48127 < desc.toNat + (k.reg kc.xreg).toNat * 2 ^ kc.xsh.val →
        ∃ t, exec (.copy c kc desc list) s = .next t ∧ Stopped s t c 0 .rejected .indexRange k.pos)
    ∧ ∀ code, staticCheck w = some code →
        ∃ t, exec (.copy c kc desc list) s = .next t ∧ Stopped s t c 0 .rejected code k.pos

/-- Reading back the word of every command of a core's program gives the command. For every command that has a word (all operations of the eight classes, every operand at every value its type admits), reading the word, with the SUB that tells a CTRSET's use, gives back exactly that command: no bit of the encoding is dropped and no two commands share a word. -/
def Obligations.CommandWordsRoundTrip : Prop :=
  ∀ (i : Instr) (w : CmdWord), commandWord i = some w → commandOf (coreAndSub i).1 (coreAndSub i).2 w = some i

/-- ENGINE_COMMAND_START: an engine starts the head of its queue, or nothing. On a core that is not RUNNING, or that is being cancelled, nothing changes. Otherwise, with no unfinished chain in the way, the semaphore waits are tried first; with an empty queue, an ungranted head or no free place nothing else changes; a head that starts leaves the queue and is in progress, a head that stalls at a slot stays and remembers the slot, and a head that is stopped stops the core, naming the engine. -/
def Obligations.EnginesStartTheirHeadInOrder : Prop :=
  ∀ (s : State) (c : Nat) (e : Fin 5), c < Config.nCores →
    let k := s.core c
    let k1 := k.grantEngines
    (k.st ≠ .running ∨ k.cancelling = true → exec (.engineCommandStart c e) s = .next s)
    ∧ (k.st = .running → k.cancelling = false → (e = 0 → chainOpen k = none) →
      ((k1.queue e).issue = [] → exec (.engineCommandStart c e) s = .next (s.setCore c k1))
      ∧ ∀ h hs, (k1.queue e).issue = h :: hs →
        ((h.wait.isSome = true ∧ h.granted = false) ∨ k1.room e = false → exec (.engineCommandStart c e) s = .next (s.setCore c k1))
        ∧ ((h.wait.isSome = true → h.granted = true) → k1.room e = true →
          (∀ t fl, startEntry (s.setCore c k1) c k1 { h with stalled := none } = .go t fl →
            exec (.engineCommandStart c e) s = .next (headStarted t c e fl))
          ∧ (∀ t st, startEntry (s.setCore c k1) c k1 { h with stalled := none } = .stop t st →
            exec (.engineCommandStart c e) s = .next (stopCore t c e h st))
          ∧ (∀ ring slot, startEntry (s.setCore c k1) c k1 { h with stalled := none } = .stall ring slot →
            exec (.engineCommandStart c e) s = .next (headStalls (s.setCore c k1) c e ring slot))))

/-- ENGINE_COMMAND_COMPLETE: a signal waits for every earlier command of its engine. Of two commands in progress at one engine that signal different semaphores, the completion of the later one raises nothing and keeps both in its list; the completion of the earlier one after it raises both semaphores by one and empties the list; no other semaphore and no register changes. -/
def Obligations.SignalsRiseInQueueOrder : Prop :=
  ∀ (s : State) (c : Nat) (e : Fin 5) (f g : InFlight) (i j : Fin 64), c < Config.nCores → i ≠ j →
    let k := s.core c
    k.st = .running → (k.queue e).prog = [f, g] → f.entry.signal = some i → g.entry.signal = some j →
    f.output = none → g.output = none → f.link = none → g.link = none → f.result = none → g.result = none →
    f.held = false → g.held = false → f.chain = none → g.chain = none → f.done = false → g.done = false →
    k.sem i < 65535 → k.sem j < 65535 →
    ∃ t, exec (.engineCommandComplete c e 1) s = .next t ∧ (t.core c).sems = k.sems
      ∧ ((t.core c).queue e).prog = [f, { g with done := true }] ∧ (t.core c).regs = k.regs ∧ t.mem = s.mem ∧ OtherCores c s t
      ∧ ∃ u, exec (.engineCommandComplete c e 0) t = .next u ∧ ((u.core c).queue e).prog = []
        ∧ (u.core c).sem i = k.sem i + 1 ∧ (u.core c).sem j = k.sem j + 1
        ∧ (∀ n, n ≠ i → n ≠ j → (u.core c).sem n = k.sem n) ∧ (u.core c).regs = k.regs ∧ u.mem = s.mem ∧ OtherCores c s u

/-- The Message Unit starts a SEND. A SEND of at most 4,096 bytes inside the Pattern's scratch, to a placed core of its Pattern with a connection whose grant and credits cover the item, injects exactly that item: its source, queue, epoch, TAG, length and the LEN bytes of scratch; the connection has given up one credit for each 64 B word of header and data; scratch, vault memory and every other core are unchanged. With a grant that is too small it is rejected with MSG_LENGTH; with credits short it is held, and nothing is sent. A SEND whose DEST is no number of a core, or names no placed core of the Pattern, is rejected with MSG_DEST. -/
def Obligations.SendSpendsCreditsAndInjectsItsItem : Prop :=
  ∀ (s : State) (c d src len dest : Nat) (q : Fin 8) (tag : BitVec 16) (h : QEntry) (e : ProdEnt), c < Config.nCores →
    let k := s.core c
    let words := 1 + (len + 63) / 64
    k.onlyHead 4 h = true → h.op = .send d q src len tag → len ≤ 4096 →
    (4224 ≤ d ∨ (s.corePat k).bind (fun p => p.placed d) = none →
      ∃ t, exec (.engineCommandStart c 4) s = .next t ∧ Stopped s t c 5 .rejected .msgDest h.pos ∧ t.mem = s.mem)
    ∧ (src * 64 + len ≤ 0x2F0000 → d < 4224 →
    (s.corePat k).bind (fun p => p.placed d) = some dest → k.prodEnt dest q = some e →
    (words ≤ e.grant → words ≤ e.credits →
      ∃ t, exec (.engineCommandStart c 4) s = .next t
        ∧ t.out = s.out ++ [.item dest { src := c, dq := q, epoch := e.epoch, tag := tag, len := len, data := rdBytes k.scratch (src * 64) len }]
        ∧ (t.core c).prodEnt dest q = some { e with credits := e.credits - words }
        ∧ (∀ d' q', (d', q') ≠ (dest, q) → (t.core c).prodEnt d' q' = k.prodEnt d' q')
        ∧ (t.core c).scratch = k.scratch ∧ t.mem = s.mem ∧ OtherCores c s t ∧ (t.core c).regs = k.regs ∧ (t.core c).sems = k.sems)
    ∧ (e.grant < words → ∃ t, exec (.engineCommandStart c 4) s = .next t ∧ Stopped s t c 5 .rejected .msgLength h.pos ∧ t.helm.pats = s.helm.pats)
    ∧ (words ≤ e.grant → e.credits < words →
      ∃ t, exec (.engineCommandStart c 4) s = .next t ∧ t.out = s.out ∧ t.mem = s.mem ∧ OtherCores c s t
        ∧ ((t.core c).queue 4).prog.map (·.held) = [true] ∧ (t.core c).prodEnt dest q = some e))

/-- The Message Unit starts a RECV. On a queue whose pointer copies agree, with an item no longer than MAXLEN and no word to be read from a spill region on a lost die, RECV takes the oldest, writes its header word and its data, padded with zeros to whole 64 B words, from DSTS on, sets the result for S[LREG] to the length, and on a CMODE 0 queue returns its credits; bytes of scratch outside what it writes are unchanged. An item longer than MAXLEN stops the core with MSG_TRUNC and stays. On an empty queue, RECV with BLK clear writes the 64 B idle item and all ones for S[LREG]; with BLK set it waits and writes nothing. Where the copies disagree the core stops with QUEUE_PTR, and the queue has a new epoch, its full pool and no items. -/
def Obligations.RecvTakesTheOldestItem : Prop :=
  ∀ (s : State) (c dsts maxlen : Nat) (q : Fin 8) (blk : Bool) (lreg : Option Reg) (h : QEntry), c < Config.nCores →
    let k := s.core c
    let x := k.recvq q
    k.onlyHead 4 h = true → h.op = .recv q blk dsts maxlen lreg → dsts * 64 + (64 + (maxlen + 63) / 64 * 64) ≤ 0x2F0000 →
    (x.ptr ≠ x.ptr2 → ∃ t, exec (.engineCommandStart c 4) s = .next t ∧ Stopped s t c 5 .faulted .queuePtr h.pos
        ∧ ((t.core c).recvq q).epoch = x.epoch + 1 ∧ ((t.core c).recvq q).items = [] ∧ ((t.core c).recvq q).pool = x.depth)
    ∧ (x.ptr = x.ptr2 →
    (∀ i rest, x.items = i :: rest → i.len ≤ maxlen → spillLost s c q (min (1 + (i.len + 63) / 64) (spillWords x.words)) = none →
      let bytes := itemBytes (((s.corePat k).bind (fun p => p.coordOf i.src)).getD i.src) i
      ∃ t, exec (.engineCommandStart c 4) s = .next t ∧ ((t.core c).recvq q).items = rest
        ∧ (t.core c).scratch = wrBytes k.scratch (dsts * 64) bytes
        ∧ (∀ a, a < dsts * 64 ∨ dsts * 64 + bytes.length ≤ a → rdByte (t.core c).scratch a = rdByte k.scratch a)
        ∧ ((t.core c).queue 4).prog.map (·.result) = [lreg.map (fun r => (r, BitVec.ofNat 64 i.len))]
        ∧ (x.cmode = false → t.out = s.out ++ [.creditReturn i.src c q x.epoch (1 + (i.len + 63) / 64)])
        ∧ t.mem = s.mem ∧ OtherCores c s t ∧ (t.core c).regs = k.regs)
    ∧ (∀ i rest, x.items = i :: rest → maxlen < i.len →
      ∃ t, exec (.engineCommandStart c 4) s = .next t ∧ Stopped s t c 5 .faulted .msgTrunc h.pos
        ∧ (t.core c).scratch = k.scratch ∧ ((t.core c).recvq q).items = x.items)
    ∧ (x.items = [] →
      (blk = false → ∃ t, exec (.engineCommandStart c 4) s = .next t
        ∧ (t.core c).scratch = wrBytes k.scratch (dsts * 64) (List.replicate 64 0xFF)
        ∧ ((t.core c).queue 4).prog.map (·.result) = [lreg.map (fun r => (r, BitVec.allOnes 64))] ∧ t.out = s.out ∧ t.mem = s.mem)
      ∧ (blk = true → ∃ t, exec (.engineCommandStart c 4) s = .next t ∧ (t.core c).scratch = k.scratch
        ∧ ((t.core c).queue 4).prog.map (·.held) = [true] ∧ t.out = s.out ∧ t.mem = s.mem)))

/-- ITEM_ARRIVAL. On a RUNNING core with no message command in progress: an item of the queue's epoch for an enabled queue without a threshold, whose pointer copies agree and whose spill region, if it has one, is not on a lost die, joins the tail of that queue, advances both copies of its tail pointer, changes no other queue and sends nothing, and no vault memory while the queue holds at most 8 words; an item of another epoch, or for a disabled queue, changes no core and is answered with STALE; an arrival at which the queue's pointers disagree stops the core with QUEUE_PTR, naming the Message Unit, and the queue has a new epoch, its full pool and no items. -/
def Obligations.ItemsArriveOrAreTurnedAway : Prop :=
  ∀ (s : State) (c : Nat) (i : Item), c < Config.nCores →
    let k := s.core c
    let q : Fin 8 := ⟨i.dq % 8, Nat.mod_lt _ (by decide)⟩
    let x := k.recvq q
    k.st = .running → (k.queue 4).prog = [] →
    let w := 1 + (i.len + 63) / 64
    (x.depth ≠ 0 → i.epoch = x.epoch → x.thresh = 0 → x.ptr = x.ptr2 →
      (∀ f, spillOf s c q = some f → s.lostAt (frameAddr f) = false) →
      ∃ t, exec (.itemArrival c i true) s = .next t
        ∧ t.core c = k.setRecvq q { x with items := x.items ++ [i], ptr := (x.ptr.1, x.ptr.2 + w), ptr2 := (x.ptr2.1, x.ptr2.2 + w) }
        ∧ OtherCores c s t ∧ t.out = s.out ∧ (x.words + w ≤ 8 → t.mem = s.mem))
    ∧ (x.ptr = x.ptr2 → x.depth = 0 ∨ i.epoch ≠ x.epoch →
      ∃ t, exec (.itemArrival c i true) s = .next t ∧ t.cores = s.cores ∧ t.out = s.out ++ [.stale i.src c q] ∧ t.mem = s.mem)
    ∧ ∀ b : Bool, b = false ∨ x.ptr ≠ x.ptr2 → ∃ t, exec (.itemArrival c i b) s = .next t ∧ Stopped s t c 5 .faulted .queuePtr k.pos
        ∧ ((t.core c).recvq q).epoch = x.epoch + 1 ∧ ((t.core c).recvq q).items = [] ∧ ((t.core c).recvq q).pool = x.depth

/-- An item that reaches a queue's threshold raises TSEM by one and disarms it. On a RUNNING core with no message command in progress, and a queue whose pointer copies agree and whose spill region, if it has one, is not on a lost die, an accepted item with which an armed queue's words reach its non-zero threshold raises the threshold's semaphore by one and disarms the queue; the next accepted item raises nothing. -/
def Obligations.ThresholdRaisesItsSemaphoreOnce : Prop :=
  ∀ (s : State) (c : Nat) (i j : Item), c < Config.nCores → i.dq = j.dq →
    let k := s.core c
    let q : Fin 8 := ⟨i.dq % 8, Nat.mod_lt _ (by decide)⟩
    let x := k.recvq q
    k.st = .running → (k.queue 4).prog = [] → x.depth ≠ 0 → i.epoch = x.epoch → j.epoch = x.epoch → x.armed = true → x.thresh ≠ 0 →
    x.ptr = x.ptr2 → (∀ f, spillOf s c q = some f → s.lostAt (frameAddr f) = false) →
    x.thresh ≤ ({ x with items := x.items ++ [i] }).words → k.sem x.tsem < 65535 →
    ∃ t, exec (.itemArrival c i true) s = .next t ∧ (t.core c).sem x.tsem = k.sem x.tsem + 1
      ∧ (∀ n, n ≠ x.tsem → (t.core c).sem n = k.sem n)
      ∧ ∃ u, exec (.itemArrival c j true) t = .next u ∧ (u.core c).sems = (t.core c).sems
        ∧ ((u.core c).recvq q).items = x.items ++ [i, j]

/-- CONNECT, CONNECT_REPLY, CONNECT_RETRY, DISCONNECT, CREDIT_RETURN and STALE. A CONNECT takes the queue's effective grant from its pool and replies with it, replies WAIT where the pool does not hold it, and zero for a disabled queue; of an older epoch it changes no core and is answered with STALE. At a producer with no message command in progress, a reply with a grant puts the entry, with all its credits, into the table; WAIT is remembered and ends at CONNECT_RETRY. Returned credits join the entry of their epoch, and without an entry go on to the consumer, whose pool a DISCONNECT of its epoch fills and by which one of another epoch is answered with STALE; STALE drops the entry. -/
def Obligations.ConnectionsGrantCreditsOnce : Prop :=
  ∀ (s : State) (c n : Nat) (q : Fin 8) (ep : BitVec 8), c < Config.nCores →
    let k := s.core c
    let x := k.recvq q
    let give := s.setCore c (k.setRecvq q { x with pool := x.pool - x.effGrant })
    (∀ p : Nat,
      (x.depth = 0 → exec (.connect c q p none) s = .next (s.emit (.connectReply p c q (some 0) x.epoch)))
      ∧ (x.depth ≠ 0 → x.effGrant ≤ x.pool →
          exec (.connect c q p none) s = .next (give.emit (.connectReply p c q (some x.effGrant) x.epoch)))
      ∧ (x.depth ≠ 0 → x.pool < x.effGrant → exec (.connect c q p none) s = .next (s.emit (.connectReply p c q none x.epoch)))
      ∧ (ep ≠ x.epoch → ∃ t, exec (.connect c q p (some ep)) s = .next t ∧ t.cores = s.cores ∧ t.out = s.out ++ [.stale p c q])
      ∧ (ep = x.epoch → exec (.disconnect c q p ep n) s = .next (s.setCore c (k.setRecvq q { x with pool := x.pool + n })))
      ∧ (ep ≠ x.epoch → ∃ t, exec (.disconnect c q p ep n) s = .next t ∧ t.cores = s.cores ∧ t.out = s.out ++ [.stale p c q]))
    ∧ (k.st = .running → (k.queue 4).prog = [] → ∀ dest : Nat,
      (0 < n → ∃ t, exec (.connectReply c dest q (some n) ep) s = .next t
          ∧ (t.core c).prodEnt dest q = some { dest := dest, q := q, epoch := ep, credits := n, grant := n }
          ∧ (∀ d' q', (d', q') ≠ (dest, q) → (t.core c).prodEnt d' q' = k.prodEnt d' q') ∧ t.out = s.out ∧ OtherCores c s t)
      ∧ exec (.connectReply c dest q none ep) s = .next (s.setCore c { k with connWait := some (dest, q) })
      ∧ (k.connWait = some (dest, q) → exec (.connectRetry c) s = .next (s.setCore c { k with connWait := none }))
      ∧ (∀ e, k.prodEnt dest q = some e → e.epoch = ep → ∃ t, exec (.creditReturn c dest q ep n) s = .next t
          ∧ (t.core c).prodEnt dest q = some { e with credits := e.credits + n } ∧ t.out = s.out ∧ OtherCores c s t)
      ∧ (k.prodEnt dest q = none → exec (.creditReturn c dest q ep n) s = .next (s.emit (.disconnect dest q c ep n)))
      ∧ ∃ t, exec (.stale c dest q) s = .next t ∧ (t.core c).prodEnt dest q = none
          ∧ (∀ d' q', (d', q') ≠ (dest, q) → (t.core c).prodEnt d' q' = k.prodEnt d' q') ∧ t.out = s.out ∧ OtherCores c s t)

/-- LOCK_RETRY. A RUNNING core's waiting LOCK, its only vault command in progress, tries its lock word again. A FREE or BROKEN lock is acquired: the word becomes HELD by the core with the next epoch and its SUSPECT bit kept, the lock and the epoch enter the core's table, and the result holds the epoch with status ACQUIRED, or BROKEN where SUSPECT is set. A lock held by another core leaves memory as it is: with tries left the command waits with one try fewer, and after the last one its result is BUSY. A lock that the core holds itself is rejected with LOCK_OWNER, and any with 16 entries in use with LOCK_LIMIT. No other core changes. -/
def Obligations.LocksAreAcquiredOrRetried : Prop :=
  ∀ (s : State) (c a u w : Nat) (fl : InFlight) (dreg : Option Reg), c < Config.nCores →
    let k := s.core c
    let p := s.corePat k
    let ep := (lockEpoch w + 1) % 65536
    let result (v : Nat) : Option (Reg × W64) := dreg.map (fun r => (r, BitVec.ofNat 64 v))
    k.st = .running → (k.queue 3).prog = [fl] → fl.held = true → fl.link = some a → fl.entry.op = .vault .lock u dreg →
    (16 ≤ k.locks.length → ∃ t, exec (.lockRetry c) s = .next t ∧ Stopped s t c 4 .rejected .lockLimit fl.entry.pos ∧ t.mem = s.mem)
    ∧ (k.locks.length < 16 → lockGet s p a = .ok w →
      (lockState w = 0 ∨ lockState w = 2 → ∃ t, exec (.lockRetry c) s = .next t
        ∧ (t.core c).locks = k.locks ++ [(a, BitVec.ofNat 16 ep)]
        ∧ ((t.core c).queue 3).prog.map (fun f => (f.held, f.result))
            = [(false, result (ep + (if lockSuspect w = true then 2 else 0) * 2 ^ 16))]
        ∧ t.mem = (lockPut s (k.pat.getD 0) p a w (lockWord c ep 1 (lockSuspect w))).mem
        ∧ (t.core c).regs = k.regs ∧ (t.core c).sems = k.sems ∧ (t.core c).scratch = k.scratch ∧ OtherCores c s t ∧ t.out = s.out)
      ∧ (lockState w = 1 → lockOwner w = c →
        ∃ t, exec (.lockRetry c) s = .next t ∧ Stopped s t c 4 .rejected .lockOwner fl.entry.pos ∧ t.mem = s.mem)
      ∧ (lockState w = 1 → lockOwner w ≠ c → ∃ t, exec (.lockRetry c) s = .next t
        ∧ t.core c = k.setQueue 3 { k.queue 3 with prog := [
            if fl.tries ≤ 1 then { fl with held := false, tries := 0, link := none, result := result (lockEpoch w + 2 ^ 16) }
            else { fl with tries := fl.tries - 1 }] }
        ∧ t.mem = s.mem ∧ OtherCores c s t ∧ t.out = s.out))

/-- A store to a segment changes the page's byte, its copy under migration and its parity byte, and no other. A byte stored to a segment reads back at its physical address where the page's copy and parity byte lie elsewhere, and every byte of vault memory that is neither the addressed byte, nor its copy in the page's other frame while the page migrates, nor its stripe's parity byte reads as before. FILL, once its checks pass and its words can all be written, completes, and every byte outside those its range, its copies and its parity name reads as before. -/
def Obligations.SegmentStoresTouchOnlyTheirBytes : Prop :=
  (∀ (s : State) (pi seg ofs : Nat) (g : Segment) (b : Byte),
    let t := segPut s pi seg g ofs b
    let copy := (dualFrame s pi seg (ofs / 65536)).map (fun f => frameAddr f + ofs % 65536)
    let par := if g.protected' = true then (g.parity[ofs / 65536 / 7]?).map (fun f => frameAddr f + ofs % 65536) else none
    (∀ a, a ≠ g.phys ofs → copy ≠ some a → par ≠ some a → rdByte t.mem a = rdByte s.mem a)
    ∧ (copy ≠ some (g.phys ofs) → par ≠ some (g.phys ofs) → rdByte t.mem (g.phys ofs) = b)
    ∧ t.cores = s.cores ∧ t.helm = s.helm ∧ t.out = s.out)
  ∧ ∀ (s : State) (c unit : Nat) (dreg : Option Reg) (h : QEntry) (g : Segment), c < Config.nCores →
    let k := s.core c
    let d : NDesc := descAt k.scratch unit
    let p := s.corePat k
    k.onlyHead 3 h = true → h.op = .vault .fill unit dreg → firstStop (nmuChecks p .fill d unit) = none →
    (∀ i < d.count, xlateSeg p (segOf d.vbase) (ofsOf d.vbase + 64 * i) false true = .ok g) →
    ∃ t, exec (.engineCommandStart c 3) s = .next t ∧ t.out = s.out ∧ OtherCores c s t ∧ (t.core c).scratch = k.scratch
      ∧ ∀ a, (∀ i < 64 * d.count,
          let ofs := ofsOf d.vbase + i
          a ≠ g.phys ofs
          ∧ (dualFrame s (k.pat.getD 0) (segOf d.vbase) (ofs / 65536)).map (fun f => frameAddr f + ofs % 65536) ≠ some a
          ∧ (if g.protected' = true then (g.parity[ofs / 65536 / 7]?).map (fun f => frameAddr f + ofs % 65536) else none) ≠ some a) →
        rdByte t.mem a = rdByte s.mem a

/-- CTRADD without CLAIM draws NEXT, advances it, and is exhausted at LIMIT. At an NMU that may start it, a CTRADD on a counter without claims whose NEXT is below LIMIT completes its draw with result NEXT and stores NEXT := min(NEXT + increment, LIMIT) with its complement; at LIMIT the result is all ones with status 3 and vault memory is unchanged. -/
def Obligations.CounterDrawsAreConsecutive : Prop :=
  ∀ (s : State) (c unit w : Nat) (r : Reg) (h : QEntry), c < Config.nCores →
    let k := s.core c
    let d : NDesc := descAt k.scratch unit
    let p := s.corePat k
    let pi := k.pat.getD 0
    k.onlyHead 3 h = true → h.op = .vault .ctradd unit (some r) → firstStop (nmuChecks p .ctradd d unit) = none →
    ctrGet s p d.vbase = .ok w → ctrClaim w = false → ctrNotify s pi (recVault p d.vbase) d.vbase = none →
    (ctrNext w < ctrLimit w → ∃ t, exec (.engineCommandStart c 3) s = .next t
        ∧ ((t.core c).queue 3).prog.map (·.result) = [some (r, BitVec.ofNat 64 (ctrNext w))]
        ∧ (let n := min (ctrNext w + d.p0) (ctrLimit w)
           t.mem = (recPut (s.setCore c k) pi p d.vbase 8 (n + (2 ^ 32 - 1 - n) * 2 ^ 32)).mem) ∧ OtherCores c s t)
    ∧ (ctrLimit w ≤ ctrNext w → ∃ t, exec (.engineCommandStart c 3) s = .next t
        ∧ ((t.core c).queue 3).prog.map (·.result) = [some (r, BitVec.ofNat 64 (0xFFFFFFFF + 3 * 2 ^ 32))] ∧ t.mem = s.mem ∧ OtherCores c s t)

/-- rq(a, k) is a ÷ 2^k rounded to the nearest integer, ties to even. For every signed a and every integer k: with k at most zero rq(a, k) is a × 2^(−k); with k above zero it is within one half of a ÷ 2^k, and where it is exactly one half away it is even. -/
def Obligations.RequantisationRoundsHalfToEven : Prop :=
  ∀ (a k : Int),
    (k ≤ 0 → rq a k = a * 2 ^ (-k).toNat)
    ∧ (0 < k → |2 * (rq a k * 2 ^ k.toNat - a)| ≤ 2 ^ k.toNat
      ∧ (|2 * (rq a k * 2 ^ k.toNat - a)| = 2 ^ k.toNat → rq a k % 2 = 0))

/-- Requantising a PLANE group takes the smallest shift at which every element fits; a GUARDED command ends after at most three replays. For an output header with PLANE and a type other than I32, and a group of 32 elements that fit 32 bits: there is a shift e of at most 32 at which every rounded element fits the type and below which some element does not; if g = x + e − EBIAS lies in −128 to 127 the stored values are the rounded ones and the exponent is g, and otherwise there is none (SCALE_RANGE). A group of zeros takes e = 0, and a group of I32 output always takes e = 0. A GUARDED product that ends has made n replays with n at most 3, each a pre-shift of two bits; its exponent is the entry exponent plus 2n, its accumulators are the entry image rounded n times by two bits plus the product's sums at that exponent, and every one of them fits 32 bits. -/
def Obligations.ShiftsAreOnlyAsLargeAsNeeded : Prop :=
  (∀ (h : Hdr) (x : Int) (vs : List Int), h.uniform = false → h.etype ≤ 3 → vs.length = 32 → (∀ v ∈ vs, fitsS 32 v = true) →
    ∃ e : Nat, e ≤ 32 ∧ (h.etype = 3 → e = 0) ∧ ((∀ v ∈ vs, v = 0) → e = 0)
      ∧ (∀ v ∈ vs, fitsS (etBits h.etype) (rq v e) = true)
      ∧ (h.etype ≠ 3 → ∀ f < e, ∃ v ∈ vs, fitsS (etBits h.etype) (rq v f) = false)
      ∧ (-128 ≤ x + e - h.ebias ∧ x + e - h.ebias ≤ 127 →
          requant h x vs = some { vals := vs.map (fun v => rq v e), g := some (x + e - h.ebias), sat := 0 })
      ∧ (¬ (-128 ≤ x + e - h.ebias ∧ x + e - h.ebias ≤ 127) → requant h x vs = none))
  ∧ ∀ (a b : List (List KB)) (post : List Int → Int → Option Nat) (entry acc : List Int) (x y : Int) (n out : Nat),
    guarded a b post 3 0 entry x = .done acc y n out →
    n ≤ 3 ∧ y = x + 2 * n ∧ acc.all (fitsS 32) = true
      ∧ acc = List.zipWith (· + ·) (entry.map (fun v => (fun u => rq u 2)^[n] v)) (productSums false y a b)
      ∧ post acc y = some out

/-- TOPK selects the greatest scores, MERGE holds each entry once. The positions TOPK selects are at most k, in ascending order, and hold no score of −2^31; a position that holds another score and is not selected has k selected positions before it, each with a greater score or an equal score at a lower position. Merging two strictly ascending lists of entries gives a strictly ascending list that holds exactly the entries of either list, each with the tag 1 if only list A has it, 2 if only list B, 3 if both. -/
def Obligations.TopkAndMergeOrderTheirEntries : Prop :=
  (∀ (k : Nat) (xs : List Int),
    (topkPick k xs).length ≤ k ∧ (topkPick k xs).Pairwise (· < ·)
    ∧ (∀ i ∈ topkPick k xs, i < xs.length ∧ xs.getD i 0 ≠ -2147483648)
    ∧ ∀ j, j < xs.length → xs.getD j 0 ≠ -2147483648 → j ∉ topkPick k xs →
        (topkPick k xs).length = k
        ∧ ∀ i ∈ topkPick k xs, xs.getD j 0 < xs.getD i 0 ∨ (xs.getD i 0 = xs.getD j 0 ∧ i < j))
  ∧ ∀ (as bs : List (List Nat)) (r : Nat), (∀ a ∈ as, a.length = r) → (∀ b ∈ bs, b.length = r) → strictly as = true → strictly bs = true →
    let m := mergeLists (as.length + bs.length + 1) as bs
    strictly (m.map (·.1)) = true
    ∧ ∀ e, (((e, 1) ∈ m) ↔ (e ∈ as ∧ e ∉ bs)) ∧ (((e, 2) ∈ m) ↔ (e ∉ as ∧ e ∈ bs)) ∧ (((e, 3) ∈ m) ↔ (e ∈ as ∧ e ∈ bs))

/-- VAULT_READ_REQUEST, PATROL_READ and REFRESH_OPERATION. On a die that is not lost, a read of a clean codeword returns its 32 B, opens its row and changes no memory; a corrected one writes the decoded bytes back, returns them and is reported to Darning with the steps then in flight; one that fails twice, in a frame that nothing owns, stops the running core that issued it with VAULT_UE and changes no memory. A patrol read of a clean codeword only opens its row, and at byte 0 begins the pass again; a refresh of the bank whose turn it is closes the row of that bank, and the rotation goes on to the next; a bank out of its turn is not refreshed. -/
def Obligations.VaultReadsReturnOrStop : Prop :=
  ∀ (s : State) (v ofs : Nat) (issuer : Option (Nat × Fin 6)) (retry : DecodeOut), v < Config.nSites → ofs < Config.vaultBytes →
    issuerOk issuer = true →
    let a := v * Config.vaultBytes + ofs / 32 * 32
    s.lostAt a = false →
    (∃ t, exec (.vaultReadRequest v ofs issuer .clean retry) s = .next t ∧ t = (openRow s a).emit (.readData (rdNat s.mem a 32))
      ∧ Sparse.get none (t.vault v).openRows (physBank a) = some (physRow a) ∧ t.mem = s.mem ∧ t.cores = s.cores)
    ∧ (∀ b : BitVec 256, Sparse.get 0 (s.vault v).ceRows (physBank a * 8192 + physRow a) ≠ 15 →
      ∃ t, exec (.vaultReadRequest v ofs issuer (.corrected b) retry) s = .next t
        ∧ t.out = s.out ++ [.readData b.toNat] ∧ rdNat t.mem a 32 = b.toNat
        ∧ (∀ x, x < a ∨ a + 32 ≤ x → rdByte t.mem x = rdByte s.mem x) ∧ t.cores = s.cores
        ∧ t.helm.reports = s.helm.reports ++ [
          { num := s.helm.nextReport, addr := a, decoded := b, resolved := false,
            steps := (s.helm.steps.filter (fun u => decide (u.phase ≠ .committed))).map (fun u => (u.pat, u.seq)) }])
    ∧ (∀ c, issuer = some (c, 0) → (s.core c).st = .running → s.helm.migs = [] → ownerOf s (a / 65536) = .none →
      ∃ t, exec (.vaultReadRequest v ofs issuer .uncorrectable .uncorrectable) s = .next t
        ∧ Stopped s t c 0 .faulted .vaultUe (s.core c).pos ∧ t.mem = s.mem ∧ OtherCores c s t)
    ∧ exec (.patrolRead v ofs .clean retry) s
        = .next (openRow (if ofs < 32 then s.setVault v { s.vault v with ceRows := [] } else s) a)
    ∧ ∀ bank : Fin 64,
      (bank.val = (s.vault v).refreshed → exec (.refreshOperation v bank) s
        = .next (s.setVault v { s.vault v with openRows := Sparse.set none (s.vault v).openRows bank.val none,
                                               refreshed := (bank.val + 1) % 64 }))
      ∧ (bank.val ≠ (s.vault v).refreshed → exec (.refreshOperation v bank) s = .next s)

/-- VAULT_WRITE_REQUEST writes the bytes of its mask, and no others. On a die that is not lost and with no page under migration, a write of a whole codeword writes its 32 B without reading it; a masked one of a clean codeword writes the bytes whose mask bits are set and leaves the others; one whose read fails twice, in a frame that nothing owns and with no issuing core, writes nothing. No other byte of memory and no core changes. -/
def Obligations.VaultWritesTouchOnlyTheirCodeword : Prop :=
  ∀ (s : State) (v ofs : Nat) (data : BitVec 256) (mask : BitVec 32) (issuer : Option (Nat × Fin 6)) (first retry : DecodeOut),
    v < Config.nSites → ofs < Config.vaultBytes → issuerOk issuer = true →
    let a := v * Config.vaultBytes + ofs / 32 * 32
    s.lostAt a = false → s.helm.migs = [] →
    (∃ t, exec (.vaultWriteRequest v ofs data (BitVec.allOnes 32) issuer first retry) s = .next t ∧ rdNat t.mem a 32 = data.toNat
      ∧ (∀ x, x < a ∨ a + 32 ≤ x → rdByte t.mem x = rdByte s.mem x) ∧ t.cores = s.cores ∧ t.out = s.out)
    ∧ (mask ≠ BitVec.allOnes 32 →
      (∃ t, exec (.vaultWriteRequest v ofs data mask issuer .clean retry) s = .next t
        ∧ (∀ i, i < 32 → rdByte t.mem (a + i) = if mask.getLsbD i then BitVec.ofNat 8 (data.toNat / 256 ^ i) else rdByte s.mem (a + i))
        ∧ (∀ x, x < a ∨ a + 32 ≤ x → rdByte t.mem x = rdByte s.mem x) ∧ t.cores = s.cores ∧ t.out = s.out)
      ∧ (ownerOf s (a / 65536) = .none →
        ∃ t, exec (.vaultWriteRequest v ofs data mask none .uncorrectable .uncorrectable) s = .next t ∧ t.mem = s.mem
          ∧ t.cores = s.cores ∧ t.out = s.out))

/-- DARN_REBUILD and MISCORRECTION_RESOLVE. An uncorrectable word that waits at Darning, read by a patrol read, the first of its frame, with seven readable mates: the 64 B word takes the exclusive-or of its mates' bytes, no other byte changes, it waits no longer, and a read that waits for it returns its 32 B. A reported word of a protected segment that the stripe rebuilds to something else is written back, and every step of the Pattern that was in flight when the report was made is tainted; one that agrees is left. A number that no report has changes nothing. -/
def Obligations.LostWordsAreRebuilt : Prop :=
  ∀ (s : State) (v ofs n : Nat), v < Config.nSites → ofs < Config.vaultBytes →
    let a := v * Config.vaultBytes + ofs / 32 * 32
    (∀ w m, s.helm.darn.find? (fun d => decide (d.addr / 64 = a / 64)) = some w → w.issuer = none → w.write = none →
      stripeMates s (a / 65536) = some m → m.any (fun f => s.lostAt (frameAddr f)) = false → s.lostAt a = false →
      Sparse.get 0 s.helm.ueWords (a / 65536) = 0 →
      ∃ t, exec (.darnRebuild v ofs true) s = .next t ∧ rdBytes t.mem (a / 64 * 64) 64 = rebuilt s m (a % 65536 / 64 * 64) 64
        ∧ (∀ x, x < a / 64 * 64 ∨ a / 64 * 64 + 64 ≤ x → rdByte t.mem x = rdByte s.mem x)
        ∧ t.helm.darn = s.helm.darn.erase w ∧ t.cores = s.cores
        ∧ t.out = s.out ++ (if w.reply = true
            then [.readData (ofBytes (((rebuilt s m (a % 65536 / 64 * 64) 64).drop (w.addr % 64)).take 32))] else []))
    ∧ (s.helm.reports.find? (fun r => decide (r.num = n)) = none → exec (.miscorrectionResolve n) s = .next s)
    ∧ (∀ r pi i j m, s.helm.reports.find? (fun r => decide (r.num = n)) = some r → s.mend = true →
      ownerOf s (r.addr / 65536) = .seg pi i j → stripeMates s (r.addr / 65536) = some m →
      let good := rebuilt s m (r.addr % 65536) 32
      let rest := s.helm.reports.filter (fun x => decide (x.num ≠ n))
      (good = cwBytes r.decoded → exec (.miscorrectionResolve n) s = .next { s with helm := { s.helm with reports := rest } })
      ∧ (good ≠ cwBytes r.decoded →
        ∃ t, exec (.miscorrectionResolve n) s = .next t ∧ t.mem = wrBytes s.mem r.addr good ∧ t.helm.reports = rest ∧ t.cores = s.cores
          ∧ t.helm.steps = s.helm.steps.map (fun u => if u.pat = pi ∧ (pi, u.seq) ∈ r.steps then { u with taintAll := true } else u)))

/-- MIGRATION_START, MIGRATION_COPY_END, MIGRATION_END and SITE_TEST_END. A page that may migrate gets a frame in the named vault and becomes DUAL, and no byte moves; the end of the copy writes the page's bytes to the new frame, which enters the page list; once a step dispatched after it has halted on every region, and not before, the old frame is zeroed and DUAL ends. A SUSPECT site that fails its test is RETIRED, one that passes is not SUSPECT and has a strike; a test of a site that is not SUSPECT changes nothing of the placement. -/
def Obligations.MigrationsCopyAndSwapAPage : Prop :=
  ∀ (s : State) (pi seg page : Nat),
    (∀ toVault waits g f f', toVault < Config.nSites → s.segment pi seg = some g → g.frames[page]? = some f → s.runIn toVault 1 = some f' →
      s.place = true → g.protected' = true → g.pinned = false → countersIn s pi seg page = false → s.helm.migs = [] →
      (∀ x ∈ g.stripeOthers page, dieOfSite (x / 16384) ≠ dieOfSite toVault) → s.lostAt (frameAddr f) = false →
      s.dieIn (dieOfSite toVault) = true → s.helm.darn = [] →
      (2 ^ 21 < waits → ∃ t, exec (.migrationStart pi seg page toVault waits) s = .next t ∧ t.mem = s.mem ∧ t.cores = s.cores
        ∧ t.helm.migs = [{ pat := pi, seg := seg, page := page, oldF := f, newF := f', copied := false, waitSeq := 0, halted := false }]
        ∧ t.helm.frames = Sparse.set false s.helm.frames f' true)
      ∧ (waits ≤ 2 ^ 21 → exec (.migrationStart pi seg page toVault waits) s = .next s))
    ∧ (∀ m p g, s.migOf pi seg page = some m → s.pat pi = some p → s.segment pi seg = some g → m.copied = false →
      ∃ t, exec (.migrationCopyEnd pi seg page) s = .next t ∧ t.mem = wrBytes s.mem (frameAddr m.newF) (frameBytes s m.oldF)
        ∧ t.segment pi seg = some { g with frames := g.frames.set page m.newF } ∧ t.cores = s.cores ∧ t.out = s.out)
    ∧ (∀ m, s.migOf pi seg page = some m → (m.copied = false ∨ m.halted = false) → exec (.migrationEnd pi seg page) s = .next s)
    ∧ (∀ m, s.migOf pi seg page = some m → m.copied = true → m.halted = true →
      ∃ t, exec (.migrationEnd pi seg page) s = .next t ∧ m ∉ t.helm.migs ∧ t.cores = s.cores ∧ t.out = s.out
        ∧ (∀ x, x < frameAddr m.oldF ∨ frameAddr m.oldF + 65536 ≤ x → rdByte t.mem x = rdByte s.mem x)
        ∧ (∀ x, frameAddr m.oldF ≤ x → x < frameAddr m.oldF + 65536 → rdByte t.mem x = 0))
    ∧ ∀ site, site < Config.nSites →
      ((s.mark site).suspect = false → ∀ pass, exec (.siteTestEnd site pass) s = .next s)
      ∧ ((s.mark site).suspect = true →
        (∃ t, exec (.siteTestEnd site false) s = .next t ∧ t.mark site = { s.mark site with suspect := false, retired := true }
          ∧ t.helm.places = s.helm.places ∧ t.cores = s.cores ∧ t.mem = s.mem)
        ∧ ∃ t, exec (.siteTestEnd site true) s = .next t ∧ t.mark site = { s.mark site with suspect := false, strike := true }
          ∧ t.cores = s.cores ∧ t.mem = s.mem)

/-- COMPUTE_PLL_LOSS, REFCLK_LOSS, RESOURCE_HANG and PREEMPTION. The loss of a compute die's clock, with no Pattern resident and no stream active, takes the die out of service and puts every one of its cores into RESET; a die already out is left. On REFCLK_LOSS every Ethernet port and Nelzan link closes, admission stops and every core is reset; the device is FAILED but where it is in RECOVERY, and a second loss changes nothing. A hold of 65,536 cycles by an engine stops its running core with RESOURCE_HANG. A preemption is taken exactly at 64 cycles held and 128 waited, and keeps the holder's progress. -/
def Obligations.ClockLossesAndHangs : Prop :=
  ∀ (s : State),
    (∀ d, d < 24 → (s.dieIn d = false → exec (.computePllLoss d) s = .next s)
      ∧ (s.dieIn d = true → s.helm.pats = [] → s.helm.streams = [] → Sparse.wf Core.init s.cores = true →
        ∃ t, exec (.computePllLoss d) s = .next t ∧ t.dieIn d = false ∧ Sparse.get false t.helm.diesLost d = true
          ∧ (∀ c, c ∈ dieCores d → (t.core c).st = .reset) ∧ (∀ c, c ∉ dieCores d → t.core c = s.core c) ∧ t.mem = s.mem))
    ∧ (∀ cause, (s.refLost = true → exec (.refclkLoss cause) s = .next s)
      ∧ (s.refLost = false → ∃ t, exec (.refclkLoss cause) s = .next t ∧ t.refLost = true ∧ t.helm.admission = false
        ∧ (∀ p : Fin 8, t.ethUp p = false ∧ (t.links.get p).st = .down) ∧ (∀ c, (t.core c).st = .reset)
        ∧ (if s.start.stage = 7 ∨ s.start.stage = 8 then t.start = s.start
           else t.start.stage = 7 ∧ t.start.failcode = codeValue .refclkLoss) ∧ t.mem = s.mem))
    ∧ (∀ (res : Resource) (c : Nat) (eng : Fin 6), c < Config.nCores → (s.core c).st = .running →
      ∃ t, exec (.resourceHang res (.engine c eng)) s = .next t
        ∧ Stopped s t c eng.val .faulted .resourceHang (engineAt (s.core c) eng).1 ∧ OtherCores c s t ∧ t.mem = s.mem)
    ∧ ∀ (v held waited progress : Nat), v < Config.nSites →
      (held < 64 ∨ waited < 128 → exec (.preemption (.vaultPort v) held waited progress) s = .next s)
      ∧ (64 ≤ held → 128 ≤ waited → exec (.preemption (.vaultPort v) held waited progress) s
          = .next ({ s with preempted := s.preempted ++ [(Resource.vaultPort v, progress)] }.bump (vaultCtr v 0x20) 1))

/-- CANCEL, DRAINED, CLEAR, CANCEL_TIMEOUT and CORE_RESET. CANCEL ends all that a RUNNING core does and reports drained; an IDLE core empties its latch and reports. CLEAR brings a core that is neither in RESET nor STOPPED to IDLE, waiting for nothing, its queues and receive queues empty and their credits returned, its locks released, S0 to S12 zero and S13 to S15 kept, to start at its restart entry. The last drained report of the only step of a Pattern sends CLEAR to the cores named and ends the step. CANCEL_TIMEOUT stops a core that still owes its report. CORE_RESET keeps the command store and the entries, counts the queue epochs on, and gives the producer credits back. -/
def Obligations.CancelQuietsAndClearRestores : Prop :=
  ∀ (s : State) (c : Nat), c < Config.nCores →
    let k := s.core c
    (k.st = .running → k.cancelling = false →
      exec (.cancel c) s = .next ((s.setCore c { k.quiet with cancelling := true }).emit (.drained c)))
    ∧ (k.st = .idle → exec (.cancel c) s = .next ((s.setCore c { k with latch := none }).emit (.drained c)))
    ∧ (k.st = .reset ∨ k.st = .stopped → exec (.cancel c) s = .next s ∧ exec (.clear c) s = .next s)
    ∧ (k.st = .idle ∨ k.st = .running →
      ∃ t, exec (.clear c) s = .next t ∧ OtherCores c s t ∧ t.mem = s.mem ∧ c ∉ t.helm.clears
        ∧ (t.core c).st = .idle ∧ (t.core c).latch = none ∧ (t.core c).loops = [] ∧ (t.core c).wait = .none ∧ (t.core c).pend = []
        ∧ (t.core c).useRestart = true ∧ (t.core c).cancelling = false ∧ (t.core c).locks = [] ∧ (t.core c).scratch = k.scratch
        ∧ (∀ e, (t.core c).queue e = EngineQ.reset)
        ∧ (∀ q, ((t.core c).recvq q).items = [] ∧ ((t.core c).recvq q).ret = [] ∧ ((t.core c).recvq q).epoch = (k.recvq q).epoch)
        ∧ (∀ r : Reg, (t.core c).reg r = if r.val < 13 then 0 else k.reg r)
        ∧ (∀ l ∈ k.locks, .lockRelease c l.1 l.2 ∈ t.out)
        ∧ ∀ q, ∀ i ∈ (k.recvq q).items, .creditReturn i.src c q (k.recvq q).epoch (itemWords i.len) ∈ t.out)
    ∧ (∀ pi u l, k.pat = some pi → s.helm.steps = [u] → u.pat = pi → u.phase = .cancelling → u.toDrain = [c] → u.toClear = l → l ≠ [] →
      ∃ t, exec (.drained c) s = .next t ∧ t.helm.steps = [] ∧ (∀ d ∈ l, .clear d ∈ t.out) ∧ t.mem = s.mem ∧ t.cores = s.cores)
    ∧ (k.st ≠ .stopped → (∃ u ∈ s.helm.steps, c ∈ u.toDrain) →
      ∃ t, exec (.cancelTimeout c) s = .next t ∧ Stopped s t c 0 .faulted .cancelTimeout k.pos ∧ OtherCores c s t ∧ t.mem = s.mem)
    ∧ ∃ t, exec (.coreReset c) s = .next t ∧ t.core c = k.afterReset ∧ OtherCores c s t ∧ t.mem = s.mem
      ∧ (∀ e ∈ k.prod, .disconnect e.dest e.q c e.epoch e.credits ∈ t.out) ∧ ∀ l ∈ k.locks, .lockRelease c l.1 l.2 ∈ t.out

/-- REGION_RESET, LOCK_RELEASE, ORPHAN_NOTICE and ORPHAN_NOTICE_ACK. A region without absent cores comes out of its reset with every core IDLE (in RESET while the compute dies are held so), of its Pattern and about to start at its restart entry, its barriers without arrivals and the region not stopped; cores outside it stay. A lock of the Pattern for which the release was sent, or else of the core's own, is broken exactly where the core still holds it at the recorded epoch, and the vault counts it. An orphan notice is acknowledged, and the acknowledgement is struck off. -/
def Obligations.RegionsRestartAndLocksAreBroken : Prop :=
  ∀ (s : State),
    (∀ pi ri p r, s.pat pi = some p → p.regions[ri]? = some r → r.cores.any s.isAbsent = false →
      r.image.cores.length = r.cores.length →
      ∃ t, exec (.regionReset pi ri) s = .next t ∧ t.pat pi = some (p.setRegion ri { r with arrived := [], stopped := false })
        ∧ (∀ c ∈ r.cores, (t.core c).st = (if s.refLost = true then .reset else .idle) ∧ (t.core c).pat = some pi ∧ (t.core c).region = ri ∧ (t.core c).useRestart = true)
        ∧ (∀ c, c ∉ r.cores → t.core c = s.core c) ∧ t.mem = s.mem)
    ∧ (∀ c addr epoch pi w, c < Config.nCores →
      let sent := s.helm.frees.find? (fun e => decide (e.1 = c ∧ e.2.1 = addr ∧ e.2.2.1 = epoch))
      let s1 := { s with helm := { s.helm with frees := match sent with | none => s.helm.frees | some e => s.helm.frees.erase e } }
      (match sent with | none => (s.core c).pat | some e => some e.2.2.2) = some pi → lockGet s1 (s.pat pi) addr = .ok w →
      (lockOwner w = c → lockState w = 1 → lockEpoch w = epoch.toNat → exec (.lockRelease c addr epoch) s
          = .next ((lockPut s1 pi (s.pat pi) addr w (lockWord c epoch.toNat 2 true)).bump32 (vaultCtr (recVault (s.pat pi) addr) 0x3C) 1))
      ∧ (lockOwner w ≠ c ∨ lockState w ≠ 1 ∨ lockEpoch w ≠ epoch.toNat → exec (.lockRelease c addr epoch) s = .next s1))
    ∧ ∀ v c, v < Config.nSites → c < Config.nCores →
      (∃ t, exec (.orphanNotice v c) s = .next t ∧ t.out = s.out ++ [.orphanAck v c] ∧ t.cores = s.cores ∧ t.helm = s.helm)
      ∧ exec (.orphanNoticeAck v c) s = .next (match s.helm.acks.find? (fun a => decide (a.1 = v ∧ a.2.1 = c)) with
          | none => s
          | some a => { s with helm := { s.helm with acks := s.helm.acks.erase a } })

/-- STEP_FORM, HALT_REPORT and OUTPUT_GATE. Where a step may be dispatched, no stopped step of the Pattern waits and the slot table leads to a READY stream, STEP_FORM adds one step, takes the Pattern's next STEPSEQ, and sends a dispatch record with it to every core of the Pattern; without a READY stream it changes nothing. A halt report that leaves others open is only noted; the last one commits the step, and neither memory nor a core changes. At the gate an untainted step leaves the list once no report is open; its only stream, neither at its end nor at its limit, is READY with its output kept; under MEND a tainted step waits for its replay. -/
def Obligations.StepsAreFormedCommittedAndGated : Prop :=
  ∀ (s : State) (pi : Nat) (p : Pattern), s.pat pi = some p →
    ((s.readyOf pi).isEmpty = true → exec (.stepForm pi) s = .next s)
    ∧ (∀ lead tbl skipped, (∀ e ∈ s.readyOf pi, e.2.keyOk = true) → mayDispatch s pi p = true →
      (∀ u ∈ s.helm.steps, u.pat ≠ pi ∨ u.phase ≠ .stopped) →
      leadWalk (s.helm.sst.get p.helm) (fun c => (s.readyOf pi).any (fun e => decide (e.2.sclass.val = c))) 512 p.ptr p.sst 0
        = some (lead, tbl, skipped) →
      ∃ t q, exec (.stepForm pi) s = .next t ∧ t.pat pi = some q ∧ q.nextSeq = p.nextSeq + 1 ∧ q.ptr = (lead + 1) % 256
        ∧ t.helm.steps.length = s.helm.steps.length + 1
        ∧ ∀ c ∈ p.coresOf, ∃ rec, .dispatch c rec ∈ t.out ∧ rec.stepSeq = p.nextSeq ∧ rec.lclass = tbl.getD lead 0)
    ∧ (∀ c u, c < Config.nCores → (s.core c).pat = some pi → s.helm.steps = [u] → u.pat = pi → u.phase = .running → c ∈ u.toHalt →
      let left := u.toHalt.filter (fun x => decide (x ≠ c))
      (left ≠ [] → exec (.haltReport c) s = .next (s.setSteps [{ u with toHalt := left }]))
      ∧ (left = [] → ∃ t o, exec (.haltReport c) s = .next t ∧ t.mem = s.mem ∧ t.cores = s.cores
        ∧ t.helm.steps = [{ u with toHalt := [], phase := .committed, commitReport := s.helm.nextReport, outputs := o }]))
    ∧ ∀ u seq, s.helm.steps = [u] → u.pat = pi → u.phase = .committed → u.seq = seq → p.updateHold = [] →
      (reportsDone s u = false → exec (.outputGate pi seq) s = .next s)
      ∧ (reportsDone s u = true → u.taintAll = true → s.mend = true → u.replays < 2 →
        ∃ t, exec (.outputGate pi seq) s = .next t
          ∧ t.helm.steps = [{ u with phase := .stopped, outputs := [], taintAll := false, taintSlots := [] }] ∧ t.out = s.out)
      ∧ (∀ b x row, reportsDone s u = true → u.taintAll = false → u.batch = [b] → u.taintSlots = [] → u.again = false →
        s.stream b.slot = some x → x.st ≠ .ending → x.keyOk = true → x.lost = [] → x.pos < x.limit →
        u.outputs = [(b.slot, row)] → (row.headD 0).getLsbD 0 = false →
        ∃ t, exec (.outputGate pi seq) s = .next t ∧ t.helm.steps = [] ∧ t.mem = s.mem
          ∧ t.stream b.slot = some { x with st := .ready, lastOut := row.drop 64 })

/-- STEP_CANCEL, REGION_STOP and STEP_REPLAY. The only running step of a Pattern with no stopped region is cancelled when every stream in it is ENDING or the Pattern is being unloaded: every core of the Pattern is sent CANCEL, and the step waits for their reports; otherwise nothing changes. Under MEND a faulted core of a region that is not stopped yet stops it: the loader is told to reset it, and with a part of a step of the Pattern still running on it every other core of the region that ran or was IDLE is STOPPED. A stopped step whose cores are IDLE and whose streams all wait for it is dispatched once more, under a new STEPSEQ, to cores that start at their restart entries, with every stream of it where its rows fit a bucket. -/
def Obligations.StepsAreCancelledStoppedAndReplayed : Prop :=
  ∀ (s : State) (pi : Nat) (p : Pattern), s.pat pi = some p →
    (∀ u seq, s.helm.steps = [u] → u.pat = pi → u.phase = .running → u.seq = seq → p.coresOf ≠ [] → (∀ r ∈ p.regions, r.stopped = false) →
      ((∀ q ∈ u.slots, ∃ x, s.stream q = some x ∧ x.st = .ending) ∨ p.unloading = true →
        ∃ t, exec (.stepCancel pi seq) s = .next t ∧ t.out = s.out ++ p.coresOf.map .cancel ∧ t.mem = s.mem ∧ t.cores = s.cores
          ∧ t.helm.steps = [{ u with phase := .cancelling, toDrain := p.coresOf, toClear := p.coresOf }])
      ∧ ((∃ q ∈ u.slots, ∃ x, s.stream q = some x ∧ x.st ≠ .ending) → p.unloading = false → exec (.stepCancel pi seq) s = .next s))
    ∧ (∀ c r, c < Config.nCores → (s.core c).pat = some pi → p.regions[(s.core c).region]? = some r →
      ((s.core c).st ≠ .stopped → exec (.regionStop c) s = .next s)
      ∧ ((s.core c).st = .stopped → r.stopped = false → faultsIn s r.cores ≠ [] → s.mend = true →
        ∃ t q, exec (.regionStop c) s = .next t ∧ t.pat pi = some q ∧ (q.regions[(s.core c).region]?).map (·.stopped) = some true
          ∧ .regionReset pi (s.core c).region ∈ t.out
          ∧ (s.runs pi r.cores = true →
            ∀ d ∈ r.cores, (s.core d).st = .running ∨ (s.core d).st = .idle → (t.core d).st = .stopped)))
    ∧ ∀ u seq, s.helm.steps = [u] → u.pat = pi → u.phase = .stopped → u.seq = seq → u.toDrain = [] → u.toClear = [] →
      mayDispatch s pi { p with updateHold := [] } = true → (∀ c ∈ p.coresOf, (s.core c).st = .idle) → u.batch ≠ [] →
      0 < bucketMax p → (∀ b ∈ u.batch, 0 < b.ntok) →
      (∀ b ∈ u.batch, ∃ x, s.stream b.slot = some x ∧ x.st = .replay ∧ x.pos = b.pos0 ∧ x.lost = []) →
      ∃ t u', exec (.stepReplay pi seq) s = .next t ∧ t.helm.steps = [u'] ∧ u'.replays = u.replays + 1 ∧ u'.phase = .running
        ∧ u'.seq = p.nextSeq ∧ u'.toHalt = p.coresOf
        ∧ ((u.batch.map (·.ntok)).sum ≤ bucketMax p → u'.batch.map (·.slot) = u.batch.map (·.slot)) ∧ ∀ c ∈ p.coresOf, (t.core c).useRestart = true
          ∧ ∃ rec, .dispatch c rec ∈ t.out ∧ rec.stepSeq = p.nextSeq

/-- REQ_ITEM, ADMISSION_CYCLE, STREAM_RELEASE and ZEROING_COMPLETE. An ingress queue whose pointer copies disagree is emptied under a new epoch with all its credits, and its requests that wait for admission are taken back with it. While requests are admitted, the oldest item of a sound queue leaves it and gives its credits back; one that passes the checks goes on to admission, and one that fails is refused with the code of its check; an empty queue, or one while admission is closed, stays as it is. An admission cycle, while admission is open and the device is ACTIVE, takes every checked request, and changes no core; otherwise nothing changes. A single checked request to a resident Pattern takes the next ASEQ and SID, and with KV room, a free slot and a sound staging key it is at once the READY stream of the slot. An ENDING stream in no step gives up its slot, and its KV pages and page table go to be zeroed with its reservation; any other stays. When they have been zeroed, they read as zero, where no landing-zone space is returned with them, and the KV reservation is given back. -/
def Obligations.StreamsAreAdmittedAndReleased : Prop :=
  ∀ (s : State),
    (∀ (h : Fin 2) (pd : Fin 4) (ok : Bool),
      let q := (s.pd pd).ingress.get h
      (ok = false ∨ q.ptr ≠ q.ptr2 → ∃ t, exec (.reqItem h pd ok) s = .next t ∧ t.cores = s.cores
        ∧ t.helm.checked = s.helm.checked.filter (fun e => !decide (e.1.pd = pd ∧ e.2 = h.val))
        ∧ ((t.pd pd).ingress.get h).items = [] ∧ ((t.pd pd).ingress.get h).epoch = q.epoch + 1
        ∧ ((t.pd pd).ingress.get h).credits = Ingress.init.credits)
      ∧ (q.ptr = q.ptr2 → s.helm.admission = false ∨ q.items = [] → exec (.reqItem h pd true) s = .next s)
      ∧ (∀ i rest, q.ptr = q.ptr2 → s.helm.admission = true → q.items = i :: rest →
        let s1 := s.setPd pd { s.pd pd with ingress := (s.pd pd).ingress.set h.val (q.keep rest) h.isLt }
        ((s1.pd pd).ingress.get h).items = rest ∧ ((s1.pd pd).ingress.get h).credits = q.credits + 3
        ∧ (reqCheck s1 i = none →
          exec (.reqItem h pd true) s = .next { s1 with helm := { s1.helm with checked := s1.helm.checked ++ [(i, h.val)] } })
        ∧ (∀ code, reqCheck s1 i = some code → exec (.reqItem h pd true) s = .next (refuseReq s1 h.val i code)
          ∧ (refuseReq s1 h.val i code).helm.checked = s.helm.checked ∧ (refuseReq s1 h.val i code).cores = s.cores)))
    ∧ (s.helm.admission = false ∨ s.pwr.entering = true ∨ s.pwr.state ≠ 0 → exec .admissionCycle s = .next s)
    ∧ (s.helm.admission = true → s.pwr.entering = false → s.pwr.state = 0 →
      ∃ t, exec .admissionCycle s = .next t ∧ t.helm.checked = [] ∧ t.cores = s.cores)
    ∧ (∀ i h pi p q, s.helm.admission = true → s.pwr.entering = false → s.pwr.state = 0 → s.helm.parked = [] → s.helm.resume = [] →
      s.helm.checked = [(i, h)] → matchPat s i.inner.pattern = some (pi, p) → s.pat pi = some p →
      ∃ t, exec .admissionCycle s = .next t ∧ t.helm.checked = [] ∧ t.helm.nextAseq = s.helm.nextAseq + 1
        ∧ t.helm.nextSid = s.helm.nextSid + 1 ∧ t.cores = s.cores
        ∧ ((∀ y, s.conn (pdOf i.port) i.crec = some y → y.stagingOk = true) → s.helm.kvReserved + kvNeed p i.inner.limit ≤ s.kvPool →
          s.lowSlot (if s.freeSlots 0 < s.freeSlots 1 then 1 else 0) = some q →
          ∃ x, t.stream q = some x ∧ x.sid = s.helm.nextSid ∧ x.aseq = s.helm.nextAseq ∧ x.st = .ready ∧ x.pat = pi
            ∧ .activation q ∈ t.out))
    ∧ (∀ slot x p, s.stream slot = some x → s.pat x.pat = some p → Sparse.wf none s.helm.streams = true →
      let ranges := x.pages.map (fun e => (e.2.2, p.manifest.params.kvpitch / 256)) ++ [(x.ptVault * 16384 + x.ptFrame, ptFrames p x)]
      (x.st ≠ .ending ∨ s.inStep slot = true → exec (.streamRelease slot) s = .next s)
      ∧ (x.st = .ending → s.inStep slot = false → ∃ t, exec (.streamRelease slot) s = .next t ∧ t.stream slot = none
        ∧ t.out = s.out ++ [.zeroing x.sid ranges] ∧ t.mem = s.mem ∧ t.cores = s.cores
        ∧ t.helm.zeroing = s.helm.zeroing
          ++ [{ sid := x.sid, ranges := ranges, lzBase := x.lzBase, lzLen := x.lzLen, kv := kvNeed p x.limit }]))
    ∧ ∀ sid z, s.helm.zeroing.find? (fun z => decide (z.sid = sid)) = some z →
      ∃ t, exec (.zeroingComplete sid) s = .next t ∧ t.helm.zeroing = s.helm.zeroing.erase z
        ∧ t.helm.kvReserved = s.helm.kvReserved - z.kv ∧ t.cores = s.cores
        ∧ (z.lzLen = 0 → ∀ r ∈ z.ranges, ∀ x, frameAddr r.1 ≤ x → x < frameAddr r.1 + r.2 * 65536 → rdByte t.mem x = 0)

/-- EVENT_RECORD_ARRIVAL, FOLD_WINDOW_END, CHALLENGE_EXPIRY and the Lodestar pair. The oldest record of a block is logged under the next event number, which rises by one, with the count of records lost before it; a fault, rejection or refusal raises FAULT_EVENT. The end of a folding window that holds occurrences makes one record of them. A heartbeat hands over the last event number, the challenge and the committed count. A takeover makes the other Lodestar active with no standby and a new challenge, takes the host link down and logs one event; the loss of the standby leaves the active; a silent port die closes its ports and links. -/
def Obligations.EventsAreLoggedInOrder : Prop :=
  ∀ (s : State),
    (∀ b r rs, b < 32 → s.lode.activeOk = true → (s.buf b).recs = r :: rs →
      ∃ t, exec (.eventRecordArrival b) s = .next t ∧ t.log.evNext = s.log.evNext + 1
        ∧ Sparse.get none t.log.log (s.log.evNext.toNat % 65536)
            = some { r with evseq := s.log.evNext, lost := min 255 (s.buf b).lost }
        ∧ (t.buf b).recs = rs ∧ (t.buf b).lost = 0 ∧ (r.kind ≠ .event → t.host.irqBits.getLsbD 3 = true)
        ∧ t.cores = s.cores ∧ t.mem = s.mem)
    ∧ (∀ b code w, b < 32 → Sparse.get none (s.buf b).wins code = some w → w.count ≠ 0 → (s.buf b).recs.length < 16 →
      exec (.foldWindowEnd b code) s = .next (s.setBuf b
        { s.buf b with recs := (s.buf b).recs ++ [{ w.last with repeats := min 65535 w.count }],
                       wins := Sparse.set none (s.buf b).wins code (some { w with count := 0 }) }))
    ∧ (∀ b code w, b < 32 → Sparse.get none (s.buf b).wins code = some w → w.count = 0 →
      exec (.foldWindowEnd b code) s = .next (s.setBuf b { s.buf b with wins := Sparse.set none (s.buf b).wins code none }))
    ∧ (s.lode.activeOk = true → ∃ t, exec .challengeExpiry s = .next t ∧ t.lode.challenge = Config.challenge s.drawn
      ∧ t.host.chalSeq = s.host.chalSeq + 1 ∧ t.drawn = s.drawn + 1 ∧ t.cores = s.cores ∧ t.mem = s.mem ∧ t.keys = s.keys)
    ∧ (s.lode.activeOk = true → s.lode.standbyOk = true →
      (∃ t, exec .heartbeat s = .next t ∧ t.out = s.out ++ [.heartbeat] ∧ t.lode.beatEvseq = s.log.evNext - 1
        ∧ t.lode.beatChallenge = s.lode.challenge ∧ t.lode.beatCommitted = s.lode.committed ∧ t.cores = s.cores ∧ t.host = s.host)
      ∧ (∀ self, ∃ t, exec (.lodestarTakeover self) s = .next t ∧ t.lode.active = otherLode s.lode.active ∧ t.lode.activeOk = true
        ∧ t.lode.standbyOk = false ∧ t.lode.bells = [] ∧ t.lode.challenge = Config.challenge s.drawn ∧ t.host.linkUp = false
        ∧ .pcieTrain ∈ t.out ∧ t.log.evNext = s.log.evNext + 1 ∧ t.cores = s.cores ∧ t.mem = s.mem ∧ t.keys = s.keys)
      ∧ ∃ t, exec .lodestarStandbyLost s = .next t ∧ t.lode = { s.lode with standbyOk := false } ∧ t.cores = s.cores ∧ t.mem = s.mem)
    ∧ (s.lode.activeOk = true → s.lode.standbyOk = false →
      exec (.lodestarTakeover false) s = .next s ∧ exec .lodestarStandbyLost s = .next s
      ∧ ∃ t, exec (.lodestarTakeover true) s = .next t ∧ t.lode.activeOk = false ∧ t.host.linkUp = false ∧ t.cores = s.cores)
    ∧ ∀ k : Fin 4, (s.lode.activeOk = true → exec (.lodestarSilence k) s = .next s)
      ∧ (s.lode.activeOk = false → ∃ t, exec (.lodestarSilence k) s = .next t ∧ t.lode.silent.get k = true ∧ t.cores = s.cores
        ∧ ∀ p : Fin 8, if p.val / 2 = k.val then t.ethUp p = false ∧ (t.links.get p).st = .down
            else t.ports.get p = s.ports.get p ∧ t.links.get p = s.links.get p)

/-- KEY_INSTALL, KEY_REMOVE, REG_WRITE, REG_READ, PATTERN_UNLOAD, WARM_RESTART, LODESTAR_SWITCH and attestation. With an active Lodestar: a command that fails one of checks 1 to 7 ends with the code of the first that fails and without any other effect; one that passes has its effect and ends with SC_OK. The end of a command whose mailbox stands writes the result, clears CMD_BUSY, sets MBX_DONE and issues a new challenge, and changes neither keys, Patterns nor cores. A warm restart begins start-up again, but where the device is FAILED or has lost its reference, which only a cold reset or RST_IN_N ends. The second doorbell sets ATT_BUSY once, and the report that ends it is of the device as it stands. -/
def Obligations.SealedCommandsTakeEffectOnce : Prop :=
  ∀ (s : State) (c : Sealed), s.lode.activeOk = true →
    (∀ op code data tk, s.lode.bells = [] ∨ (s.lode.bells.head?.map (·.2)) = some true →
      let t := sealedEnd s op code data tk
      t.host.result = resultBytes op code tk data ∧ t.host.cmdBusy = false ∧ t.host.irqBits.getLsbD 0 = true
        ∧ t.lode.challenge = Config.challenge s.drawn ∧ t.host.chalSeq = s.host.chalSeq + 1 ∧ t.lode.bells = s.lode.bells.drop 1
        ∧ t.keys = s.keys ∧ t.helm = s.helm ∧ t.cores = s.cores ∧ t.mem = s.mem)
    ∧ (∀ w code, sealedCheck s c 1 = some code → exec (.keyInstall c w) s = .next (sealedEnd s c.opcode code [] false))
    ∧ (∀ w, sealedCheck s c 1 = none → (keyPayloadOf w).keyid = 0 ∨ (keyPayloadOf w).pki = 0 ∨ (keyPayloadOf w).reservedOk = false →
      exec (.keyInstall c w) s = .next (sealedEnd s 1 .scFormat [] false))
    ∧ (∀ w n, sealedCheck s c 1 = none →
      let p := keyPayloadOf w
      p.keyid ≠ 0 → p.pki ≠ 0 → p.reservedOk = true →
      (∀ k ∈ s.keys, k.payload.keyid ≠ p.keyid) → (List.range 256).find? (fun n => !s.keys.any (fun k => decide (k.slot = n))) = some n →
      exec (.keyInstall c w) s = .next (sealedEnd { s with keys := s.keys ++ [{ slot := n, payload := p }] } 1 .scOk [] false))
    ∧ (∀ id, sealedCheck s c 2 = none → exec (.keyRemove c id) s
        = .next (sealedEnd { s with keys := s.keys.filter (fun k => !decide (k.payload.keyid = id)) } 2 .scOk [] false))
    ∧ (∀ r v, r < 32 → sealedCheck s c 3 = none → 2 ≤ s.start.stage → s.start.stage ≠ 8 →
      ∃ t, exec (.regWrite c [(BitVec.ofNat 32 (0x220000 + 4 * r), v)]) s = .next t
        ∧ t.reg.staged = Sparse.set none s.reg.staged (0x220000 + 4 * r) (some v) ∧ t.helm = s.helm ∧ t.cores = s.cores)
    ∧ (∀ pairs, sealedCheck s c 3 = none → pairs.all (fun e => regWritable e.1) = false →
      ∃ t, exec (.regWrite c pairs) s = .next t ∧ t.reg.staged = s.reg.staged ∧ t.helm = s.helm ∧ t.cores = s.cores)
    ∧ (∀ o, sealedCheck s c 4 = none → exec (.regRead c [o]) s
        = .next (sealedEnd (readWord s .priv o).1 4 .scOk (toBytes 4 (readWord s .priv o).2) false))
    ∧ (∀ h pi p, sealedCheck s c 7 = none → s.patOfHash h = some pi → s.pat pi = some p → p.resident = true →
      ∃ t, exec (.patternUnload c h) s = .next t ∧ (t.pat pi).map (·.unloading) = some true ∧ t.cores = s.cores)
    ∧ (∀ h, sealedCheck s c 8 = none → ∃ t, exec (.warmRestart c h) s = .next t ∧ t.helm.pats = [] ∧ t.helm.streams = [] ∧ t.cores = []
      ∧ t.keys = [] ∧ t.power.dPwr = 16
      ∧ (if s.refLost = true ∨ s.start.stage = 7 then t.start = s.start ∧ t.refLost = s.refLost
         else t.start.stage = 0 ∧ t.start.fast = true) ∧ t.flashA = s.flashA ∧ t.flashB = s.flashB)
    ∧ (sealedCheck s c 9 = none →
      (s.lode.standbyOk = true → ∃ t, exec (.lodestarSwitch c) s = .next t ∧ t.lode.active = otherLode s.lode.active
        ∧ t.lode.standbyOk = false ∧ t.cores = s.cores ∧ t.keys = s.keys)
      ∧ (s.lode.standbyOk = false → exec (.lodestarSwitch c) s = .next (sealedEnd s 9 .scNostandby [] false)))
    ∧ (s.host.attBusy = false →
        exec .attestationRequest s = .next { s with host := { s.host with attBusy := true, ignored := false } })
    ∧ (s.host.attBusy = true → exec .attestationRequest s = .next { s with host := { s.host with ignored := true } })
    ∧ ∀ ch, s.chart = some ch → s.host.attBusy = true → ∃ t, exec .attestationDone s = .next t ∧ t.host.report = reportBytes s ch
      ∧ t.host.attBusy = false ∧ t.host.irqBits.getLsbD 1 = true ∧ t.lode.rseq = s.lode.rseq + 1 ∧ t.cores = s.cores

/-- An RSQ register: SEQ counts events, a read shows one moment, and a write clears only what SEQ matches. Each event that sets a status bit raises SEQ by one modulo 2^16, whether or not the bit was set, and sets that bit alone. A read of HOST_IRQ_STATUS returns SEQ in [31:16] and the bits in [15:0]. A write whose [31:16] equal SEQ clears the bits named in [15:0] and keeps SEQ; any other changes nothing, and neither touches the event log. After a multiple of 65,536 events SEQ is the same again, so that the write clears. -/
def Obligations.InterruptStatusIsClearedBySeq : Prop :=
  ∀ (s : State) (v : W32),
    (∀ n, n < 16 → (raiseIrq s n).host.irqSeq = s.host.irqSeq + 1
      ∧ ∀ i, (raiseIrq s n).host.irqBits.getLsbD i = (s.host.irqBits.getLsbD i || decide (i = n)))
    ∧ readWord s .host 0x100000 = (s, s.host.irqSeq.toNat * 2 ^ 16 + s.host.irqBits.toNat)
    ∧ (v.toNat / 2 ^ 16 = s.host.irqSeq.toNat →
      ∃ t, exec (.irqStatusClear v) s = .next t ∧ t.host.irqSeq = s.host.irqSeq
        ∧ (∀ i, i < 16 → t.host.irqBits.getLsbD i = (s.host.irqBits.getLsbD i && !v.getLsbD i))
        ∧ t.log = s.log ∧ { t with host := s.host } = s)
    ∧ (v.toNat / 2 ^ 16 ≠ s.host.irqSeq.toNat → exec (.irqStatusClear v) s = .next s)
    ∧ ∀ m n, n < 16 → ((List.replicate (65536 * m) n).foldl raiseIrq s).host.irqSeq = s.host.irqSeq

/-- Register reads and writes, strobes, snapshots and the telemetry controls. A write to a staged register is held; a second one replaces the first; a write that does not cover its DWORD changes nothing but the count of bad accesses. A strobe of the host reaches group 0 alone, and one of a privileged group is denied and counted; a privileged strobe sends all that was staged of its group to the group's blocks, where the oldest strobe of a group is applied as a whole: thresholds out of range leave those in force. The low word of a 64-bit counter latches its high word. An access to a privileged register reads zero and is counted. BLK_SNAP copies every counter of its block, and a SNAP of the global block goes to every other block. A masked write of ENABLE sets it while TEL_SIZE is not reserved; one that clears it leaves TEL_HEAD and TEL_TAIL; TEL_TAIL takes a value that leaves at most N records unread, and any other is ignored and counted. -/
def Obligations.RegistersAreStagedStrobedAndCopied : Prop :=
  ∀ (s : State),
    (∀ v, exec (.stagedWrite .host 0x100010 v) s = .next (stageReg s 0x100010 v)
      ∧ exec (.registerWrite .host 0x100010 v true) s = .next (stageReg s 0x100010 v)
      ∧ ∀ vw o, exec (.registerWrite vw o v false) s = .next (badHost s))
    ∧ (s.stagedFor 0 1 = [] → ∀ vw, vw ≠ .bar2 → exec (.strobeTelemetry vw) s = .next s)
    ∧ (s.stagedFor 0 1 ≠ [] → ∀ vw, vw ≠ .bar2 → ∃ t, exec (.strobeTelemetry vw) s = .next t ∧ t.out = s.out ++ [.strobe 0]
      ∧ t.reg.strobed = s.reg.strobed ++ [(1, 0, s.stagedFor 0 1)] ∧ t.stagedFor 0 1 = [] ∧ t.host = s.host)
    ∧ (∀ p, exec (.strobeSlotTable .host) s = .next (denyHost s) ∧ exec (.strobeIngThresh .host) s = .next (denyHost s)
      ∧ exec (.strobePortAddr .host p) s = .next (denyHost s))
    ∧ (s.stagedFor 4 2 ≠ [] → ∃ t, exec (.strobeSlotTable .priv) s = .next t
      ∧ t.reg.strobed = s.reg.strobed ++ [(2, 4, s.stagedFor 4 2), (3, 4, s.stagedFor 4 3)] ∧ t.stagedFor 4 2 = [] ∧ t.helm = s.helm)
    ∧ (∀ k : Fin 4, s.stagedFor 5 (4 + k.val) ≠ [] → ∃ t, exec (.strobeIngThresh .priv) s = .next t
      ∧ (4 + k.val, 5, s.stagedFor 5 (4 + k.val)) ∈ t.reg.strobed ∧ t.stagedFor 5 (4 + k.val) = [] ∧ t.pds = s.pds)
    ∧ (∀ p : Fin 8, s.stagedFor (8 + p.val) (4 + p.val / 2) ≠ [] → ∃ t, exec (.strobePortAddr .priv p) s = .next t
      ∧ t.reg.strobed = s.reg.strobed ++ [(4 + p.val / 2, 8 + p.val, s.stagedFor (8 + p.val) (4 + p.val / 2))] ∧ t.ports = s.ports)
    ∧ (∀ b g e, b < 32 → s.reg.strobed.find? (fun e => decide (e.1 = b ∧ e.2.1 = g)) = some e →
      exec (.stagedApply b g) s = .next (applyGroup { s with reg := { s.reg with strobed := s.reg.strobed.erase e } } b g e.2.2))
    ∧ (∀ (k : Fin 4) (o : Nat) (v : W32), (applyThresh s k [(o, v)]).pd k =
      if threshOk (bitsOf v.toNat 0 11) = true ∧ threshOk (bitsOf v.toNat 16 11) = true
        then { s.pd k with threshA := bitsOf v.toNat 0 11, threshB := bitsOf v.toNat 16 11 } else s.pd k)
    ∧ (∀ vw (o : W32) b, vw ≠ .bar2 → blockOf (o.toNat / 4 * 4) = some b → s.serves b = true →
      let rel := o.toNat / 4 * 4 - blockBase b
      rel < 0x10000 → ctrBits b rel = 64 → timeDriven b rel = false → s.recordOff b rel = false →
      exec (.c64LoRead vw o) s = .next ((latchShadow s vw (o.toNat / 4 * 4) (BitVec.ofNat 32 ((s.countNow b rel).toNat / 2 ^ 32))).emit
        (.readData ((s.countNow b rel).toNat % 2 ^ 32))))
    ∧ (∀ (o : W32) b, blockOf (o.toNat / 4 * 4) = some b → s.serves b = true → 0x20000 ≤ o.toNat / 4 * 4 - blockBase b →
      (s.privReg b (o.toNat / 4 * 4 - blockBase b)).isSome = true →
      exec (.bar0PrivAccess o true) s = .next (denyHost s) ∧ exec (.bar0PrivAccess o false) s = .next ((denyHost s).emit (.readData 0)))
    ∧ (∀ b, b < 32 → s.serves b = true →
      exec (.blockSnapArrival b) s = .next (snapBlock s b) ∧ (b ≠ 0 → exec (.blkSnap b) s = .next (snapBlock s b))
      ∧ (b = 0 → exec (.blkSnap b) s = .next ((snapBlock s 0).emits ((List.range 31).map (fun n => .snap (n + 1))))))
    ∧ (∀ b rel, 4 ≤ b → b < 8 → ctrBits b rel ≠ 0 → Sparse.wf 0 s.reg.ctrs = true → Sparse.wf 0 s.reg.held = true →
      (snapBlock s b).ctrHeld b rel = s.countNow b rel)
    ∧ ∀ v : W32,
      (v.getLsbD 0 = true → v.getLsbD 16 = true →
        (s.host.telN = 0 → exec (.telEnableSet v) s = .next s)
        ∧ (s.host.telN ≠ 0 → ∃ n, exec (.telEnableSet v) s = .next { s with host := { s.host with telEnable := true, telThresh := n } }))
      ∧ (v.getLsbD 0 = false → v.getLsbD 16 = true →
        ∃ n, exec (.telEnableClear v) s = .next { s with host := { s.host with telEnable := false, telThresh := n } })
      ∧ ((s.host.telHead - v).toNat ≤ s.host.telN → exec (.telTailWrite v) s = .next { s with host := { s.host with telTail := v } })
      ∧ (s.host.telN < (s.host.telHead - v).toNat → exec (.telTailWrite v) s = .next (badHost s))

/-- FLASH_ERASE, FLASH_PROGRAM, FLASH_OP_END and FLASH_OP_TIMEOUT. An operation on a device that may be written starts, with its address aligned to 64 KiB for an erase and 4 KiB for a page, and sets BUSY; while one runs a further one is ignored; on a device that may not be written none starts and DENIED is set. Its end leaves the erased bytes at 0xFF or the page's bytes as programmed and every other byte of both devices as it was; so does its timeout for the bytes outside the range, with TIMEOUT set. -/
def Obligations.FlashOperationsChangeOnlyTheirBytes : Prop :=
  ∀ (s : State) (dev : Fin 2),
    (s.host.flBusy = true → exec (.flashErase dev) s = .next s ∧ exec (.flashProgram dev) s = .next s)
    ∧ (s.host.flBusy = false → s.flashOp = none → s.flashTakes dev = true →
      (∃ t, exec (.flashErase dev) s = .next t ∧ t.host.flBusy = true ∧ t.flashUsed = true ∧ t.flashA = s.flashA ∧ t.flashB = s.flashB
        ∧ t.flashOp = some { dev := dev, erase := true, addr := s.host.flAddr.toNat / 65536 * 65536, data := [] })
      ∧ ∃ t, exec (.flashProgram dev) s = .next t ∧ t.host.flBusy = true ∧ t.flashUsed = true ∧ t.flashA = s.flashA ∧ t.flashB = s.flashB
        ∧ t.flashOp = some { dev := dev, erase := false, addr := s.host.flAddr.toNat / 4096 * 4096, data := s.host.progBuf })
    ∧ (s.host.flBusy = false → s.flashOp = none → s.flashTakes dev = false →
      ∃ t, exec (.flashErase dev) s = .next t ∧ t.flashOp = none ∧ t.host.flDenied = true ∧ t.host.irqBits.getLsbD 7 = true
        ∧ t.flashA = s.flashA ∧ t.flashB = s.flashB)
    ∧ ∀ o, s.flashOp = some o → o.dev = 0 →
      (∃ t, exec .flashOpEnd s = .next t ∧ t.flashOp = none ∧ t.host.flBusy = false ∧ t.flashB = s.flashB
        ∧ (∀ i, i < o.size → Sparse.get 0xFF t.flashA (o.addr + i) = if o.erase then 0xFF else rdByte o.data i)
        ∧ ∀ a, a < o.addr ∨ o.addr + o.size ≤ a → Sparse.get 0xFF t.flashA a = Sparse.get 0xFF s.flashA a)
      ∧ ∃ t, exec .flashOpTimeout s = .next t ∧ t.flashOp = none ∧ t.flashB = s.flashB ∧ (s.host.flBusy = true → t.host.flTimeout = true)
        ∧ ∀ a, a < o.addr ∨ o.addr + o.size ≤ a → Sparse.get 0xFF t.flashA a = Sparse.get 0xFF s.flashA a

/-- GLB_PWR_REQ writes, BLOCK_L1_ENTRY, L2_ENTRY, L3_ENTRY, WAKE_TRIGGER and WAKE_END. A write of the power request takes PCAP, LPMAX (3 as 2), PARK, L2_IDLE (0 as 1) and L3_IDLE. PARK rising in service begins the entry to L3, falling in a low-power state begins the wake, and an LPMAX below the present state wakes. An idle serving device enters L2 with every row closed and no core changed; the end of a drained PARK entry puts it in L3 with every active stream parked in slot order ahead of the list and every core in RESET, and no byte outside the parked-list area changed. A trigger wakes from L2 unless PARK is set; the end of the wake is ACTIVE, with memory as it was. -/
def Obligations.LowPowerStatesAreEnteredAndLeft : Prop :=
  ∀ (s : State),
    (∀ v : W32, let w := v.toNat
      (∃ t, exec (.lpmaxWrite v) s = .next t ∧ t.pwr.pcap = bitsOf w 0 12 ∧ t.pwr.lpmax = min 2 (bitsOf w 12 2) ∧ t.pwr.park = bitOf w 14
        ∧ t.pwr.l2idle = max 1 (bitsOf w 16 8) ∧ t.pwr.l3idle = bitsOf w 24 8 ∧ t.pwr.state = s.pwr.state ∧ t.cores = s.cores
        ∧ (s.pwr.park = false → bitOf w 14 = false → min 2 (bitsOf w 12 2) < s.pwr.state → t.pwr.waking = true))
      ∧ (bitOf w 14 = true → s.pwr.park = false → s.serving = true → s.pwr.waking = false → s.pwr.state ≠ 2 →
        ∃ t, exec (.parkSet v) s = .next t ∧ t.pwr.park = true ∧ t.pwr.entering = true ∧ t.pwr.state = s.pwr.state ∧ t.cores = s.cores)
      ∧ (bitOf w 14 = false → s.pwr.park = true → s.pwr.state ≠ 0 →
        ∃ t, exec (.parkClear v) s = .next t ∧ t.pwr.park = false ∧ t.pwr.entering = false ∧ t.pwr.waking = true ∧ t.cores = s.cores))
    ∧ (∀ b, b < 32 → exec (.blockL1Entry b) s = .next s)
    ∧ (s.idle = false → exec .l2Entry s = .next s)
    ∧ (s.serving = true → s.idle = true → 1 ≤ s.pwr.lpmax → s.pwr.state = 0 → s.pwr.entering = false → s.pwr.waking = false →
      ∃ t, exec .l2Entry s = .next t ∧ t.pwr = { s.pwr with state := 1 } ∧ (∀ v, (t.vault v).openRows = []) ∧ t.cores = s.cores
        ∧ t.mem = s.mem)
    ∧ (s.pwr.park = true → s.pwr.entering = true →
      (s.drained = false → exec .l3Entry s = .next s)
      ∧ (s.drained = true → ∃ t, exec .l3Entry s = .next t ∧ t.pwr.state = 2 ∧ t.pwr.entering = false ∧ t.pwr.l3parked = s.active.length
        ∧ t.helm.streams = [] ∧ t.helm.parked = s.active.map (fun e => parkStream e.1 e.2) ++ s.helm.parked
        ∧ (∀ c, (t.core c).st = .reset) ∧ (∀ x, (∀ k j, x / 65536 ≠ parkFrame s k j) → rdByte t.mem x = rdByte s.mem x)))
    ∧ (∀ cause, (s.pwr.park = true → exec (.wakeTrigger cause) s = .next s)
      ∧ (s.pwr.park = false → s.pwr.state = 1 → ∃ t, exec (.wakeTrigger cause) s = .next t ∧ t.pwr = { s.pwr with waking := true }
        ∧ t.cores = s.cores ∧ t.mem = s.mem))
    ∧ (s.pwr.waking = true → ∃ t, exec .wakeEnd s = .next t ∧ t.pwr.state = 0 ∧ t.pwr.waking = false ∧ t.pwr.entering = s.pwr.park
      ∧ t.mem = s.mem ∧ (s.pwr.state = 1 → t.cores = s.cores))

/-- ETH_PORT_RESET, ETH_SIGNAL_LOSS, ETH_TRAINING_END, ETH_FRAME_RX and the address protocols. A reset port, or one that loses its signal, is down, trains if ports may be used, and keeps its addresses; what it held is lost; no other port and no connection changes; its training ends with it up. A frame that passes the checks is counted; one with a bad FCS is counted as an error only, and one with a good FCS that fails a later check is counted twice, as received and under that check. A port that is up answers ARP, echo and neighbour solicitations for its own addresses and no others, honours PAUSE and PFC only where enabled, and learns the addresses that replies give. What is sent through a port goes out while it is not paused, waits while it is, and is lost while the port is down; when the pause ends, what waited goes out in its order. -/
def Obligations.EthernetPortsAnswerWhatIsTheirs : Prop :=
  ∀ (s : State) (p : Fin 8),
    let x := s.ports.get p
    let reset (t : State) : Prop := t.ethUp p = false ∧ (t.ports.get p).training = s.portsOpen (pdOf p) ∧ (t.ports.get p).addr = x.addr
      ∧ (t.ports.get p).txq = [] ∧ (∀ q, q ≠ p → t.ports.get q = s.ports.get q) ∧ t.pds = s.pds ∧ t.reg = s.reg ∧ t.links = s.links
      ∧ t.cores = s.cores
    (∃ t, exec (.ethPortReset p) s = .next t ∧ reset t)
    ∧ (x.up = true → ∃ t, exec (.ethSignalLoss p) s = .next t ∧ reset t)
    ∧ (x.up = false → exec (.ethSignalLoss p) s = .next s)
    ∧ (x.training = true → s.portsOpen (pdOf p) = true → ∃ t, exec (.ethTrainingEnd p) s = .next t ∧ t.ports.get p = { x with up := true, training := false }
      ∧ (∀ q, q ≠ p → t.ports.get q = s.ports.get q) ∧ t.pds = s.pds ∧ t.cores = s.cores)
    ∧ (x.training = false → exec (.ethTrainingEnd p) s = .next s)
    ∧ (∀ f, (x.up = false → exec (.ethFrameRx p f) s = .next s)
      ∧ (x.up = true → frameCheck x.addr p f = none → exec (.ethFrameRx p f) s = .next (s.bump (portCtr p.val 0) 1))
      ∧ (x.up = true → f.fcsOk = false → exec (.ethFrameRx p f) s = .next (s.bump (portCtr p.val 8) 1))
      ∧ (∀ o, x.up = true → f.fcsOk = true → frameCheck x.addr p f = some o →
        exec (.ethFrameRx p f) s = .next ((s.bump (portCtr p.val 0) 1).bump o 1)))
    ∧ (∀ e, (x.up = false → s.transmit p e = s) ∧ (x.up = true → x.pausedAll = false → x.paused = 0 → s.transmit p e = s.emit e)
      ∧ (x.up = true → x.pausedAll = true → s.transmit p e = s.setPort p { x with txq := x.txq ++ [e] }))
    ∧ (∀ target mac ip, exec (.arpRequest p target mac ip) s
        = .next (if x.up = true ∧ x.addr.ipv4 ≠ 0 ∧ target = x.addr.ipv4 then s.transmit p (.arp p mac ip) else s))
    ∧ (∀ dst src pl, exec (.icmpEcho p true dst src pl) s
        = .next (if x.up = true ∧ (dst = x.addr.ipv6 ∨ dst = linkLocal x.addr) then s.transmit p (.echo (s.netTo p src 0 0) pl) else s)
      ∧ exec (.icmpEcho p false dst src pl) s
        = .next (if x.up = true ∧ x.addr.ipv4 ≠ 0 ∧ dst.setWidth 32 = x.addr.ipv4
            then s.transmit p (.echo (s.netTo p ((src.setWidth 32).setWidth 128) 0 0) pl) else s))
    ∧ (∀ target src, exec (.neighborSolicitation p target src) s
        = .next (if x.up = true ∧ (target = x.addr.ipv6 ∨ target = linkLocal x.addr) then s.transmit p (.neighbor p target src) else s))
    ∧ (∀ prios, x.up = true →
      exec (.pauseFrame p true prios) s = .next (s.setPort p { x with paused := x.paused ||| (prios &&& x.addr.pfcEn) })
      ∧ exec (.pauseFrame p false prios) s = .next (if x.addr.pauseEn = true then s.setPort p { x with pausedAll := true } else s))
    ∧ (∀ prios, ∃ t, exec (.pauseTimeExpiry p prios) s = .next t ∧ (t.ports.get p).paused &&& prios = 0
      ∧ (prios = BitVec.allOnes 8 → (t.ports.get p).pausedAll = false ∧ (t.ports.get p).txq = [] ∧ t.out = s.out ++ x.txq)
      ∧ (∀ q, q ≠ p → t.ports.get q = s.ports.get q) ∧ t.cores = s.cores)
    ∧ (x.up = false → ∀ pfc prios, exec (.pauseFrame p pfc prios) s = .next s)
    ∧ (∀ mac, x.up = true → exec (.arpReply p x.addr.gw4 mac) s = .next (s.setPort p { x with arp := learn x.arp x.addr.gw4 mac }))
    ∧ ∀ ip mac, x.up = true → exec (.neighborAdvertisement p ip mac) s = .next (s.setPort p { x with nbr := learn x.nbr ip mac })

/-- RQ_SEGMENT, REQUEST_OPEN, RSACK, RS_RETRANSMIT, RQP_CANCEL and the timers of a connection. A FIRST segment whose preamble holds to the rules opens a record and takes exactly the landing-zone units of its ciphertext, while a record, the space and the power state allow it, and is turned away otherwise; a segment that has already come is acknowledged again. A whole request that opens becomes the tail of an ingress queue with its response key staged, and one under the device key goes to the loader with its load header; one that fails authentication is answered and its connection closes. Acknowledgements release what they name, and after the last STATUS the record is kept; a retransmission is counted, up to twelve; a cancel and a timeout end the reception with their codes, and the cancel of a request that another module serves goes on to it. -/
def Obligations.RequestsAreReceivedOpenedAndAnswered : Prop :=
  ∀ (s : State) (k : Fin 4) (n : Nat),
    (∀ seg pre b, s.ethUp seg.key.port = true → pdOf seg.key.port = k → s.findConn k seg.key = none → seg.first = true →
      seg.fits = true → seg.offset = 0 → preambleOf seg.payload = some pre → preGood pre = true →
      seg.payload.length ≤ preTotal pre → pre.fwd = false →
      (s.parking = false → s.freeConn k = some n → lzAlloc s (ceilDiv pre.clen 4096) = some b →
        ∃ t y, exec (.rqSegment seg) s = .next t ∧ t.conn k n = some y ∧ y.key = seg.key ∧ y.lzBase = b
          ∧ y.lzLen = ceilDiv pre.clen 4096 ∧ t.lz = s.lz ++ [(b, ceilDiv pre.clen 4096)] ∧ t.cores = s.cores)
      ∧ (s.parking = true ∨ s.freeConn k = none ∨ lzAlloc s (ceilDiv pre.clen 4096) = none →
        exec (.rqSegment seg) s = .next (s.transmit seg.key.port (.rqack (s.netTo seg.key.port seg.key.ip seg.key.udp 0)
          (rqpBits ptRqack false false 0 seg.key.conn 0 0 0 0 0)))))
    ∧ (∀ seg x, s.ethUp seg.key.port = true → pdOf seg.key.port = k → s.findConn k seg.key = some (n, x) → x.via = none →
      seg.fits = true → Sparse.get false x.got seg.seq = true →
      exec (.rqSegment seg) s = .next ((s.setConn k n (some { x with unackedRq := 0 })).transmit x.key.port
        (.rqack (s.netTo x.key.port x.key.ip x.key.udp x.sclass)
          (rqpBits ptRqack false false 0 x.key.conn 0 0 x.ackNext x.sack 64))))
    ∧ ∀ x, s.conn k n = some x →
      (x.phase = .whole → x.via = none →
        (∀ r, openKey s x.pre = none → ∃ t y, exec (.requestOpen k n r) s = .next t ∧ t.conn k n = some y ∧ y.phase = .closing
          ∧ y.statusSent = some (codeValue .refusedKey) ∧ t.cores = s.cores)
        ∧ (∀ pki, openKey s x.pre = some pki → ∃ t y, exec (.requestOpen k n .authFail) s = .next t ∧ t.conn k n = some y
          ∧ y.phase = .closing ∧ y.statusSent = some (codeValue .refusedAuth) ∧ t.cores = s.cores)
        ∧ (∀ pki b, openKey s x.pre = some pki → x.pre.keyid = 0 → b.length = x.plainLen →
          ∃ t, exec (.requestOpen k n (.plain b)) s = .next t ∧ t.drawn = s.drawn + 1 ∧ t.cores = s.cores
            ∧ t.conn k n = some { x with phase := .opened, sealed := true, sclass := 0, load := some (loadHeadOf (plainHead b)),
                                         staging := some (Config.responseKey s.drawn) }
            ∧ (t.pd k).ingress = (s.pd k).ingress)
        ∧ (∀ pki b, openKey s x.pre = some pki → x.pre.keyid ≠ 0 → b.length = x.plainLen →
          let q := (s.pd k).ingress.get (ingressHelm s)
          3 ≤ q.credits →
          ∃ t, exec (.requestOpen k n (.plain b)) s = .next t ∧ t.drawn = s.drawn + 1 ∧ t.cores = s.cores
            ∧ t.conn k n = some { x with phase := .opened, sealed := true, sclass := (innerOf (plainHead b)).sclass.val,
                                         staging := some (Config.responseKey s.drawn) }
            ∧ ((t.pd k).ingress.get (ingressHelm s)).credits = q.credits - 3
            ∧ ((t.pd k).ingress.get (ingressHelm s)).items = q.items
              ++ [{ crec := n, pd := k, port := x.key.port, conn := x.key.conn, lzBase := x.lzBase, lzLen := x.lzLen, pki := pki,
                    head := plainHead b, bodyLen := b.length - 64 }]))
      ∧ (∀ ack sack, x.backlog = [] → (∀ g ∈ x.unacked, g.seq < ack) →
        (x.phase = .closing → ∃ t y, exec (.rsack k n ack sack) s = .next t ∧ t.conn k n = some y ∧ y.phase = .kept ∧ t.out = s.out)
        ∧ (x.phase ≠ .closing → ∃ t, exec (.rsack k n ack sack) s = .next t ∧ t.conn k n = some { x with unacked := [] } ∧ t.out = s.out))
      ∧ ((x.phase = .receiving ∨ x.phase = .whole) → x.via = none →
        ∃ t y, exec (.rqpCancel k n) s = .next t ∧ t.conn k n = some y ∧ y.phase = .closing
          ∧ y.statusSent = some (codeValue .endCancel) ∧ t.cores = s.cores)
      ∧ (∀ l, x.phase = .forwarded → s.linkTo x.pre.dslot = some l →
        exec (.rqpCancel k n) s = .next (sendBytes s (.direct l) 1 64 (.forwardCancel l x.key)))
      ∧ (x.unackedRq = 0 → exec (.rqackTimer k n) s = .next s)
      ∧ (0 < x.unackedRq → exec (.rqackTimer k n) s = .next ((s.setConn k n (some { x with unackedRq := 0 })).transmit x.key.port
          (.rqack (s.netTo x.key.port x.key.ip x.key.udp x.sclass)
            (rqpBits ptRqack false false 0 x.key.conn 0 0 x.ackNext x.sack 64))))
      ∧ (∀ g, x.unacked = [g] →
        let g' := { g with tries := g.tries + 1 }
        (g.tries < 12 → exec (.rsRetransmit k n g.seq) s = .next
          (((s.setConn k n (some { x with unacked := [g'] })).bump (portCtr x.key.port.val 0x28) 1).transmit x.key.port (rsPacket s x g')))
        ∧ (12 ≤ g.tries → x.phase ≠ .opened → ∃ t y, exec (.rsRetransmit k n g.seq) s = .next t ∧ t.conn k n = some y ∧ y.phase = .kept
          ∧ t.cores = s.cores))
      ∧ (x.phase = .receiving → ∃ t y, exec (.requestTimeout k n) s = .next t ∧ t.conn k n = some y ∧ y.phase = .kept
        ∧ t.cores = s.cores
        ∧ (s.ethUp x.key.port = true → (s.ports.get x.key.port).held = false →
          t.out = s.out ++ [.rs (s.netTo x.key.port x.key.ip x.key.udp 0) (rqpBits ptRs true true 3 x.key.conn 0 0 0 0 0)
            (toBytes 1 2 ++ toBytes 2 (codeValue .refusedTimeout))]))
      ∧ (x.phase ≠ .receiving → exec (.requestTimeout k n) s = .next s)
      ∧ (x.phase ≠ .kept → exec (.connRecordExpiry k n) s = .next s)
      ∧ (x.phase = .kept → ∃ t, exec (.connRecordExpiry k n) s = .next t ∧ t.conn k n = none
        ∧ (∀ m, m ≠ n → t.conn k m = s.conn k m) ∧ t.out = s.out)

/-- FORWARDED_REQUEST, FORWARDED_RESPONSE, LOAD_PART0, LOAD_PART, LOAD_ABANDONED and UNLOAD_COMPLETE. A forwarded request on an up link from the slot at its other end is taken whole into a record and its space; a forwarded response goes out as the connection's next message, and a STATUS closes it. An unlisted Pattern is refused and no Pattern changes. A manifest that can be reserved becomes the Pattern in loading, resident at once where it has no further part; a part that agrees with its table entry is noted, and makes the Pattern resident if it is the last. An abandoned load, and an unload whose last step has ended, leave no Pattern under that number, and its cores in RESET. -/
def Obligations.ForwardedRequestsAndPatternLoads : Prop :=
  ∀ (s : State),
    (∀ l src key pre body n b, s.linkUp l = true → slotOn s.slotNo l = src → body.length = pre.clen → s.parking = false →
      s.freeConn (pdOf l) = some n → lzAlloc s (ceilDiv pre.clen 4096) = some b →
      ∃ t y, exec (.forwardedRequest l src key pre body) s = .next t ∧ t.conn (pdOf l) n = some y ∧ y.key = key ∧ y.phase = .whole
        ∧ y.via = some l ∧ y.lzBase = b ∧ t.lz = s.lz ++ [(b, ceilDiv pre.clen 4096)] ∧ t.cores = s.cores)
    ∧ (∀ l key b rest n x, s.linkUp l = true → s.findConn (pdOf key.port) key = some (n, x) → x.phase = .forwarded →
      ∃ t y, exec (.forwardedResponse l key (b :: rest)) s = .next t ∧ t.conn (pdOf key.port) n = some y ∧ y.nextMsg = x.nextMsg + 1
        ∧ y.phase = (if b.toNat = 2 then .closing else .forwarded) ∧ t.cores = s.cores)
    ∧ (∀ m h, (listed s h.phash = false → ∃ t, exec (.loadPart0 m h) s = .next t ∧ t.helm.pats = s.helm.pats
        ∧ t.helm.load = s.helm.load ∧ t.cores = s.cores ∧ .loadStatus h.phash h.part .loadUnlisted 0 0 ∈ t.out)
      ∧ (∀ s1 p, listed s h.phash = true → s.patOfHash h.phash = none → s.helm.load = none → m.hash = h.phash → h.part = 0 →
        h.npart = m.parts.length + 1 → reserve s s.freePat (newPattern s m) = .ok (s1, p) →
        (p.partsDone.length ≠ p.manifest.parts.length → ∃ t, exec (.loadPart0 m h) s = .next t ∧ t.pat s.freePat = some p
          ∧ t.helm.load = some s.freePat ∧ .loadStatus h.phash 0 .loadPartOk 0 0 ∈ t.out)
        ∧ (p.partsDone.length = p.manifest.parts.length → ∃ t, exec (.loadPart0 m h) s = .next t
          ∧ t.pat s.freePat = some { p with resident := true } ∧ t.helm.load = none ∧ .loadStatus h.phash 0 .loadDone 0 0 ∈ t.out)))
    ∧ (∀ pi p h body e g, listed s h.phash = true → s.helm.load = some pi → s.pat pi = some p → p.manifest.hash = h.phash →
      h.part ≠ 0 → p.manifest.parts[h.part - 1]? = some e → h.npart = p.manifest.parts.length + 1 → h.seg = e.seg → h.offset = e.offset →
      body.length = e.length → p.segs[e.seg]? = some g →
      (Config.sha384 body ≠ e.hash → ∃ t, exec (.loadPart h body) s = .next t ∧ t.helm.pats = s.helm.pats
        ∧ .loadStatus h.phash h.part .loadPartBad 10 h.part ∈ t.out ∧ t.cores = s.cores)
      ∧ (Config.sha384 body = e.hash → h.part ∉ p.partsDone →
        (p.partsDone.length + 1 ≠ p.manifest.parts.length → ∃ t, exec (.loadPart h body) s = .next t
          ∧ t.pat pi = some { p with partsDone := p.partsDone ++ [h.part] } ∧ t.cores = s.cores
          ∧ (loadConn s h = none → t.mem = (segPuts s pi e.seg g e.offset body).mem))
        ∧ (p.partsDone.length + 1 = p.manifest.parts.length → ∃ t, exec (.loadPart h body) s = .next t ∧ t.helm.load = none
          ∧ t.pat pi = some { p with partsDone := p.partsDone ++ [h.part], resident := true }
          ∧ .loadStatus h.phash h.part .loadDone 0 0 ∈ t.out)))
    ∧ (s.helm.load = none → exec .loadAbandoned s = .next s)
    ∧ ∀ pi p, s.pat pi = some p → Sparse.wf none s.helm.pats = true → Sparse.wf Core.init s.cores = true →
      let gone (t : State) : Prop := t.pat pi = none ∧ (∀ q, q ≠ pi → t.pat q = s.pat q) ∧ (∀ c ∈ p.coresOf, (t.core c).st = .reset)
        ∧ ∀ c, c ∉ p.coresOf → t.core c = s.core c
      (s.helm.load = some pi → ∃ t, exec .loadAbandoned s = .next t ∧ gone t ∧ t.helm.load = none)
      ∧ (p.unloading = false → exec (.unloadComplete pi) s = .next s)
      ∧ (p.unloading = true → (∀ u ∈ s.helm.steps, u.pat ≠ pi) → ∃ t, exec (.unloadComplete pi) s = .next t ∧ gone t)

/-- NZ_DATA_FRAME, NZ_ACK_FRAME, NZ_CREDIT_FRAME and NZ_NAK_FRAME on a link that is up. A frame that fails a check or is out of sequence is answered with a NAK that names the frame expected, and nothing is delivered. An accepted data frame advances the sequence by one, is delivered to its channel, and its credit goes back at once: on a direct link on which nothing waits, in a CREDIT frame that acknowledges it. With nothing waiting and no credit owed, an acknowledgement drops the frames before it from the replay buffer and a credit return frees what it names, and nothing is sent; a NAK sends the rest of the replay buffer again, each frame under its own SEQ and the next TXCNT, and the sixteenth running for one frame retrains the link. -/
def Obligations.LinkFramesAreSequencedAndReplayed : Prop :=
  ∀ (s : State) (i : LinkId) (x : Link) (h : NzHeader), s.link i = some x → x.st = .up →
    let good (ft : Nat) : Bool := h.tagOk && h.fits ft && decide (h.seq = x.rxSeq)
    let x' := (x.acked h.ack).credited h.cvc h.ccnt
    let nak := sendControl s i x ftNak
    (good ftData = false → exec (.nzDataFrame i h) s = .next nak)
    ∧ (good ftAck = false → exec (.nzAckFrame i h) s = .next nak)
    ∧ (good ftCredit = false → exec (.nzCreditFrame i h) s = .next nak)
    ∧ (good ftNak = false → exec (.nzNakFrame i h) s = .next nak)
    ∧ nak.link i = some x.spent ∧ nak.cores = s.cores ∧ nak.mem = s.mem
    ∧ (isRouted i = false → nak.out = s.out
        ++ [.nzFrame i (nzBits x.txSeq x.rxSeq 0 ftNak 0 x.giving.1 x.giving.2 x.txcnt) (nzNonce (!x.low) x.txcnt) none])
    ∧ (good ftData = true → ∃ t y, exec (.nzDataFrame i h) s = .next t ∧ t.link i = some y ∧ y.rxSeq = x.rxSeq + 1 ∧ y.st = .up
      ∧ .nzDeliver i h.vc h.len ∈ t.out ∧ t.cores = s.cores
      ∧ (x.waiting = [] → x.owed = [] → y.owed = []
        ∧ (isRouted i = false → 0 < h.len →
          .nzFrame i (nzBits x.txSeq (x.rxSeq + 1) 0 ftCredit 0 h.vc (frameWords h.len) x.txcnt) (nzNonce (!x.low) x.txcnt) none
            ∈ t.out)))
    ∧ (x.waiting = [] → x.owed = [] →
      (good ftAck = true → ∃ t, exec (.nzAckFrame i h) s = .next t ∧ t.link i = some x' ∧ t.out = s.out ∧ t.cores = s.cores)
      ∧ (good ftCredit = true → ∃ t, exec (.nzCreditFrame i h) s = .next t ∧ t.link i = some x' ∧ t.out = s.out ∧ t.cores = s.cores)
      ∧ (good ftNak = true → x.nakRun < 15 → ∃ t y, exec (.nzNakFrame i h) s = .next t ∧ t.link i = some y ∧ y.st = .up
        ∧ y.replay = x'.replay ∧ y.nakSeq = h.ack ∧ t.cores = s.cores
        ∧ (isRouted i = false → t.out = s.out ++ x'.replay.zipIdx.flatMap (fun e =>
            .nzFrame i (nzBits e.1.1 x.rxSeq e.1.2.vc ftData e.1.2.len 0 0 (x.txcnt + BitVec.ofNat 40 e.2))
              (nzNonce (!x.low) (x.txcnt + BitVec.ofNat 40 e.2)) none :: e.1.2.msg.toList)))
      ∧ (good ftNak = true → x.nakSeq = h.ack → x.nakRun = 15 → ∃ t y, exec (.nzNakFrame i h) s = .next t ∧ t.link i = some y
        ∧ y.replay = x'.replay ∧ t.cores = s.cores ∧ (isRouted i = false → y.st = .retraining ∧ .nzRetrain i ∈ t.out)
        ∧ (isRouted i = true → s.config.isSome = true → y.st = .rekeying)))
    ∧ (∀ f ∈ (x.acked h.ack).replay, f ∈ x.replay)

/-- The life of a Nelzan link. Trained lanes send a handshake that carries this module's own payload; a verified one from the place that the wiring gives, with compatible revisions, brings the link up at the agreed revision with the keys that both payloads give, and one that cannot be verified leaves it down, held down only for its revisions. A bring-up that takes too long leaves the link down; a down link not held down trains again where ports may be used, a routed one by a new handshake. Silence of 1 ms sends an ACK and one of 10 ms retrains; the end of retraining sends the replay buffer again, a failed one discards it. A reset drops everything of the link but no other link; a TXCNT near its end makes a new handshake that keeps the sequence numbers and the replay buffer. -/
def Obligations.LinksComeUpRetrainAndGoDown : Prop :=
  ∀ (s : State) (i : LinkId) (x : Link), s.link i = some x →
    let shaken (t : State) (y : Link) (c : ConfigRec) : Prop :=
      y.secret = Config.linkSecret s.drawn ∧ t.drawn = s.drawn + 1 ∧ t.lode.rseq = s.lode.rseq + 1
      ∧ y.mine = shakeBits c.linkRev c.linkPrev c.arithRev c.nodeId c.slot (match i with | .direct l => l.val | .routed _ _ _ => 0)
          (isRouted i) ((s.groups.map (fun e => 2 ^ e.1)).foldl (· + ·) 0) (Config.x25519Public (Config.linkSecret s.drawn))
          (Config.linkNonce s.drawn)
      ∧ (isRouted i = false → ∃ hd, .nzHandshake i hd y.mine none ∈ t.out)
    (x.st = .training → s.config = none → exec (.laneTrainingEnd i) s = .next s)
    ∧ (∀ c, x.st = .training → s.config = some c → ∃ t y, exec (.laneTrainingEnd i) s = .next t ∧ t.link i = some y
      ∧ y.st = .handshaking ∧ y.replay = x.replay ∧ shaken t y c ∧ t.cores = s.cores)
    ∧ (x.st = .training ∨ x.st = .handshaking → ∃ t, exec (.linkBringupTimeout i) s = .next t ∧ t.link i = some { x with st := .down }
      ∧ t.cores = s.cores)
    ∧ (x.st = .down → x.heldDown = true → exec (.linkRetry i) s = .next s)
    ∧ (x.st = .down → x.heldDown = false → s.portsOpen (pdOfLink i) = true →
      (isRouted i = false → exec (.linkRetry i) s = .next (s.setLink i { Link.init with st := .training }))
      ∧ (∀ c, isRouted i = true → s.config = some c → ∃ t y, exec (.linkRetry i) s = .next t ∧ t.link i = some y
        ∧ y.st = .handshaking ∧ y.replay = [] ∧ shaken t y c ∧ t.cores = s.cores))
    ∧ (x.st = .up →
      exec (.linkSilence1ms i) s = .next (sendControl s i x ftAck) ∧ (sendControl s i x ftAck).link i = some x.spent
      ∧ (∃ t y, exec (.linkSilence10ms i) s = .next t ∧ t.link i = some y ∧ y.replay = x.replay ∧ y.rxSeq = x.rxSeq ∧ t.cores = s.cores
        ∧ (isRouted i = false → y.st = .retraining ∧ .nzRetrain i ∈ t.out)
        ∧ (isRouted i = true → s.config.isSome = true → y.st = .rekeying))
      ∧ ∀ c, s.config = some c → ∃ t y, exec (.txcntWrapHandshake i) s = .next t ∧ t.link i = some y ∧ y.st = .rekeying
        ∧ y.replay = x.replay ∧ y.rxSeq = x.rxSeq ∧ y.txSeq = x.txSeq ∧ shaken t y c ∧ t.cores = s.cores)
    ∧ (x.st = .retraining → ∃ t y, exec (.retrainEnd i) s = .next t ∧ t.link i = some y ∧ y.st = .up ∧ y.rxSeq = x.rxSeq ∧ t.cores = s.cores
        ∧ (isRouted i = false → ∀ f ∈ x.replay, (∃ hd no, .nzFrame i hd no none ∈ t.out ∧ BitVec.ofNat 16 hd.toNat = f.1)
          ∧ ∀ m ∈ f.2.msg, m ∈ t.out))
    ∧ (x.st = .retraining ∨ x.st = .rekeying → ∃ t y, exec (.linkDown i) s = .next t ∧ t.link i = some y ∧ y.st = .down
      ∧ y.replay = [] ∧ t.cores = s.cores)
    ∧ (∀ c h, s.config = some c → (x.st = .handshaking ∨ x.st = .rekeying) →
      (h.sound = true → h.reportOk = true → wiringOk s i h = true →
        (∀ r, linkRev c h = some r → ∃ t y, exec (.handshake i h) s = .next t ∧ t.link i = some y ∧ y.st = .up ∧ y.rev = r
          ∧ y.peerNode = h.node ∧ y.peerSlot = h.slot ∧ y.peerArith = h.arithRev ∧ y.rxSeq = x.rxSeq ∧ t.cores = s.cores
          ∧ y.keys = linkKeys x.secret { payload := x.mine, reportOk := true } h)
        ∧ (linkRev c h = none → ∃ t y, exec (.handshake i h) s = .next t ∧ t.link i = some y ∧ y.st = .down ∧ y.heldDown = true))
      ∧ (h.sound = false ∨ h.reportOk = false ∨ wiringOk s i h = false →
        ∃ t y, exec (.handshake i h) s = .next t ∧ t.link i = some y ∧ y.st = .down ∧ y.heldDown = false))
    ∧ ∀ l : Fin 8, ∃ t, exec (.nzLinkReset l) s = .next t
      ∧ t.links.get l = { Link.init with st := if s.portsOpen (pdOf l) = true then .training else .down }
      ∧ (∀ m, m ≠ l → t.links.get m = s.links.get m) ∧ t.routed = s.routed ∧ t.cores = s.cores

/-- COLL_FORM, JOIN, JOIN_WINDOW_END, FORMED, GROUP_NOLEADER, GROUP_LOST and COLL_DISSOLVE. A sealed COLL_FORM that passes its checks leaves the group joining under the given record, one that fails them leaves every group. The leader notes a new member's hash and revision, and sends FORMED with those that agree, in roster order, to every member on the group's channel, to itself at once; a member that is listed takes its rank and starts at step 0, one that is not is excluded. Without a leader nothing of the group changes. A lost or dissolved group is gone, and the others stay. -/
def Obligations.GroupsFormByTheirLeader : Prop :=
  ∀ (s : State) (gid : Fin 16) (g : Group), s.group gid.val = some g →
    (∀ rank hash rev, g.phase = .joining → rosterIndex s g.cfg = some 0 → (∀ j ∈ g.joins, j.1 ≠ rank) → rank < g.cfg.roster.length →
      exec (.join gid rank hash rev) s = .next (s.setGroup gid.val
        (some { g with joins := g.joins ++ [(rank, decide (hash = g.hash), decide (rev = s.arith))] })))
    ∧ (g.phase = .joining → rosterIndex s g.cfg = some 0 → ∃ ranks t, exec (.joinWindowEnd gid) s = .next t
      ∧ t = (List.range g.cfg.roster.length).foldl (fun s i =>
          sendRoster s gid.val g.cfg i (ctlBytes + 2 * ranks.length) (.formed gid.val i ranks)) s
      ∧ .formed gid.val 0 ranks ∈ t.out ∧ t.groups = s.groups ∧ t.cores = s.cores ∧ ranks.Pairwise (· < ·)
      ∧ ∀ i, i ∈ ranks ↔ (i < g.cfg.roster.length ∧ ∃ j ∈ g.joins, j.1 = i ∧ j.2.1 = true ∧ j.2.2 = true))
    ∧ (∀ ranks i, g.phase = .joining → rosterIndex s g.cfg = some i →
      (i ∉ ranks → ∃ t, exec (.formed gid ranks) s = .next t ∧ t.group gid.val = some { g with phase := .excluded } ∧ t.cores = s.cores
        ∧ t.mem = s.mem)
      ∧ (i ∈ ranks → ∃ t h, exec (.formed gid ranks) s = .next t ∧ t.group gid.val = some h ∧ h.phase = .formed ∧ h.members = ranks
        ∧ ranks[h.rank]? = some i ∧ h.cstep = 0 ∧ t.cores = s.cores))
    ∧ (g.phase = .joining → ∃ t, exec (.groupNoleader gid) s = .next t ∧ t.groups = s.groups ∧ t.cores = s.cores ∧ t.mem = s.mem)
    ∧ (g.phase ≠ .joining → exec (.groupNoleader gid) s = .next s)
    ∧ ((g.phase = .formed → ∃ t, exec (.groupLost gid) s = .next t ∧ t.group gid.val = none ∧ (∀ n, n ≠ gid.val → t.group n = s.group n)
        ∧ t.cores = s.cores)
      ∧ ∀ c, s.lode.activeOk = true → sealedCheck s c 6 = none → ∃ t, exec (.collDissolve c gid) s = .next t ∧ t.group gid.val = none
        ∧ (∀ n, n ≠ gid.val → t.group n = s.group n) ∧ t.cores = s.cores)
    ∧ ∀ c w, s.lode.activeOk = true → sealedCheck s c 5 = none →
      let r := groupRecOf w
      (collBad s r = true → ∃ t, exec (.collForm c w) s = .next t ∧ t.groups = s.groups ∧ t.cores = s.cores)
      ∧ (collBad s r = false → ∃ t h, exec (.collForm c w) s = .next t ∧ t.group r.gid.val = some h ∧ h.cfg = r ∧ h.phase = .joining
        ∧ t.cores = s.cores)

/-- The rounds of a formed group. A message to a member goes out at once where the member is this module or the direct link to it is up with credit. A completed layer is noted once, and while blocks are pulled its contributions wait; a contribution and a node sum of the step or the next one that are no repeats join those of their block, and others are only counted; a layer's deadline is taken once. At the leader an INCOMPLETE shard aborts and the last owner's report commits, in either case to every member and once; its timeout aborts where deadlines are off. A commit raises the step number by one with the owner's blocks in its replica; an abort keeps the number, drops what was contributed and releases the Pattern unless blocks of the step before are still pulled. An update of the step is written and acknowledged to its owner; an acknowledgement ends the wait of the oldest chunk of its block for a receiver, and a drop ends every wait for it; what was dropped is pulled block by block from its owner, which answers from its published copy. While PARK is set chunks are turned away. -/
def Obligations.CollectiveStepsReduceCommitAndPublish : Prop :=
  ∀ (s : State) (gid : Fin 16) (g : Group), s.group gid.val = some g → g.phase = .formed →
    let reach (r : Nat) : Prop := (g.nodeOf r = s.node ∧ g.slotOf r = s.slotNo)
      ∨ (g.nodeOf r = s.node ∧ g.slotOf r ≠ s.slotNo ∧ ∃ l x, s.linkTo (g.slotOf r) = some l ∧ s.link (.direct l) = some x ∧ x.st = .up
        ∧ x.waiting = [] ∧ x.canSend { vc := 2 + gid.val, len := ctlBytes, msg := none } = true)
    (∀ r e, reach r → e ∈ (sendMember s gid.val g r ctlBytes e).out)
    ∧ (∀ layer, layer ∉ g.layersDone → layer < g.cfg.layers.length → ∃ t h, exec (.layerDoorbellComplete gid layer) s = .next t
      ∧ t.group gid.val = some h ∧ h.layersDone = g.layersDone ++ [layer] ∧ h.cstep = g.cstep ∧ t.cores = s.cores
      ∧ (g.pulling ≠ [] → t.out = s.out ∧ h.layersDue = g.layersDue ++ [layer] ∧ h.contribs = g.contribs))
    ∧ (∀ c : Chunk, c.gid = gid.val →
      (s.pwr.park = true → exec (.contribChunk c) s = .next s ∧ exec (.updateChunk c) s = .next s ∧ exec (.pullAnswer c) s = .next s
        ∧ ∀ node, exec (.partialChunk c node) s = .next s)
      ∧ (s.pwr.park = false →
        (c.cstep < g.cstep ∨ g.cstep + 1 < c.cstep → exec (.contribChunk c) s = .next (chunkIn s gid.val)
          ∧ ∀ node, exec (.partialChunk c node) s = .next (chunkIn s gid.val))
        ∧ (g.cstep ≤ c.cstep → c.cstep ≤ g.cstep + 1 → chunkOk g c = true →
          (g.sumServer c.blk = g.rank → g.nodeOf c.rank = g.nodeOf g.rank →
            (∀ e ∈ g.contribs, e.1 ≠ stepKey c.cstep c.blk ∨ e.2.1 ≠ c.rank) → (c.cstep ≠ g.cstep ∨ c.blk ∉ g.summed) →
            ∃ t h, exec (.contribChunk c) s = .next t ∧ t.group gid.val = some h ∧ h.cstep = g.cstep ∧ t.cores = s.cores
              ∧ (stepKey c.cstep c.blk, c.rank, { groups := c.groups, n := c.ncount }) ∈ h.contribs)
          ∧ (∀ node, c.incomplete = false → g.owner c.blk = g.rank → node ∈ g.nodes →
            (∀ e ∈ g.partials, e.1 ≠ stepKey c.cstep c.blk ∨ e.2.1 ≠ node) → (c.cstep ≠ g.cstep ∨ c.blk ∉ g.updated) →
            ∃ t h, exec (.partialChunk c node) s = .next t ∧ t.group gid.val = some h ∧ h.cstep = g.cstep ∧ t.cores = s.cores
              ∧ (stepKey c.cstep c.blk, node, { groups := c.groups, n := c.ncount }) ∈ h.partials))
        ∧ (g.cstep ≤ c.cstep + 1 → c.cstep ≤ g.cstep → chunkOk g c = true → g.owner c.blk ≠ g.rank →
          ∃ t h, exec (.updateChunk c) s = .next t ∧ t.group gid.val = some h ∧ (c.cstep, c.blk) ∈ h.written
            ∧ (reach (g.owner c.blk) → .updateAck gid.val (g.owner c.blk) c.blk ∈ t.out) ∧ t.cores = s.cores)
        ∧ (∀ st rest, g.pulling = (st, c.blk) :: rest → st ≤ c.cstep → chunkOk g c = true →
          ∃ t h, exec (.pullAnswer c) s = .next t ∧ t.group gid.val = some h ∧ h.pulling = rest ∧ (st, c.blk) ∈ h.written
            ∧ t.cores = s.cores)))
    ∧ (∀ layer, layer ∈ g.layersDone → layer ∉ g.deadlines → ∃ t h, exec (.collDeadline gid layer) s = .next t
      ∧ t.group gid.val = some h ∧ h.deadlines = g.deadlines ++ [layer] ∧ h.cstep = g.cstep ∧ t.cores = s.cores)
    ∧ (g.leads = true →
      let told (h : Group) (m : Nat → Emit) : State :=
        (List.range g.nf).foldl (fun t r => sendMember t gid.val h r ctlBytes (m r)) (s.setGroup gid.val (some h))
      (∀ rank, rank ∈ g.owners → (∀ e ∈ g.shards, e.1 ≠ rank) →
        let noted (b : Bool) : Group := { g with shards := g.shards ++ [(rank, b)] }
        (∀ b, g.decided = true → exec (.shardDone gid rank b) s = .next (s.setGroup gid.val (some (noted b))))
        ∧ (g.decided = false →
          exec (.shardDone gid rank true) s = .next (told { noted true with decided := true } (.abort gid.val))
          ∧ ((∀ r ∈ g.owners, r = rank ∨ ∃ e ∈ g.shards, e.1 = r) →
            exec (.shardDone gid rank false) s = .next (told { noted false with decided := true } (.commit gid.val)))
          ∧ ((∃ r ∈ g.owners, r ≠ rank ∧ ∀ e ∈ g.shards, e.1 ≠ r) →
            exec (.shardDone gid rank false) s = .next (s.setGroup gid.val (some (noted false))))))
      ∧ (g.decided = true → exec (.leaderStepTimeout gid) s = .next s)
      ∧ (g.decided = false → g.cfg.rmode = false → g.cfg.layers.length ≤ g.layersDone.length →
        (∃ r ∈ g.owners, ∀ e ∈ g.shards, e.1 ≠ r) →
        exec (.leaderStepTimeout gid) s = .next (told { g with decided := true } (.abort gid.val))))
    ∧ (∃ t h, exec (.collCommit gid) s = .next t ∧ t.group gid.val = some h ∧ h.cstep = g.cstep + 1 ∧ h.layersDone = [] ∧ h.shards = []
      ∧ (∀ b ∈ g.owned, (g.cstep, b) ∈ h.written) ∧ t.cores = s.cores)
    ∧ (∃ t h, exec (.collAbort gid) s = .next t ∧ t.group gid.val = some h ∧ h.cstep = g.cstep ∧ h.contribs = [] ∧ h.partials = []
      ∧ h.layersDone = [] ∧ t.cores = s.cores
      ∧ ∀ p, s.pat g.cfg.pat = some p → ∃ q, t.pat g.cfg.pat = some q
        ∧ (g.cstep = 0 → gid.val ∉ q.updateHold)
        ∧ (g.pulling = [] → (∀ b, b < g.cfg.nBlk → (g.cstep - 1, b) ∈ g.written) → gid.val ∉ q.updateHold)
        ∧ (g.cstep ≠ 0 → g.pulling ≠ [] → q.updateHold = p.updateHold))
    ∧ (∀ blk rank, let open_ (h : Group) := h.casts.filter (fun c => decide (c.blk = blk ∧ rank ∈ c.waiting))
      ∃ t h, exec (.updateAck gid blk rank) s = .next t ∧ t.group gid.val = some h ∧ t.cores = s.cores
        ∧ (open_ h).length = (open_ g).length - 1)
    ∧ (∀ rank, (∃ c ∈ g.casts, rank ∈ c.waiting) → ∃ t h, exec (.mcDropped gid rank) s = .next t ∧ t.group gid.val = some h
      ∧ (∀ c ∈ h.casts, rank ∉ c.waiting) ∧ (reach rank → .dropped gid.val rank ∈ t.out) ∧ t.cores = s.cores)
    ∧ (∀ owner, g.cstep ≠ 0 → g.pulling = [] → ∃ t h, exec (.dropped gid owner) s = .next t ∧ t.group gid.val = some h ∧ t.cores = s.cores
      ∧ (∀ b, (g.cstep - 1, b) ∈ h.pulling ↔ (b < g.cfg.nBlk ∧ g.owner b = owner ∧ (g.cstep - 1, b) ∉ g.written))
      ∧ ∀ e rest, h.pulling = e :: rest → reach owner → .pull gid.val owner e.2 ∈ t.out)
    ∧ ∀ blk rank, g.cstep ≠ 0 → g.owner blk = g.rank → blk < g.cfg.nBlk → 
      let c := mkChunk gid.val g (g.cstep - 1) blk g.nf false (readPub s g blk ((g.cstep - 1) % 2))
      ∃ t, exec (.pull gid blk rank) s = .next t ∧ t.groups = s.groups ∧ t.mem = s.mem ∧ t.cores = s.cores
        ∧ t = sendMember (collCtr (collCtr s gid.val 0x1410 1) gid.val 0x1408 1) gid.val g rank (chunkBytes c g.cfg.rb 1)
            (.pullAnswer gid.val rank c)

/-- Power up and down, cold reset, RST_IN_N, PERST_N, FLR, D3hot and the host link. Power comes up from standby unless a thermal trip is latched, with every duty level at 16. A cold reset and an RST_IN_N low of at least 8 slow cycles leave nothing of cores, vault memory, Patterns, streams and keys, keep both flash devices, and begin start-up again, the second in its fast form once released; a shorter low changes nothing. PWR_EN low and an input fault take the rails down. PERST_N and FLR disarm the telemetry ring and change nothing beyond the host side; the link goes with the first and stays with the second. In D3hot nothing is sent, and at its end every pending message of an unmasked vector is. -/
def Obligations.ResetsKeepWhatTheyShould : Prop :=
  ∀ (s : State),
    let blank (t : State) : Prop := t.cores = [] ∧ t.mem = [] ∧ t.helm.pats = [] ∧ t.helm.streams = [] ∧ t.keys = [] ∧ t.groups = []
      ∧ t.flashA = s.flashA ∧ t.flashB = s.flashB ∧ t.start.stage = 0 ∧ t.power.dPwr = 16 ∧ t.power.dTh = [] ∧ t.host.linkUp = false
      ∧ t.pending = s.pending
    let device (t : State) : Prop := t.cores = s.cores ∧ t.mem = s.mem ∧ t.helm = s.helm ∧ t.keys = s.keys ∧ t.groups = s.groups
      ∧ t.ports = s.ports ∧ t.links = s.links ∧ t.start = s.start ∧ t.power = s.power
    (s.power.rails = false → s.power.tripLatched = false → ∃ t, exec .powerUp s = .next t ∧ t.power.rails = true ∧ t.power.pwrEn = true
      ∧ t.power.dPwr = 16 ∧ t.power.dTh = [] ∧ t.power.sensors = [] ∧ t.cores = s.cores)
    ∧ (s.power.rails = true ∨ s.power.tripLatched = true → exec .powerUp s = .next s)
    ∧ (s.power.rails = true → ∃ t, exec .coldReset s = .next t ∧ blank t ∧ t.start.fast = false ∧ .pcieTrain ∈ t.out)
    ∧ (s.power.rails = false → exec .coldReset s = .next s)
    ∧ (s.power.rails = true → ∃ t, exec .powerDown s = .next t ∧ t.power.rails = false ∧ t.power.pwrEn = false ∧ t.power.tripLatched = false
      ∧ t.cores = [] ∧ t.mem = [] ∧ t.keys = [] ∧ t.lode.activeOk = false ∧ t.tap.reset = true)
    ∧ (∀ high, s.power.rails = true → ∃ t, exec (.inputFaultShutdown high) s = .next t ∧ t.power.rails = false ∧ t.power.inputFault = true
      ∧ (high = true → t.power.vinOvFault = true) ∧ (high = false → t.power.vinUvFault = true) ∧ t.cores = [] ∧ t.keys = [])
    ∧ (∀ n, (n < 8 → exec (.rstInN n) s = .next s)
      ∧ (8 ≤ n → s.power.pwrEn = true → s.power.rails = true → ∃ t, exec (.rstInN n) s = .next t ∧ blank t ∧ t.start.fast = true
        ∧ t.start.heldReset = true))
    ∧ (s.start.heldReset = true → ∃ t, exec .rstInNRelease s = .next t ∧ t.start = { s.start with heldReset := false }
      ∧ t.out = s.out ++ [.pcieTrain] ∧ t.cores = s.cores)
    ∧ (s.start.heldReset = false → exec .rstInNRelease s = .next s)
    ∧ (∃ t, exec .perstN s = .next t ∧ device t ∧ t.host.linkUp = false ∧ t.host.perst = true ∧ t.host.telEnable = false)
    ∧ (∃ t, exec .flr s = .next t ∧ device t ∧ t.host.linkUp = s.host.linkUp ∧ t.host.telEnable = false ∧ t.host.irqBits = 0)
    ∧ (s.host.perst = true → ∃ t, exec .perstNRelease s = .next t ∧ device t ∧ t.host = { s.host with perst := false }
      ∧ t.out = s.out ++ [.pcieTrain])
    ∧ exec .d3hotEntry s = .next { s with host := { s.host with d3hot := true } }
    ∧ (∃ t, exec .d3hotExit s = .next t ∧ device t ∧ t.host.d3hot = false
      ∧ ∀ n, n < 32 → s.host.pba.getLsbD n = true → s.masked n = false → s.host.linkUp = true → s.host.perst = false →
        .msix n ∈ t.out ∧ t.host.pba.getLsbD n = false)
    ∧ ∀ rate width flit, s.power.rails = true → s.lode.activeOk = true → s.host.perst = false → s.start.heldReset = false →
      ∃ t, exec (.pcieLinkUp rate width flit) s = .next t ∧ device t ∧ t.host.linkUp = true ∧ t.host.rate = rate ∧ t.host.width = width
        ∧ t.host.flit = flit

/-- VIN_SAMPLE, FAST_CURRENT_LIMIT, DUTY_POWER_UPDATE, DUTY_THERMAL_UPDATE and SENSOR_SAMPLE. VIN lies between the two middle samples of the last 64 (where between is free: log 54). With the rails on, the power loop lowers D_pwr by two, to no less than 2, above the cap, raises it by one below 97 % of it, and otherwise keeps it; the current limit sets it to 4; the thermal loop sets a die's D_th by the first matching row, at 4 where all its junction or all its layer sensors have failed. A sample out of range or too far from the last is discarded, and the sixteenth in a row fails the sensor; an accepted one is its reading, and the second in a row at the trip level takes the rails down. -/
def Obligations.PowerAndTemperatureSetTheDuty : Prop :=
  ∀ (s : State),
    (∀ x, s.power.vinWin.length = 64 → ∃ t, exec (.vinSample x) s = .next t
      ∧ t.power.vinWin = s.power.vinWin.drop 1 ++ [x]
      ∧ (let l := sortNat (s.power.vinWin.drop 1 ++ [x]); l.getD 31 0 ≤ t.power.vin ∧ t.power.vin ≤ l.getD 32 0)
      ∧ t.power.dPwr = s.power.dPwr ∧ t.cores = s.cores)
    ∧ (∀ x, s.power.vinWin.length < 63 →
      exec (.vinSample x) s = .next { s with power := { s.power with vinWin := s.power.vinWin ++ [x] } })
    ∧ (s.power.rails = true →
      (∃ t, exec .fastCurrentLimit s = .next t ∧ t.power = { s.power with dPwr := 4, iinOcWarn := true } ∧ t.cores = s.cores)
      ∧ (∀ p, let cap10 := min (10 * min 3300 (max 1000 s.pwr.pcap)) (min 33000 (75 * s.power.vin))
        ∃ t, exec (.dutyPowerUpdate p) s = .next t ∧ t.cores = s.cores
          ∧ t.power = { s.power with
              pin := min 4095 p,
              dPwr := if cap10 < 10 * p then max 2 (s.power.dPwr - 2)
                else if 1000 * p < 97 * cap10 ∧ s.power.dPwr < 16 then s.power.dPwr + 1 else s.power.dPwr })
      ∧ (∀ d ms tj td, d < 24 → hottest (readings s (junctionsOf d)) = some tj →
        hottest (readings s (layersOf d)) = some td →
        ∃ t, exec (.dutyThermalUpdate d ms) s = .next t ∧ t.power.dPwr = s.power.dPwr ∧ t.cores = s.cores
          ∧ (∀ e, e ≠ d → t.dTh e = s.dTh e)
          ∧ t.dTh d = if 95 ≤ tj ∨ 95 ≤ td then 2 else if 90 ≤ tj ∨ 93 ≤ td then max 2 (s.dTh d - 1)
              else if tj < 88 ∧ td < 91 ∧ 10 ≤ ms then min 16 (s.dTh d + 1) else s.dTh d)
      ∧ (∀ d ms, d < 24 → s.allFailed (junctionsOf d) = true ∨ s.allFailed (layersOf d) = true →
        ∃ t, exec (.dutyThermalUpdate d ms) s = .next t ∧ t.dTh d = 4)
      ∧ ∀ i v, sensorExists i = true → (s.sensor i).failed = false →
        ((s.sensor i).discard v = true → (s.sensor i).hot < 2 → ∃ t, exec (.sensorSample i v) s = .next t ∧ t.cores = s.cores ∧
          t.sensor i = { s.sensor i with discards := (s.sensor i).discards + 1, failed := decide (16 ≤ (s.sensor i).discards + 1) })
        ∧ ((s.sensor i).discard v = false → (∀ n, sensorTripAt i = some n → v < n) →
          ∃ t, exec (.sensorSample i v) s = .next t ∧ t.sensor i = { last := some v, discards := 0, failed := false, hot := 0 }
            ∧ t.power.rails = true ∧ t.cores = s.cores)
        ∧ (∀ n, (s.sensor i).discard v = false → sensorTripAt i = some n → n ≤ v → 1 ≤ (s.sensor i).hot →
          ∃ t, exec (.sensorSample i v) s = .next t ∧ t.power.rails = false ∧ t.power.tripLatched = true ∧ t.power.otFault = true
            ∧ t.cores = [] ∧ t.keys = []))

/-- The start-up sequence. The ROM stage ends in stage 1 with a Lodestar that passed its check active, LA first. The image whose turn it is by the generations that the two flash images give is checked as it stands in the flash, and passing every check it is in force in stage 2; one that fails leaves its code and the other image next, or RECOVERY when both have been tried, and so does a flash that does not answer. Self-test leads to stage 3, a failed Helm or port die to FAILED with its code. The stack tests end in stage 5 or FAILED, with vault memory cleared and the failed vaults out of use; the links' end is SERVICE with admission open; a sequence that takes too long is FAILED. -/
def Obligations.StartUpGoesStageByStage : Prop :=
  ∀ (s : State),
    (∀ la lb, s.start.stage = 0 → s.start.heldReset = false → s.power.rails = true → s.lode.activeOk = true →
      (la = true ∨ lb = true → ∃ t, exec (.romStageEnd la lb true true) s = .next t ∧ t.start.stage = 1 ∧ t.lode.activeOk = true
        ∧ t.lode.active = (if la = true then 0 else 1) ∧ t.lode.standbyOk = (la && lb) ∧ t.cores = s.cores)
      ∧ (∃ t, exec (.romStageEnd false false true true) s = .next t ∧ t.lode.activeOk = false ∧ t.start.stage = 0)
      ∧ (∃ t, exec (.romStageEnd true lb false true) s = .next t ∧ t.start.stage = 7 ∧ t.start.failcode = codeValue .refclkLoss))
    ∧ (∀ (n : Fin 2) (x : ImageTests) (keys : Bool × Bool), s.start.stage = 1 → s.start.kept = none →
      let img := s.flash n
      let la := s.start.romLA && keys.1
      let lb := s.start.romLB && keys.2
      (turnOf s.start n (genOf img) (genOf (s.flash (otherLode n))) = false → exec (.chartImageCheck n x keys) s = .next s)
      ∧ (turnOf s.start n (genOf img) (genOf (s.flash (otherLode n))) = true →
      (imageCheck la lb img x = none → ∃ t, exec (.chartImageCheck n x keys) s = .next t ∧ t.start.stage = 2
        ∧ t.chart = some (chartOf img) ∧ t.start.image = n.val ∧ t.pwr.pcap = (chartOf img).config.pcapDef ∧ t.cores = s.cores)
      ∧ (∀ code, imageCheck la lb img x = some code → ∃ t, exec (.chartImageCheck n x keys) s = .next t
        ∧ t.chart = s.chart ∧ (if n = 0 then t.start.codeA else t.start.codeB) = codeValue code ∧ t.start.tried n = true
        ∧ t.start.stage = (if s.start.tried (otherLode n) then 8 else 1) ∧ t.cores = s.cores)))
    ∧ (∀ n : Fin 2, s.start.stage = 1 → s.start.kept = none → s.start.tried n = false →
      ∃ t, exec (.flashReadTimeout n) s = .next t ∧ (if n = 0 then t.start.codeA else t.start.codeB) = codeValue .flashRead
        ∧ t.start.stage = (if s.start.tried (otherLode n) then 8 else 1) ∧ t.chart = s.chart)
    ∧ (∀ x : SelfTest, s.start.stage = 2 →
      (x.helmBad = false → x.portBad = false → ∃ t, exec (.selfTestEnd x) s = .next t ∧ t.start.stage = 3 ∧ t.start.selfTest = some x)
      ∧ (x.helmBad = true → ∃ t, exec (.selfTestEnd x) s = .next t ∧ t.start.stage = 7 ∧ t.start.failcode = codeValue .helmTest)
      ∧ (x.helmBad = false → x.portBad = true → ∃ t, exec (.selfTestEnd x) s = .next t ∧ t.start.stage = 7
        ∧ t.start.failcode = codeValue .portTest))
    ∧ (∀ bv bs, s.start.stage = 3 → s.chart.isSome = true → s.start.selfTest.isSome = true → (∀ v ∈ bv, v < Config.nSites) → (∀ d ∈ bs, d < 24) →
      ∃ t, exec (.stackTestEnd bv bs) s = .next t ∧ (t.start.stage = 5 ∨ t.start.stage = 7) ∧ t.mem = [] ∧ (∀ v ∈ bv, (t.vault v).out = true)
        ∧ t.cores = s.cores)
    ∧ (s.start.stage = 5 → ∃ t, exec .linkStageEnd s = .next t ∧ t.start.stage = 6 ∧ t.helm.admission = true ∧ t.cores = s.cores)
    ∧ (s.start.stage ≠ 5 → exec .linkStageEnd s = .next s)
    ∧ (2 ≤ s.start.stage → s.start.stage ≤ 4 → ∃ t, exec .startTimeout s = .next t ∧ t.start.stage = 7
      ∧ t.start.failcode = codeValue .startTimeout ∧ t.helm.admission = false)
    ∧ (s.start.stage < 2 ∨ 4 < s.start.stage → exec .startTimeout s = .next s)

/-- The management SMBus, the PMBus and the test port. With an active Lodestar past stage 0 each SMBus read returns its global register, and zero before; the PMBus returns its constants, status and quantities (LINEAR11 as log 51 has it; the input current is free) and changes nothing but by CLEAR_FAULTS, which clears the latched bits, and an unknown command, which sets CML. An alert response answers only while ALERT_N is asserted. The test port answers with rails and a Lodestar: IDCODE gives its number, EXTEST drives the pins in RECOVERY alone and is BYPASS elsewhere, and its reset keeps the cells. -/
def Obligations.ManagementBusesAnswer : Prop :=
  ∀ (s : State),
    (s.start.stage = 0 ∨ s.power.rails = false → exec .smbGlbIdent s = .next (s.emit (.smbus [0, 0, 0, 0])))
    ∧ (s.start.stage ≠ 0 → s.power.rails = true → s.lode.activeOk = true →
      exec .smbGlbIdent s = .next (s.emit (.smbus [0x32, 0x90, 0x4D, 0x4C])) ∧ exec .smbGlbStart s = .next (s.emit (.smbus (toBytes 4 s.glbStart)))
      ∧ exec .smbGlbHealth s = .next (s.emit (.smbus (toBytes 4 s.glbHealth)))
      ∧ exec .smbGlbPwrState s = .next (s.emit (.smbus (toBytes 4 s.glbPwrState)))
      ∧ exec .smbGlbPin s = .next (s.emit (.smbus (toBytes 4 s.glbPin))) ∧ exec .smbGlbTherm s = .next (s.emit (.smbus (toBytes 4 s.glbTherm)))
      ∧ exec .smbGlbEvnext s = .next (s.emit (.smbus (toBytes 4 s.log.evNext.toNat))))
    ∧ exec .smbusClockTimeout s = .next (s.emit .smbusRelease)
    ∧ (∃ t, exec .clearFaults s = .next t ∧ t.power.statusInput = 0 ∧ t.power.statusCml = 0 ∧ t.power.otFault = false
      ∧ t.power.otWarn = s.thrTherm ∧ t.power.dPwr = s.power.dPwr ∧ t.power.rails = s.power.rails ∧ t.out = s.out ∧ t.cores = s.cores)
    ∧ exec .capability s = .next (s.emit (.pmbus [0xB0]))
    ∧ exec .statusByte s = .next (s.emit (.pmbus (toBytes 1 s.power.statusByte)))
    ∧ exec .statusWord s = .next (s.emit (.pmbus (toBytes 2 (s.power.statusByte + s.power.statusHigh * 2 ^ 8))))
    ∧ exec .statusInput s = .next (s.emit (.pmbus (toBytes 1 s.power.statusInput)))
    ∧ exec .statusTemperature s = .next (s.emit (.pmbus (toBytes 1 s.power.statusTemperature)))
    ∧ exec .statusCml s = .next (s.emit (.pmbus (toBytes 1 s.power.statusCml)))
    ∧ exec .statusMfrSpecific s = .next (s.emit (.pmbus (toBytes 1 s.power.statusMfr)))
    ∧ exec .readVin s = .next (s.emit (.pmbus (toBytes 2 (Config.linear11 100 s.power.vin).toNat)))
    ∧ (∃ v, exec .readIin s = .next ({ s with drawn := s.drawn + 1 }.emit (.pmbus (toBytes 2 v))))
    ∧ exec .readPin s = .next (s.emit (.pmbus (toBytes 2 (Config.linear11 1000 s.power.pin).toNat)))
    ∧ exec .readTemperature1 s = .next (s.emit (.pmbus (toBytes 2 (Config.linear11 1000 s.tjMax).toNat)))
    ∧ exec .readTemperature2 s = .next (s.emit (.pmbus (toBytes 2 (Config.linear11 1000 s.tdramMax).toNat)))
    ∧ (∃ v, exec .readTemperature3 s = .next (s.emit (.pmbus (toBytes 2 (Config.linear11 1000 v).toNat))))
    ∧ exec .pmbusRevision s = .next (s.emit (.pmbus [0x33]))
    ∧ exec .mfrId s = .next (s.emit (.pmbus (['D', 'V', 'O', 'R', 'U', 'M', 'E', 'L'].map (fun c => BitVec.ofNat 8 c.toNat))))
    ∧ exec .mfrModel s = .next (s.emit (.pmbus (['L', 'X', '-', '9', '0', '3', '2', '-', 'M'].map (fun c => BitVec.ofNat 8 c.toNat))))
    ∧ exec .mfrReadDuty s = .next (s.emit (.pmbus (toBytes 2 (s.power.dPwr % 32 + s.leastDTh % 32 * 2 ^ 8))))
    ∧ exec .mfrSensorFail s = .next (s.emit (.pmbus (toBytes 2 s.power.failedSensors)))
    ∧ exec .pmbusInvalidCommand s = .next { s with power := { s.power with cmlInvalid := true } }
    ∧ (s.alert = true → exec .alertResponse s = .next (s.emit (.pmbus (toBytes 1 (2 * (0x40 + Config.straps.toNat))))))
    ∧ (s.alert = false → exec .alertResponse s = .next s)
    ∧ (s.power.rails = true → s.lode.activeOk = true →
      exec .bypass s = .next { s with tap := { s.tap with reset := false, instr := .bypass, driving := false } }
      ∧ exec .idcode s = .next ({ s with tap := { s.tap with reset := false, instr := .idcode, driving := false } }.emit (.tdo 0x190329CF))
      ∧ (∀ c, exec (.samplePreload (some c)) s
          = .next ({ s with tap := { s.tap with reset := false, instr := .sample, driving := false, cells := c } }.emit (.tdo s.tap.cells.toNat)))
      ∧ (∃ v, exec (.samplePreload none) s
          = .next ({ s with drawn := s.drawn + 2, tap := { s.tap with reset := false, instr := .sample, driving := false, cells := v } }.emit
            (.tdo v.toNat)))
      ∧ exec .extest s = .next { s with tap := { s.tap with
          reset := false, instr := (if s.start.stage = 8 then .extest else .bypass), driving := decide (s.start.stage = 8) } })
    ∧ exec .testLogicReset s = .next { s with tap := { reset := true, instr := .idcode, cells := s.tap.cells, driving := false } }

/-- Every step keeps every duty level from 2 to 16. From every state in which D_pwr and every recorded D_th lie in 2 to 16, a step of any command leads to such a state again. -/
def Obligations.DutyLevelsStayInRange : Prop :=
  ∀ s t : State,
    let inv (u : State) : Prop := 2 ≤ u.power.dPwr ∧ u.power.dPwr ≤ 16 ∧ ∀ e ∈ u.power.dTh, 2 ≤ e.2 ∧ e.2 ≤ 16
    inv s → step s = .next t → inv t

/-- State.reset: duty levels, registers with stated reset values, and nothing running. After reset both duty levels are 16, so the duty invariant holds; every core is in RESET with its semaphores zero, no Pattern, stream, key, group or link is there, memory lists nothing, the event number is zero, and TEL_CTRL, TEL_SIZE, HOST_IRQ_STATUS, GLB_START and the LPMAX, PARK, L2_IDLE and L3_IDLE fields of GLB_PWR_REQ read their reset values. (PCAP before the Chart is read is the model's choice, log 3, and is not stated.) -/
def Obligations.ResetStateHoldsTheResetValues : Prop :=
  let s := State.reset
  s.power.dPwr = 16 ∧ (∀ d, s.dTh d = 16) ∧ (∀ e ∈ s.power.dTh, 2 ≤ e.2 ∧ e.2 ≤ 16)
  ∧ (∀ c, (s.core c).st = .reset ∧ (∀ i, (s.core c).sem i = 0) ∧ (s.core c).latch = none ∧ ∀ e, (s.core c).queue e = EngineQ.reset)
  ∧ s.pending = [] ∧ Memory.wf s.mem = true ∧ (∀ a, rdByte s.mem a = 0) ∧ s.helm.pats = [] ∧ s.helm.streams = [] ∧ s.keys = [] ∧ s.groups = []
  ∧ (∀ l : Fin 8, (s.links.get l).st = .down) ∧ (∀ p : Fin 8, s.ethUp p = false) ∧ s.log.evNext = 0
  ∧ s.hostReg 0x00 = 0 ∧ s.hostReg 0x18 = 0x0C ∧ s.hostReg 0x1C = 0 ∧ s.hostReg 0x20 = 0 ∧ s.hostReg 0x24 = 0
  ∧ s.glbStart = 0 ∧ s.glbPwrReq / 2 ^ 12 = 2 + 0x0A * 2 ^ 4 + 0x32 * 2 ^ 12 ∧ s.glbPwrState = 0

/-- Every well-formed command is answered with a next state; none is refused, and a core, vault or die that does not exist faults. Whatever the state, exec of a command whose numbers are ones the device has answers a next state in which the waiting commands are the same, and no command at all is refused. A command of the scalar, flow and engine classes for a core number of 4,224 or above, a vault access beyond the vaults or beyond a vault's 1 GiB, and a clock loss or duty update of a die of 24 or above end in the fault of that name. -/
def Obligations.WellFormedCommandsAreAnswered : Prop :=
  (∀ (c : Instr) (s : State), c.wf = true → ∃ t, exec c s = .next t ∧ t.pending = s.pending)
  ∧ (∀ (c : Instr) (s : State) (r : Refusal), exec c s ≠ .refused r)
  ∧ ∀ (s : State) (n : Nat),
    (Config.nCores ≤ n → (∀ d imm, exec (.set n d imm) s = .fault .noSuchCore) ∧ (∀ code, exec (.trap n code) s = .fault .noSuchCore)
      ∧ (∀ i m, exec (.semwait n i m) s = .fault .noSuchCore) ∧ (∀ k dst b, exec (.accrd n k dst b) s = .fault .noSuchCore)
      ∧ (∀ k d l, exec (.copy n k d l) s = .fault .noSuchCore) ∧ exec (.coreReset n) s = .fault .noSuchCore)
    ∧ (Config.nSites ≤ n → (∀ o f r, exec (.patrolRead n o f r) s = .fault .noSuchVault) ∧ (∀ b, exec (.refreshOperation n b) s = .fault .noSuchVault)
      ∧ ∀ p, exec (.siteTestEnd n p) s = .fault .noSuchVault)
    ∧ (∀ v f r, Config.vaultBytes ≤ n → exec (.patrolRead v n f r) s = .fault .noSuchVault)
    ∧ (24 ≤ n → exec (.computePllLoss n) s = .fault .noSuchBlock ∧ ∀ ms, exec (.dutyThermalUpdate n ms) s = .fault .noSuchBlock)
end

