-- ==== Sys2Proof/Laws/Sparse.lean ====
section
/-! SUPPORT. The sparse map: what a read gives after a write, and that a write keeps the canonical form. -/

namespace Sys2Proof

variable {α : Type}

theorem Sparse.get_put_self (d : α) (k : Nat) (v : α) (m : Sparse α) (h : ∀ e ∈ m, e.1 ≠ k) :
    Sparse.get d (Sparse.put k v m) k = v := by
  induction m with
  | nil => simp [Sparse.put, Sparse.get]
  | cons e m ih =>
    unfold Sparse.put
    split
    · simp [Sparse.get]
    · simp [Sparse.get, h e (by simp), ih (fun x hx => h x (by simp [hx]))]

theorem Sparse.get_put_ne (d : α) {k j : Nat} (hj : j ≠ k) (v : α) (m : Sparse α) :
    Sparse.get d (Sparse.put k v m) j = Sparse.get d m j := by
  induction m with
  | nil => simp [Sparse.put, Sparse.get, hj.symm]
  | cons e m ih =>
    unfold Sparse.put
    split
    · simp [Sparse.get, hj.symm]
    · simp [Sparse.get, ih]

/-- An entry that a filter keeps reads as before. -/
theorem Sparse.get_filter (d : α) (p : Nat × α → Bool) (j : Nat) (m : Sparse α) (h : ∀ e ∈ m, e.1 = j → p e = true) :
    Sparse.get d (m.filter p) j = Sparse.get d m j := by
  induction m with
  | nil => rfl
  | cons e m ih =>
    have hm := ih (fun x hx => h x (by simp [hx]))
    rw [List.filter_cons]
    split
    · simp [Sparse.get, hm]
    next hp =>
      have : e.1 ≠ j := fun he => hp (h e (by simp) he)
      simp [Sparse.get, this, hm]

/-- A key that a filter drops reads as the default. -/
theorem Sparse.get_filter_drop (d : α) (p : Nat × α → Bool) (j : Nat) (m : Sparse α) (h : ∀ e ∈ m, e.1 = j → p e = false) :
    Sparse.get d (m.filter p) j = d := by
  induction m with
  | nil => rfl
  | cons e m ih =>
    have hm := ih (fun x hx => h x (by simp [hx]))
    rw [List.filter_cons]
    split
    next hp =>
      have : e.1 ≠ j := fun he => by rw [h e (by simp) he] at hp; cases hp
      simp [Sparse.get, this, hm]
    · exact hm

/-- A read of the key that was written gives the value written. -/
@[simp] theorem Sparse.get_set_self [DecidableEq α] (d : α) (m : Sparse α) (k : Nat) (v : α) :
    Sparse.get d (Sparse.set d m k v) k = v := by
  unfold Sparse.set
  dsimp only
  split
  next h => rw [h]; exact Sparse.get_filter_drop d _ k m (by simp)
  · exact Sparse.get_put_self d k v _ (by simp)

/-- A write leaves every other key alone. -/
theorem Sparse.get_set_ne [DecidableEq α] (d : α) (m : Sparse α) {k j : Nat} (h : j ≠ k) (v : α) :
    Sparse.get d (Sparse.set d m k v) j = Sparse.get d m j := by
  have hf : Sparse.get d (m.filter (fun e => decide (e.1 ≠ k))) j = Sparse.get d m j :=
    Sparse.get_filter d _ j m (by rintro e _ rfl; simpa using h)
  unfold Sparse.set
  dsimp only
  split
  · exact hf
  · exact (Sparse.get_put_ne d h v _).trans hf

/-! ### The canonical form -/

/-- Keys rise above a lower bound exactly when every key is above it and they rise. -/
theorem Sparse.rising_iff (lo : Option Nat) (m : Sparse α) :
    Sparse.rising lo m = true ↔ (∀ b ∈ lo, ∀ e ∈ m, b < e.1) ∧ m.Pairwise (fun a b => a.1 < b.1) := by
  induction m generalizing lo with
  | nil => simp [Sparse.rising]
  | cons e m ih =>
    obtain ⟨k, v⟩ := e
    simp only [Sparse.rising, Bool.and_eq_true, ih, List.pairwise_cons, List.mem_cons, Option.mem_def]
    cases lo with
    | none => simp
    | some b =>
      simp only [decide_eq_true_eq, Option.some.injEq, forall_eq']
      constructor
      · rintro ⟨hb, h1, h2⟩
        refine ⟨?_, h1, h2⟩
        rintro x (rfl | hx)
        · exact hb
        · exact Nat.lt_trans hb (h1 x hx)
      · rintro ⟨h0, h1, h2⟩
        exact ⟨h0 (k, v) (Or.inl rfl), h1, h2⟩

theorem Sparse.mem_put (k : Nat) (v : α) (m : Sparse α) (e : Nat × α) : e ∈ Sparse.put k v m ↔ e = (k, v) ∨ e ∈ m := by
  induction m with
  | nil => simp [Sparse.put]
  | cons a m ih =>
    unfold Sparse.put
    split
    · simp
    · simp only [List.mem_cons, ih]
      tauto

theorem Sparse.put_rises (k : Nat) (v : α) (m : Sparse α) (hm : m.Pairwise (fun a b => a.1 < b.1)) (hk : ∀ e ∈ m, e.1 ≠ k) :
    (Sparse.put k v m).Pairwise (fun a b => a.1 < b.1) := by
  induction m with
  | nil => simp [Sparse.put]
  | cons a m ih =>
    rw [List.pairwise_cons] at hm
    unfold Sparse.put
    split
    next h =>
      refine List.pairwise_cons.2 ⟨?_, List.pairwise_cons.2 hm⟩
      intro e he
      rcases List.mem_cons.1 he with rfl | he
      · exact h
      · exact Nat.lt_trans h (hm.1 e he)
    next h =>
      refine List.pairwise_cons.2 ⟨?_, ih hm.2 (fun e he => hk e (by simp [he]))⟩
      intro e he
      rcases (Sparse.mem_put k v m e).1 he with rfl | he
      · have := hk a (by simp); simp only; omega
      · exact hm.1 e he

theorem Sparse.wf_iff [DecidableEq α] (d : α) (m : Sparse α) :
    Sparse.wf d m = true ↔ m.Pairwise (fun a b => a.1 < b.1) ∧ ∀ e ∈ m, e.2 ≠ d := by
  simp [Sparse.wf, Sparse.rising_iff]

/-- The empty map has the canonical form. -/
@[simp] theorem Sparse.wf_nil [DecidableEq α] (d : α) : Sparse.wf d ([] : Sparse α) = true := rfl

/-- A filter keeps the canonical form. -/
theorem Sparse.wf_filter [DecidableEq α] (d : α) (m : Sparse α) (p : Nat × α → Bool) (h : Sparse.wf d m = true) :
    Sparse.wf d (m.filter p) = true := by
  rw [Sparse.wf_iff] at *
  exact ⟨h.1.filter _, fun e he => h.2 e (List.mem_filter.1 he).1⟩

/-- A write keeps the canonical form. -/
theorem Sparse.wf_set [DecidableEq α] (d : α) (m : Sparse α) (k : Nat) (v : α) (h : Sparse.wf d m = true) :
    Sparse.wf d (Sparse.set d m k v) = true := by
  have hf := Sparse.wf_filter d m (fun e => decide (e.1 ≠ k)) h
  unfold Sparse.set
  dsimp only
  split
  · exact hf
  next hv =>
    rw [Sparse.wf_iff] at *
    refine ⟨Sparse.put_rises k v _ hf.1 (by simp), ?_⟩
    intro e he
    rcases (Sparse.mem_put k v _ e).1 he with rfl | he
    · exact hv
    · exact hf.2 e he

/-- Two maps in canonical form that read alike are equal. -/
theorem Sparse.ext_of_wf [DecidableEq α] (d : α) (m n : Sparse α) (hm : Sparse.wf d m = true) (hn : Sparse.wf d n = true)
    (h : ∀ k, Sparse.get d m k = Sparse.get d n k) : m = n := by
  have key : ∀ (m : Sparse α), Sparse.wf d m = true → ∀ k v, (k, v) ∈ m ↔ Sparse.get d m k = v ∧ v ≠ d := by
    intro m
    induction m with
    | nil => intro _ k v; simp [Sparse.get]; rintro rfl; simp
    | cons a m ih =>
      intro hw k v
      rw [Sparse.wf_iff, List.pairwise_cons] at hw
      have hm : Sparse.wf d m = true := (Sparse.wf_iff d m).2 ⟨hw.1.2, fun e he => hw.2 e (by simp [he])⟩
      simp only [List.mem_cons, ih hm, Sparse.get]
      constructor
      · rintro (rfl | ⟨hg, hv⟩)
        · simpa using hw.2 (k, v) (by simp)
        · have hin : (k, v) ∈ m := (ih hm k v).2 ⟨hg, hv⟩
          have := hw.1.1 (k, v) hin
          rw [if_neg (by simp only at this; omega)]
          exact ⟨hg, hv⟩
      · rintro ⟨hg, hv⟩
        by_cases hk : a.1 = k
        · rw [if_pos hk] at hg
          left
          rw [← hk, ← hg]
        · rw [if_neg hk] at hg
          exact Or.inr ⟨hg, hv⟩
  have hp : m.Perm n := by
    refine (List.perm_ext_iff_of_nodup ?_ ?_).2 (fun e => ?_)
    · exact (((Sparse.wf_iff d m).1 hm).1).imp (fun {a b} hab he => by rw [he] at hab; omega)
    · exact (((Sparse.wf_iff d n).1 hn).1).imp (fun {a b} hab he => by rw [he] at hab; omega)
    · obtain ⟨k, v⟩ := e
      rw [key m hm, key n hn, h]
  exact hp.eq_of_pairwise (le := fun a b => a.1 < b.1) (fun a b _ _ hab hba => by omega) ((Sparse.wf_iff d m).1 hm).1 ((Sparse.wf_iff d n).1 hn).1

end Sys2Proof
end

