-- ==== Sys2Proof/Laws/Memory.lean ====
section
/-! SUPPORT. Bytes of a memory: reads after writes, what a write leaves alone, the canonical form, and numbers as bytes. -/

namespace Sys2Proof.Machine

/-! ### One byte -/

@[simp] theorem rdByte_nil (a : Nat) : rdByte [] a = 0 := rfl

/-- A read after a write to the same place gives the byte written. -/
@[simp] theorem rdByte_wrByte_self (m : Memory) (a : Nat) (b : Byte) : rdByte (wrByte m a b) a = b := Sparse.get_set_self ..

/-- A write leaves every other place alone. -/
theorem rdByte_wrByte_ne (m : Memory) {a x : Nat} (h : x ≠ a) (b : Byte) : rdByte (wrByte m a b) x = rdByte m x :=
  Sparse.get_set_ne _ _ h _

theorem wrByte_wf (m : Memory) (a : Nat) (b : Byte) (h : Memory.wf m = true) : Memory.wf (wrByte m a b) = true :=
  Sparse.wf_set _ _ _ _ h

/-! ### Several bytes -/

/-- A write of bytes leaves every place outside them alone. -/
theorem rdByte_wrBytes_out (m : Memory) (a : Nat) (l : List Byte) (x : Nat) (h : x < a ∨ a + l.length ≤ x) :
    rdByte (wrBytes m a l) x = rdByte m x := by
  induction l generalizing m a with
  | nil => rfl
  | cons b l ih =>
    simp only [List.length_cons] at h
    rw [wrBytes, ih _ _ (by omega), rdByte_wrByte_ne _ (by omega)]

/-- A write of bytes puts each in its place. -/
theorem rdByte_wrBytes_in (m : Memory) (a : Nat) (l : List Byte) (i : Nat) (h : i < l.length) :
    rdByte (wrBytes m a l) (a + i) = l[i] := by
  induction l generalizing m a i with
  | nil => simp at h
  | cons b l ih =>
    cases i with
    | zero =>
      rw [wrBytes, rdByte_wrBytes_out _ _ _ _ (by omega)]
      exact rdByte_wrByte_self m a b
    | succ i =>
      simp only [List.length_cons] at h
      rw [wrBytes, show a + (i + 1) = a + 1 + i by omega, ih _ _ _ (by omega)]
      rfl

theorem wrBytes_wf (m : Memory) (a : Nat) (l : List Byte) (h : Memory.wf m = true) : Memory.wf (wrBytes m a l) = true := by
  induction l generalizing m a with
  | nil => exact h
  | cons b l ih => exact ih _ _ (wrByte_wf _ _ _ h)

/-! ### Numbers as little-endian bytes (R8) -/

@[simp] theorem toBytes_length (n v : Nat) : (toBytes n v).length = n := by
  induction n generalizing v with
  | zero => rfl
  | succ n ih => simp [toBytes, ih]

theorem toBytes_get (n v i : Nat) (h : i < (toBytes n v).length) : (toBytes n v)[i] = BitVec.ofNat 8 (v / 256 ^ i) := by
  induction n generalizing v i with
  | zero => simp [toBytes] at h
  | succ n ih =>
    cases i with
    | zero => simp [toBytes]
    | succ i => simp [toBytes, ih, Nat.pow_succ', Nat.div_div_eq_div_mul]

/-- Writing a number is writing its bytes. -/
theorem wrNat_eq (m : Memory) (a n v : Nat) : wrNat m a n v = wrBytes m a (toBytes n v) := by
  induction n generalizing m a v with
  | zero => rfl
  | succ n ih => rw [wrNat, toBytes, wrBytes, ih]

theorem wrNat_wf (m : Memory) (a n v : Nat) (h : Memory.wf m = true) : Memory.wf (wrNat m a n v) = true := by
  rw [wrNat_eq]; exact wrBytes_wf _ _ _ h

/-- Reading a number is reading its bytes. -/
theorem rdNat_eq (m : Memory) (a n : Nat) : rdNat m a n = ofBytes (rdBytes m a n) := by
  induction n generalizing a with
  | zero => rfl
  | succ n ih => rw [rdNat, rdBytes, ofBytes, ih]

@[simp] theorem rdBytes_length (m : Memory) (a n : Nat) : (rdBytes m a n).length = n := by
  induction n generalizing a with
  | zero => rfl
  | succ n ih => simp [rdBytes, ih]

/-- Reads of memories that agree on the bytes read agree. -/
theorem rdBytes_congr (m m' : Memory) (a n : Nat) (h : ∀ i, i < n → rdByte m (a + i) = rdByte m' (a + i)) :
    rdBytes m a n = rdBytes m' a n := by
  induction n generalizing a with
  | zero => rfl
  | succ n ih =>
    have h0 : rdByte m a = rdByte m' a := h 0 (by omega)
    rw [rdBytes, rdBytes, h0, ih (a + 1) (fun i hi => by
      have := h (i + 1) (by omega)
      rwa [show a + (i + 1) = a + 1 + i by omega] at this)]

/-- A read of bytes just written gives them back. -/
theorem rdBytes_wrBytes (m : Memory) (a : Nat) (l : List Byte) : rdBytes (wrBytes m a l) a l.length = l := by
  induction l generalizing m a with
  | nil => rfl
  | cons b l ih =>
    rw [List.length_cons, rdBytes, wrBytes, ih, rdByte_wrBytes_out _ _ _ _ (by omega), rdByte_wrByte_self]

theorem ofBytes_toBytes (n v : Nat) : ofBytes (toBytes n v) = v % 256 ^ n := by
  induction n generalizing v with
  | zero => simp [toBytes, ofBytes, Nat.mod_one]
  | succ n ih =>
    have h : v % 256 ^ (n + 1) = v % 256 + 256 * (v / 256 % 256 ^ n) := by rw [show 256 ^ (n + 1) = 256 * 256 ^ n by ring, Nat.mod_mul]
    rw [toBytes, ofBytes, ih, BitVec.toNat_ofNat, h]

/-- A read of a number just written gives its low bytes. -/
theorem rdNat_wrNat (m : Memory) (a n v : Nat) : rdNat (wrNat m a n v) a n = v % 256 ^ n := by
  rw [rdNat_eq, wrNat_eq]
  have := rdBytes_wrBytes m a (toBytes n v)
  rw [toBytes_length] at this
  rw [this, ofBytes_toBytes]

/-! ### Zeroing -/

theorem rdByte_zeroRange (m : Memory) (a n x : Nat) :
    rdByte (zeroRange m a n) x = if a ≤ x ∧ x < a + n then 0 else rdByte m x := by
  unfold rdByte zeroRange
  split
  next h => exact Sparse.get_filter_drop 0 _ x m (by rintro e _ rfl; simp; omega)
  next h => exact Sparse.get_filter 0 _ x m (by rintro e _ rfl; simp; omega)

theorem zeroRange_wf (m : Memory) (a n : Nat) (h : Memory.wf m = true) : Memory.wf (zeroRange m a n) = true :=
  Sparse.wf_filter _ _ _ h

/-! ### The device's memory -/

/-- The memory of the reset state has the canonical form. -/
theorem reset_mem_wf : Memory.wf State.reset.mem = true := rfl

end Sys2Proof.Machine
end

