-- ==== Sys2Proof/Laws/State.lean ====
section
/-! SUPPORT. The named updates of the device's state: which fields each leaves alone, and what a read gives after it. -/

namespace Sys2Proof.Machine

/-! ### Fields that an update leaves alone -/

/-- A field that no step of a fold changes is as it was before the fold. -/
theorem foldl_field {α β : Type} (g : State → β) (f : State → α → State) (h : ∀ s a, g (f s a) = g s) (l : List α) (s : State) :
    g (l.foldl f s) = g s := by
  induction l generalizing s with
  | nil => rfl
  | cons a l ih => rw [List.foldl_cons, ih, h]

/-- A field that opening a row does not change is as it was before several were opened. -/
theorem openRows_field {β : Type} (g : State → β) (h : ∀ s a, g (openRow s a) = g s) (s : State) (a n : Nat) :
    g (openRows s a n) = g s := foldl_field g _ (fun s _ => h s _) _ s

@[simp] theorem setCore_frame (s : State) (c : Nat) (k : Core) :
    (s.setCore c k).pending = s.pending ∧ (s.setCore c k).out = s.out ∧ (s.setCore c k).drawn = s.drawn ∧
    (s.setCore c k).mem = s.mem ∧ (s.setCore c k).vaults = s.vaults ∧ (s.setCore c k).helm = s.helm ∧
    (s.setCore c k).reg = s.reg ∧ (s.setCore c k).log = s.log ∧ (s.setCore c k).host = s.host ∧ (s.setCore c k).pwr = s.pwr ∧
    (s.setCore c k).start = s.start ∧ (s.setCore c k).lode = s.lode ∧ (s.setCore c k).flashA = s.flashA ∧
    (s.setCore c k).flashB = s.flashB ∧ (s.setCore c k).flashOp = s.flashOp ∧ (s.setCore c k).flashUsed = s.flashUsed ∧
    (s.setCore c k).chart = s.chart ∧ (s.setCore c k).keys = s.keys ∧ (s.setCore c k).ports = s.ports ∧
    (s.setCore c k).pds = s.pds ∧ (s.setCore c k).lz = s.lz ∧ (s.setCore c k).links = s.links ∧
    (s.setCore c k).routed = s.routed ∧ (s.setCore c k).groups = s.groups ∧ (s.setCore c k).power = s.power ∧
    (s.setCore c k).tap = s.tap ∧ (s.setCore c k).preempted = s.preempted ∧ (s.setCore c k).refLost = s.refLost := by
  and_intros <;> rfl

@[simp] theorem emit_frame (s : State) (e : Emit) :
    (s.emit e).pending = s.pending ∧ (s.emit e).drawn = s.drawn ∧ (s.emit e).cores = s.cores ∧ (s.emit e).mem = s.mem ∧
    (s.emit e).vaults = s.vaults ∧ (s.emit e).helm = s.helm ∧ (s.emit e).reg = s.reg ∧ (s.emit e).log = s.log ∧
    (s.emit e).host = s.host ∧ (s.emit e).pwr = s.pwr ∧ (s.emit e).start = s.start ∧ (s.emit e).lode = s.lode ∧
    (s.emit e).flashA = s.flashA ∧ (s.emit e).flashB = s.flashB ∧ (s.emit e).flashOp = s.flashOp ∧
    (s.emit e).flashUsed = s.flashUsed ∧ (s.emit e).chart = s.chart ∧ (s.emit e).keys = s.keys ∧ (s.emit e).ports = s.ports ∧
    (s.emit e).pds = s.pds ∧ (s.emit e).lz = s.lz ∧ (s.emit e).links = s.links ∧ (s.emit e).routed = s.routed ∧
    (s.emit e).groups = s.groups ∧ (s.emit e).power = s.power ∧ (s.emit e).tap = s.tap ∧ (s.emit e).preempted = s.preempted ∧
    (s.emit e).refLost = s.refLost := by
  and_intros <;> rfl

@[simp] theorem emits_frame (s : State) (l : List Emit) :
    (s.emits l).pending = s.pending ∧ (s.emits l).drawn = s.drawn ∧ (s.emits l).cores = s.cores ∧ (s.emits l).mem = s.mem ∧
    (s.emits l).vaults = s.vaults ∧ (s.emits l).helm = s.helm ∧ (s.emits l).reg = s.reg ∧ (s.emits l).log = s.log ∧
    (s.emits l).host = s.host ∧ (s.emits l).pwr = s.pwr ∧ (s.emits l).start = s.start ∧ (s.emits l).lode = s.lode ∧
    (s.emits l).flashA = s.flashA ∧ (s.emits l).flashB = s.flashB ∧ (s.emits l).flashOp = s.flashOp ∧
    (s.emits l).flashUsed = s.flashUsed ∧ (s.emits l).chart = s.chart ∧ (s.emits l).keys = s.keys ∧ (s.emits l).ports = s.ports ∧
    (s.emits l).pds = s.pds ∧ (s.emits l).lz = s.lz ∧ (s.emits l).links = s.links ∧ (s.emits l).routed = s.routed ∧
    (s.emits l).groups = s.groups ∧ (s.emits l).power = s.power ∧ (s.emits l).tap = s.tap ∧ (s.emits l).preempted = s.preempted ∧
    (s.emits l).refLost = s.refLost := by
  and_intros <;> rfl

@[simp] theorem setVault_frame (s : State) (v : Nat) (x : Vault) :
    (s.setVault v x).pending = s.pending ∧ (s.setVault v x).out = s.out ∧ (s.setVault v x).drawn = s.drawn ∧
    (s.setVault v x).cores = s.cores ∧ (s.setVault v x).mem = s.mem ∧ (s.setVault v x).helm = s.helm ∧
    (s.setVault v x).reg = s.reg ∧ (s.setVault v x).log = s.log ∧ (s.setVault v x).host = s.host ∧ (s.setVault v x).pwr = s.pwr ∧
    (s.setVault v x).start = s.start ∧ (s.setVault v x).lode = s.lode ∧ (s.setVault v x).flashA = s.flashA ∧
    (s.setVault v x).flashB = s.flashB ∧ (s.setVault v x).flashOp = s.flashOp ∧ (s.setVault v x).flashUsed = s.flashUsed ∧
    (s.setVault v x).chart = s.chart ∧ (s.setVault v x).keys = s.keys ∧ (s.setVault v x).ports = s.ports ∧
    (s.setVault v x).pds = s.pds ∧ (s.setVault v x).lz = s.lz ∧ (s.setVault v x).links = s.links ∧
    (s.setVault v x).routed = s.routed ∧ (s.setVault v x).groups = s.groups ∧ (s.setVault v x).power = s.power ∧
    (s.setVault v x).tap = s.tap ∧ (s.setVault v x).preempted = s.preempted ∧ (s.setVault v x).refLost = s.refLost := by
  and_intros <;> rfl

@[simp] theorem mapVaults_frame (s : State) (f : Vault → Vault) :
    (s.mapVaults f).pending = s.pending ∧ (s.mapVaults f).out = s.out ∧ (s.mapVaults f).drawn = s.drawn ∧
    (s.mapVaults f).cores = s.cores ∧ (s.mapVaults f).mem = s.mem ∧ (s.mapVaults f).helm = s.helm ∧ (s.mapVaults f).reg = s.reg ∧
    (s.mapVaults f).log = s.log ∧ (s.mapVaults f).host = s.host ∧ (s.mapVaults f).pwr = s.pwr ∧ (s.mapVaults f).start = s.start ∧
    (s.mapVaults f).lode = s.lode ∧ (s.mapVaults f).flashA = s.flashA ∧ (s.mapVaults f).flashB = s.flashB ∧
    (s.mapVaults f).flashOp = s.flashOp ∧ (s.mapVaults f).flashUsed = s.flashUsed ∧ (s.mapVaults f).chart = s.chart ∧
    (s.mapVaults f).keys = s.keys ∧ (s.mapVaults f).ports = s.ports ∧ (s.mapVaults f).pds = s.pds ∧ (s.mapVaults f).lz = s.lz ∧
    (s.mapVaults f).links = s.links ∧ (s.mapVaults f).routed = s.routed ∧ (s.mapVaults f).groups = s.groups ∧
    (s.mapVaults f).power = s.power ∧ (s.mapVaults f).tap = s.tap ∧ (s.mapVaults f).preempted = s.preempted ∧
    (s.mapVaults f).refLost = s.refLost := by
  and_intros <;> rfl

@[simp] theorem setCtr_frame (s : State) (o : Nat) (v : W64) :
    (s.setCtr o v).pending = s.pending ∧ (s.setCtr o v).out = s.out ∧ (s.setCtr o v).drawn = s.drawn ∧
    (s.setCtr o v).cores = s.cores ∧ (s.setCtr o v).mem = s.mem ∧ (s.setCtr o v).vaults = s.vaults ∧
    (s.setCtr o v).helm = s.helm ∧ (s.setCtr o v).log = s.log ∧ (s.setCtr o v).host = s.host ∧ (s.setCtr o v).pwr = s.pwr ∧
    (s.setCtr o v).start = s.start ∧ (s.setCtr o v).lode = s.lode ∧ (s.setCtr o v).flashA = s.flashA ∧
    (s.setCtr o v).flashB = s.flashB ∧ (s.setCtr o v).flashOp = s.flashOp ∧ (s.setCtr o v).flashUsed = s.flashUsed ∧
    (s.setCtr o v).chart = s.chart ∧ (s.setCtr o v).keys = s.keys ∧ (s.setCtr o v).ports = s.ports ∧ (s.setCtr o v).pds = s.pds ∧
    (s.setCtr o v).lz = s.lz ∧ (s.setCtr o v).links = s.links ∧ (s.setCtr o v).routed = s.routed ∧
    (s.setCtr o v).groups = s.groups ∧ (s.setCtr o v).power = s.power ∧ (s.setCtr o v).tap = s.tap ∧
    (s.setCtr o v).preempted = s.preempted ∧ (s.setCtr o v).refLost = s.refLost := by
  and_intros <;> rfl

@[simp] theorem bump_frame (s : State) (o n : Nat) :
    (s.bump o n).pending = s.pending ∧ (s.bump o n).out = s.out ∧ (s.bump o n).drawn = s.drawn ∧ (s.bump o n).cores = s.cores ∧
    (s.bump o n).mem = s.mem ∧ (s.bump o n).vaults = s.vaults ∧ (s.bump o n).helm = s.helm ∧ (s.bump o n).log = s.log ∧
    (s.bump o n).host = s.host ∧ (s.bump o n).pwr = s.pwr ∧ (s.bump o n).start = s.start ∧ (s.bump o n).lode = s.lode ∧
    (s.bump o n).flashA = s.flashA ∧ (s.bump o n).flashB = s.flashB ∧ (s.bump o n).flashOp = s.flashOp ∧
    (s.bump o n).flashUsed = s.flashUsed ∧ (s.bump o n).chart = s.chart ∧ (s.bump o n).keys = s.keys ∧
    (s.bump o n).ports = s.ports ∧ (s.bump o n).pds = s.pds ∧ (s.bump o n).lz = s.lz ∧ (s.bump o n).links = s.links ∧
    (s.bump o n).routed = s.routed ∧ (s.bump o n).groups = s.groups ∧ (s.bump o n).power = s.power ∧ (s.bump o n).tap = s.tap ∧
    (s.bump o n).preempted = s.preempted ∧ (s.bump o n).refLost = s.refLost := by
  and_intros <;> rfl

@[simp] theorem bump32_frame (s : State) (o n : Nat) :
    (s.bump32 o n).pending = s.pending ∧ (s.bump32 o n).out = s.out ∧ (s.bump32 o n).drawn = s.drawn ∧
    (s.bump32 o n).cores = s.cores ∧ (s.bump32 o n).mem = s.mem ∧ (s.bump32 o n).vaults = s.vaults ∧
    (s.bump32 o n).helm = s.helm ∧ (s.bump32 o n).log = s.log ∧ (s.bump32 o n).host = s.host ∧ (s.bump32 o n).pwr = s.pwr ∧
    (s.bump32 o n).start = s.start ∧ (s.bump32 o n).lode = s.lode ∧ (s.bump32 o n).flashA = s.flashA ∧
    (s.bump32 o n).flashB = s.flashB ∧ (s.bump32 o n).flashOp = s.flashOp ∧ (s.bump32 o n).flashUsed = s.flashUsed ∧
    (s.bump32 o n).chart = s.chart ∧ (s.bump32 o n).keys = s.keys ∧ (s.bump32 o n).ports = s.ports ∧ (s.bump32 o n).pds = s.pds ∧
    (s.bump32 o n).lz = s.lz ∧ (s.bump32 o n).links = s.links ∧ (s.bump32 o n).routed = s.routed ∧
    (s.bump32 o n).groups = s.groups ∧ (s.bump32 o n).power = s.power ∧ (s.bump32 o n).tap = s.tap ∧
    (s.bump32 o n).preempted = s.preempted ∧ (s.bump32 o n).refLost = s.refLost := by
  and_intros <;> rfl

@[simp] theorem setBuf_frame (s : State) (b : Nat) (x : EvBuf) :
    (s.setBuf b x).pending = s.pending ∧ (s.setBuf b x).out = s.out ∧ (s.setBuf b x).drawn = s.drawn ∧
    (s.setBuf b x).cores = s.cores ∧ (s.setBuf b x).mem = s.mem ∧ (s.setBuf b x).vaults = s.vaults ∧
    (s.setBuf b x).helm = s.helm ∧ (s.setBuf b x).reg = s.reg ∧ (s.setBuf b x).host = s.host ∧ (s.setBuf b x).pwr = s.pwr ∧
    (s.setBuf b x).start = s.start ∧ (s.setBuf b x).lode = s.lode ∧ (s.setBuf b x).flashA = s.flashA ∧
    (s.setBuf b x).flashB = s.flashB ∧ (s.setBuf b x).flashOp = s.flashOp ∧ (s.setBuf b x).flashUsed = s.flashUsed ∧
    (s.setBuf b x).chart = s.chart ∧ (s.setBuf b x).keys = s.keys ∧ (s.setBuf b x).ports = s.ports ∧ (s.setBuf b x).pds = s.pds ∧
    (s.setBuf b x).lz = s.lz ∧ (s.setBuf b x).links = s.links ∧ (s.setBuf b x).routed = s.routed ∧
    (s.setBuf b x).groups = s.groups ∧ (s.setBuf b x).power = s.power ∧ (s.setBuf b x).tap = s.tap ∧
    (s.setBuf b x).preempted = s.preempted ∧ (s.setBuf b x).refLost = s.refLost := by
  and_intros <;> rfl

@[simp] theorem logRec_frame (s : State) (r : EventRec) :
    (s.logRec r).pending = s.pending ∧ (s.logRec r).out = s.out ∧ (s.logRec r).drawn = s.drawn ∧ (s.logRec r).cores = s.cores ∧
    (s.logRec r).mem = s.mem ∧ (s.logRec r).vaults = s.vaults ∧ (s.logRec r).helm = s.helm ∧ (s.logRec r).reg = s.reg ∧
    (s.logRec r).host = s.host ∧ (s.logRec r).pwr = s.pwr ∧ (s.logRec r).start = s.start ∧ (s.logRec r).lode = s.lode ∧
    (s.logRec r).flashA = s.flashA ∧ (s.logRec r).flashB = s.flashB ∧ (s.logRec r).flashOp = s.flashOp ∧
    (s.logRec r).flashUsed = s.flashUsed ∧ (s.logRec r).chart = s.chart ∧ (s.logRec r).keys = s.keys ∧
    (s.logRec r).ports = s.ports ∧ (s.logRec r).pds = s.pds ∧ (s.logRec r).lz = s.lz ∧ (s.logRec r).links = s.links ∧
    (s.logRec r).routed = s.routed ∧ (s.logRec r).groups = s.groups ∧ (s.logRec r).power = s.power ∧ (s.logRec r).tap = s.tap ∧
    (s.logRec r).preempted = s.preempted ∧ (s.logRec r).refLost = s.refLost := by
  and_intros <;> rfl

@[simp] theorem event_frame (s : State) (b : Nat) (c : Code) (d : Nat) :
    (s.event b c d).pending = s.pending ∧ (s.event b c d).out = s.out ∧ (s.event b c d).drawn = s.drawn ∧
    (s.event b c d).cores = s.cores ∧ (s.event b c d).mem = s.mem ∧ (s.event b c d).vaults = s.vaults ∧
    (s.event b c d).helm = s.helm ∧ (s.event b c d).reg = s.reg ∧ (s.event b c d).host = s.host ∧ (s.event b c d).pwr = s.pwr ∧
    (s.event b c d).start = s.start ∧ (s.event b c d).lode = s.lode ∧ (s.event b c d).flashA = s.flashA ∧
    (s.event b c d).flashB = s.flashB ∧ (s.event b c d).flashOp = s.flashOp ∧ (s.event b c d).flashUsed = s.flashUsed ∧
    (s.event b c d).chart = s.chart ∧ (s.event b c d).keys = s.keys ∧ (s.event b c d).ports = s.ports ∧
    (s.event b c d).pds = s.pds ∧ (s.event b c d).lz = s.lz ∧ (s.event b c d).links = s.links ∧
    (s.event b c d).routed = s.routed ∧ (s.event b c d).groups = s.groups ∧ (s.event b c d).power = s.power ∧
    (s.event b c d).tap = s.tap ∧ (s.event b c d).preempted = s.preempted ∧ (s.event b c d).refLost = s.refLost := by
  and_intros <;> rfl

@[simp] theorem refusal_frame (s : State) (b : Nat) (c : Code) (d : Nat) :
    (s.refusal b c d).pending = s.pending ∧ (s.refusal b c d).out = s.out ∧ (s.refusal b c d).drawn = s.drawn ∧
    (s.refusal b c d).cores = s.cores ∧ (s.refusal b c d).mem = s.mem ∧ (s.refusal b c d).vaults = s.vaults ∧
    (s.refusal b c d).helm = s.helm ∧ (s.refusal b c d).reg = s.reg ∧ (s.refusal b c d).host = s.host ∧
    (s.refusal b c d).pwr = s.pwr ∧ (s.refusal b c d).start = s.start ∧ (s.refusal b c d).lode = s.lode ∧
    (s.refusal b c d).flashA = s.flashA ∧ (s.refusal b c d).flashB = s.flashB ∧ (s.refusal b c d).flashOp = s.flashOp ∧
    (s.refusal b c d).flashUsed = s.flashUsed ∧ (s.refusal b c d).chart = s.chart ∧ (s.refusal b c d).keys = s.keys ∧
    (s.refusal b c d).ports = s.ports ∧ (s.refusal b c d).pds = s.pds ∧ (s.refusal b c d).lz = s.lz ∧
    (s.refusal b c d).links = s.links ∧ (s.refusal b c d).routed = s.routed ∧ (s.refusal b c d).groups = s.groups ∧
    (s.refusal b c d).power = s.power ∧ (s.refusal b c d).tap = s.tap ∧ (s.refusal b c d).preempted = s.preempted ∧
    (s.refusal b c d).refLost = s.refLost := by
  and_intros <;> rfl

@[simp] theorem setPat_frame (s : State) (p : Nat) (x : Pattern) :
    (s.setPat p x).pending = s.pending ∧ (s.setPat p x).out = s.out ∧ (s.setPat p x).drawn = s.drawn ∧
    (s.setPat p x).cores = s.cores ∧ (s.setPat p x).mem = s.mem ∧ (s.setPat p x).vaults = s.vaults ∧ (s.setPat p x).reg = s.reg ∧
    (s.setPat p x).log = s.log ∧ (s.setPat p x).host = s.host ∧ (s.setPat p x).pwr = s.pwr ∧ (s.setPat p x).start = s.start ∧
    (s.setPat p x).lode = s.lode ∧ (s.setPat p x).flashA = s.flashA ∧ (s.setPat p x).flashB = s.flashB ∧
    (s.setPat p x).flashOp = s.flashOp ∧ (s.setPat p x).flashUsed = s.flashUsed ∧ (s.setPat p x).chart = s.chart ∧
    (s.setPat p x).keys = s.keys ∧ (s.setPat p x).ports = s.ports ∧ (s.setPat p x).pds = s.pds ∧ (s.setPat p x).lz = s.lz ∧
    (s.setPat p x).links = s.links ∧ (s.setPat p x).routed = s.routed ∧ (s.setPat p x).groups = s.groups ∧
    (s.setPat p x).power = s.power ∧ (s.setPat p x).tap = s.tap ∧ (s.setPat p x).preempted = s.preempted ∧
    (s.setPat p x).refLost = s.refLost := by
  and_intros <;> rfl

@[simp] theorem openRow_frame (s : State) (a : Nat) :
    (openRow s a).pending = s.pending ∧ (openRow s a).out = s.out ∧ (openRow s a).drawn = s.drawn ∧
    (openRow s a).cores = s.cores ∧ (openRow s a).mem = s.mem ∧ (openRow s a).helm = s.helm ∧ (openRow s a).reg = s.reg ∧
    (openRow s a).log = s.log ∧ (openRow s a).host = s.host ∧ (openRow s a).pwr = s.pwr ∧ (openRow s a).start = s.start ∧
    (openRow s a).lode = s.lode ∧ (openRow s a).flashA = s.flashA ∧ (openRow s a).flashB = s.flashB ∧
    (openRow s a).flashOp = s.flashOp ∧ (openRow s a).flashUsed = s.flashUsed ∧ (openRow s a).chart = s.chart ∧
    (openRow s a).keys = s.keys ∧ (openRow s a).ports = s.ports ∧ (openRow s a).pds = s.pds ∧ (openRow s a).lz = s.lz ∧
    (openRow s a).links = s.links ∧ (openRow s a).routed = s.routed ∧ (openRow s a).groups = s.groups ∧
    (openRow s a).power = s.power ∧ (openRow s a).tap = s.tap ∧ (openRow s a).preempted = s.preempted ∧
    (openRow s a).refLost = s.refLost := by
  and_intros <;> rfl

@[simp] theorem openRows_frame (s : State) (a n : Nat) :
    (openRows s a n).pending = s.pending ∧ (openRows s a n).out = s.out ∧ (openRows s a n).drawn = s.drawn ∧
    (openRows s a n).cores = s.cores ∧ (openRows s a n).mem = s.mem ∧ (openRows s a n).helm = s.helm ∧
    (openRows s a n).reg = s.reg ∧ (openRows s a n).log = s.log ∧ (openRows s a n).host = s.host ∧ (openRows s a n).pwr = s.pwr ∧
    (openRows s a n).start = s.start ∧ (openRows s a n).lode = s.lode ∧ (openRows s a n).flashA = s.flashA ∧
    (openRows s a n).flashB = s.flashB ∧ (openRows s a n).flashOp = s.flashOp ∧ (openRows s a n).flashUsed = s.flashUsed ∧
    (openRows s a n).chart = s.chart ∧ (openRows s a n).keys = s.keys ∧ (openRows s a n).ports = s.ports ∧
    (openRows s a n).pds = s.pds ∧ (openRows s a n).lz = s.lz ∧ (openRows s a n).links = s.links ∧
    (openRows s a n).routed = s.routed ∧ (openRows s a n).groups = s.groups ∧ (openRows s a n).power = s.power ∧
    (openRows s a n).tap = s.tap ∧ (openRows s a n).preempted = s.preempted ∧ (openRows s a n).refLost = s.refLost :=
  ⟨openRows_field State.pending (fun _ _ => rfl) s a n, openRows_field State.out (fun _ _ => rfl) s a n,
    openRows_field State.drawn (fun _ _ => rfl) s a n, openRows_field State.cores (fun _ _ => rfl) s a n,
    openRows_field State.mem (fun _ _ => rfl) s a n, openRows_field State.helm (fun _ _ => rfl) s a n,
    openRows_field State.reg (fun _ _ => rfl) s a n, openRows_field State.log (fun _ _ => rfl) s a n,
    openRows_field State.host (fun _ _ => rfl) s a n, openRows_field State.pwr (fun _ _ => rfl) s a n,
    openRows_field State.start (fun _ _ => rfl) s a n, openRows_field State.lode (fun _ _ => rfl) s a n,
    openRows_field State.flashA (fun _ _ => rfl) s a n, openRows_field State.flashB (fun _ _ => rfl) s a n,
    openRows_field State.flashOp (fun _ _ => rfl) s a n, openRows_field State.flashUsed (fun _ _ => rfl) s a n,
    openRows_field State.chart (fun _ _ => rfl) s a n, openRows_field State.keys (fun _ _ => rfl) s a n,
    openRows_field State.ports (fun _ _ => rfl) s a n, openRows_field State.pds (fun _ _ => rfl) s a n,
    openRows_field State.lz (fun _ _ => rfl) s a n, openRows_field State.links (fun _ _ => rfl) s a n,
    openRows_field State.routed (fun _ _ => rfl) s a n, openRows_field State.groups (fun _ _ => rfl) s a n,
    openRows_field State.power (fun _ _ => rfl) s a n, openRows_field State.tap (fun _ _ => rfl) s a n,
    openRows_field State.preempted (fun _ _ => rfl) s a n, openRows_field State.refLost (fun _ _ => rfl) s a n⟩

@[simp] theorem wrMem_frame (s : State) (a : Nat) (b : Byte) :
    (s.wrMem a b).pending = s.pending ∧ (s.wrMem a b).out = s.out ∧ (s.wrMem a b).drawn = s.drawn ∧
    (s.wrMem a b).cores = s.cores ∧ (s.wrMem a b).helm = s.helm ∧ (s.wrMem a b).reg = s.reg ∧ (s.wrMem a b).log = s.log ∧
    (s.wrMem a b).host = s.host ∧ (s.wrMem a b).pwr = s.pwr ∧ (s.wrMem a b).start = s.start ∧ (s.wrMem a b).lode = s.lode ∧
    (s.wrMem a b).flashA = s.flashA ∧ (s.wrMem a b).flashB = s.flashB ∧ (s.wrMem a b).flashOp = s.flashOp ∧
    (s.wrMem a b).flashUsed = s.flashUsed ∧ (s.wrMem a b).chart = s.chart ∧ (s.wrMem a b).keys = s.keys ∧
    (s.wrMem a b).ports = s.ports ∧ (s.wrMem a b).pds = s.pds ∧ (s.wrMem a b).lz = s.lz ∧ (s.wrMem a b).links = s.links ∧
    (s.wrMem a b).routed = s.routed ∧ (s.wrMem a b).groups = s.groups ∧ (s.wrMem a b).power = s.power ∧
    (s.wrMem a b).tap = s.tap ∧ (s.wrMem a b).preempted = s.preempted ∧ (s.wrMem a b).refLost = s.refLost := by
  and_intros <;> rfl

@[simp] theorem wrMemBytes_frame (s : State) (a : Nat) (b : List Byte) :
    (s.wrMemBytes a b).pending = s.pending ∧ (s.wrMemBytes a b).out = s.out ∧ (s.wrMemBytes a b).drawn = s.drawn ∧
    (s.wrMemBytes a b).cores = s.cores ∧ (s.wrMemBytes a b).helm = s.helm ∧ (s.wrMemBytes a b).reg = s.reg ∧
    (s.wrMemBytes a b).log = s.log ∧ (s.wrMemBytes a b).host = s.host ∧ (s.wrMemBytes a b).pwr = s.pwr ∧
    (s.wrMemBytes a b).start = s.start ∧ (s.wrMemBytes a b).lode = s.lode ∧ (s.wrMemBytes a b).flashA = s.flashA ∧
    (s.wrMemBytes a b).flashB = s.flashB ∧ (s.wrMemBytes a b).flashOp = s.flashOp ∧ (s.wrMemBytes a b).flashUsed = s.flashUsed ∧
    (s.wrMemBytes a b).chart = s.chart ∧ (s.wrMemBytes a b).keys = s.keys ∧ (s.wrMemBytes a b).ports = s.ports ∧
    (s.wrMemBytes a b).pds = s.pds ∧ (s.wrMemBytes a b).lz = s.lz ∧ (s.wrMemBytes a b).links = s.links ∧
    (s.wrMemBytes a b).routed = s.routed ∧ (s.wrMemBytes a b).groups = s.groups ∧ (s.wrMemBytes a b).power = s.power ∧
    (s.wrMemBytes a b).tap = s.tap ∧ (s.wrMemBytes a b).preempted = s.preempted ∧ (s.wrMemBytes a b).refLost = s.refLost :=
  ⟨openRows_field State.pending (fun _ _ => rfl) { s with mem := wrBytes s.mem a b } a b.length,
    openRows_field State.out (fun _ _ => rfl) { s with mem := wrBytes s.mem a b } a b.length,
    openRows_field State.drawn (fun _ _ => rfl) { s with mem := wrBytes s.mem a b } a b.length,
    openRows_field State.cores (fun _ _ => rfl) { s with mem := wrBytes s.mem a b } a b.length,
    openRows_field State.helm (fun _ _ => rfl) { s with mem := wrBytes s.mem a b } a b.length,
    openRows_field State.reg (fun _ _ => rfl) { s with mem := wrBytes s.mem a b } a b.length,
    openRows_field State.log (fun _ _ => rfl) { s with mem := wrBytes s.mem a b } a b.length,
    openRows_field State.host (fun _ _ => rfl) { s with mem := wrBytes s.mem a b } a b.length,
    openRows_field State.pwr (fun _ _ => rfl) { s with mem := wrBytes s.mem a b } a b.length,
    openRows_field State.start (fun _ _ => rfl) { s with mem := wrBytes s.mem a b } a b.length,
    openRows_field State.lode (fun _ _ => rfl) { s with mem := wrBytes s.mem a b } a b.length,
    openRows_field State.flashA (fun _ _ => rfl) { s with mem := wrBytes s.mem a b } a b.length,
    openRows_field State.flashB (fun _ _ => rfl) { s with mem := wrBytes s.mem a b } a b.length,
    openRows_field State.flashOp (fun _ _ => rfl) { s with mem := wrBytes s.mem a b } a b.length,
    openRows_field State.flashUsed (fun _ _ => rfl) { s with mem := wrBytes s.mem a b } a b.length,
    openRows_field State.chart (fun _ _ => rfl) { s with mem := wrBytes s.mem a b } a b.length,
    openRows_field State.keys (fun _ _ => rfl) { s with mem := wrBytes s.mem a b } a b.length,
    openRows_field State.ports (fun _ _ => rfl) { s with mem := wrBytes s.mem a b } a b.length,
    openRows_field State.pds (fun _ _ => rfl) { s with mem := wrBytes s.mem a b } a b.length,
    openRows_field State.lz (fun _ _ => rfl) { s with mem := wrBytes s.mem a b } a b.length,
    openRows_field State.links (fun _ _ => rfl) { s with mem := wrBytes s.mem a b } a b.length,
    openRows_field State.routed (fun _ _ => rfl) { s with mem := wrBytes s.mem a b } a b.length,
    openRows_field State.groups (fun _ _ => rfl) { s with mem := wrBytes s.mem a b } a b.length,
    openRows_field State.power (fun _ _ => rfl) { s with mem := wrBytes s.mem a b } a b.length,
    openRows_field State.tap (fun _ _ => rfl) { s with mem := wrBytes s.mem a b } a b.length,
    openRows_field State.preempted (fun _ _ => rfl) { s with mem := wrBytes s.mem a b } a b.length,
    openRows_field State.refLost (fun _ _ => rfl) { s with mem := wrBytes s.mem a b } a b.length⟩

@[simp] theorem takeFrames_frame (s : State) (f n : Nat) (taken : Bool) :
    (s.takeFrames f n taken).pending = s.pending ∧ (s.takeFrames f n taken).out = s.out ∧
    (s.takeFrames f n taken).drawn = s.drawn ∧ (s.takeFrames f n taken).cores = s.cores ∧ (s.takeFrames f n taken).mem = s.mem ∧
    (s.takeFrames f n taken).vaults = s.vaults ∧ (s.takeFrames f n taken).reg = s.reg ∧ (s.takeFrames f n taken).log = s.log ∧
    (s.takeFrames f n taken).host = s.host ∧ (s.takeFrames f n taken).pwr = s.pwr ∧ (s.takeFrames f n taken).start = s.start ∧
    (s.takeFrames f n taken).lode = s.lode ∧ (s.takeFrames f n taken).flashA = s.flashA ∧
    (s.takeFrames f n taken).flashB = s.flashB ∧ (s.takeFrames f n taken).flashOp = s.flashOp ∧
    (s.takeFrames f n taken).flashUsed = s.flashUsed ∧ (s.takeFrames f n taken).chart = s.chart ∧
    (s.takeFrames f n taken).keys = s.keys ∧ (s.takeFrames f n taken).ports = s.ports ∧ (s.takeFrames f n taken).pds = s.pds ∧
    (s.takeFrames f n taken).lz = s.lz ∧ (s.takeFrames f n taken).links = s.links ∧ (s.takeFrames f n taken).routed = s.routed ∧
    (s.takeFrames f n taken).groups = s.groups ∧ (s.takeFrames f n taken).power = s.power ∧
    (s.takeFrames f n taken).tap = s.tap ∧ (s.takeFrames f n taken).preempted = s.preempted ∧
    (s.takeFrames f n taken).refLost = s.refLost := by
  and_intros <;> rfl

@[simp] theorem setPd_frame (s : State) (k : Fin 4) (x : PortDie) :
    (s.setPd k x).pending = s.pending ∧ (s.setPd k x).out = s.out ∧ (s.setPd k x).drawn = s.drawn ∧
    (s.setPd k x).cores = s.cores ∧ (s.setPd k x).mem = s.mem ∧ (s.setPd k x).vaults = s.vaults ∧ (s.setPd k x).helm = s.helm ∧
    (s.setPd k x).reg = s.reg ∧ (s.setPd k x).log = s.log ∧ (s.setPd k x).host = s.host ∧ (s.setPd k x).pwr = s.pwr ∧
    (s.setPd k x).start = s.start ∧ (s.setPd k x).lode = s.lode ∧ (s.setPd k x).flashA = s.flashA ∧
    (s.setPd k x).flashB = s.flashB ∧ (s.setPd k x).flashOp = s.flashOp ∧ (s.setPd k x).flashUsed = s.flashUsed ∧
    (s.setPd k x).chart = s.chart ∧ (s.setPd k x).keys = s.keys ∧ (s.setPd k x).ports = s.ports ∧ (s.setPd k x).lz = s.lz ∧
    (s.setPd k x).links = s.links ∧ (s.setPd k x).routed = s.routed ∧ (s.setPd k x).groups = s.groups ∧
    (s.setPd k x).power = s.power ∧ (s.setPd k x).tap = s.tap ∧ (s.setPd k x).preempted = s.preempted ∧
    (s.setPd k x).refLost = s.refLost := by
  and_intros <;> rfl

@[simp] theorem setConn_frame (s : State) (k : Fin 4) (n : Nat) (x : Option Conn) :
    (s.setConn k n x).pending = s.pending ∧ (s.setConn k n x).out = s.out ∧ (s.setConn k n x).drawn = s.drawn ∧
    (s.setConn k n x).cores = s.cores ∧ (s.setConn k n x).mem = s.mem ∧ (s.setConn k n x).vaults = s.vaults ∧
    (s.setConn k n x).helm = s.helm ∧ (s.setConn k n x).reg = s.reg ∧ (s.setConn k n x).log = s.log ∧
    (s.setConn k n x).host = s.host ∧ (s.setConn k n x).pwr = s.pwr ∧ (s.setConn k n x).start = s.start ∧
    (s.setConn k n x).lode = s.lode ∧ (s.setConn k n x).flashA = s.flashA ∧ (s.setConn k n x).flashB = s.flashB ∧
    (s.setConn k n x).flashOp = s.flashOp ∧ (s.setConn k n x).flashUsed = s.flashUsed ∧ (s.setConn k n x).chart = s.chart ∧
    (s.setConn k n x).keys = s.keys ∧ (s.setConn k n x).ports = s.ports ∧ (s.setConn k n x).lz = s.lz ∧
    (s.setConn k n x).links = s.links ∧ (s.setConn k n x).routed = s.routed ∧ (s.setConn k n x).groups = s.groups ∧
    (s.setConn k n x).power = s.power ∧ (s.setConn k n x).tap = s.tap ∧ (s.setConn k n x).preempted = s.preempted ∧
    (s.setConn k n x).refLost = s.refLost := by
  and_intros <;> rfl

@[simp] theorem setStream_frame (s : State) (slot : Nat) (x : Option Stream) :
    (s.setStream slot x).pending = s.pending ∧ (s.setStream slot x).out = s.out ∧ (s.setStream slot x).drawn = s.drawn ∧
    (s.setStream slot x).cores = s.cores ∧ (s.setStream slot x).mem = s.mem ∧ (s.setStream slot x).vaults = s.vaults ∧
    (s.setStream slot x).reg = s.reg ∧ (s.setStream slot x).log = s.log ∧ (s.setStream slot x).host = s.host ∧
    (s.setStream slot x).pwr = s.pwr ∧ (s.setStream slot x).start = s.start ∧ (s.setStream slot x).lode = s.lode ∧
    (s.setStream slot x).flashA = s.flashA ∧ (s.setStream slot x).flashB = s.flashB ∧ (s.setStream slot x).flashOp = s.flashOp ∧
    (s.setStream slot x).flashUsed = s.flashUsed ∧ (s.setStream slot x).chart = s.chart ∧ (s.setStream slot x).keys = s.keys ∧
    (s.setStream slot x).ports = s.ports ∧ (s.setStream slot x).pds = s.pds ∧ (s.setStream slot x).lz = s.lz ∧
    (s.setStream slot x).links = s.links ∧ (s.setStream slot x).routed = s.routed ∧ (s.setStream slot x).groups = s.groups ∧
    (s.setStream slot x).power = s.power ∧ (s.setStream slot x).tap = s.tap ∧ (s.setStream slot x).preempted = s.preempted ∧
    (s.setStream slot x).refLost = s.refLost := by
  and_intros <;> rfl

@[simp] theorem setMark_frame (s : State) (t : Nat) (m : SiteMark) :
    (s.setMark t m).pending = s.pending ∧ (s.setMark t m).out = s.out ∧ (s.setMark t m).drawn = s.drawn ∧
    (s.setMark t m).cores = s.cores ∧ (s.setMark t m).mem = s.mem ∧ (s.setMark t m).vaults = s.vaults ∧
    (s.setMark t m).reg = s.reg ∧ (s.setMark t m).log = s.log ∧ (s.setMark t m).host = s.host ∧ (s.setMark t m).pwr = s.pwr ∧
    (s.setMark t m).start = s.start ∧ (s.setMark t m).lode = s.lode ∧ (s.setMark t m).flashA = s.flashA ∧
    (s.setMark t m).flashB = s.flashB ∧ (s.setMark t m).flashOp = s.flashOp ∧ (s.setMark t m).flashUsed = s.flashUsed ∧
    (s.setMark t m).chart = s.chart ∧ (s.setMark t m).keys = s.keys ∧ (s.setMark t m).ports = s.ports ∧
    (s.setMark t m).pds = s.pds ∧ (s.setMark t m).lz = s.lz ∧ (s.setMark t m).links = s.links ∧
    (s.setMark t m).routed = s.routed ∧ (s.setMark t m).groups = s.groups ∧ (s.setMark t m).power = s.power ∧
    (s.setMark t m).tap = s.tap ∧ (s.setMark t m).preempted = s.preempted ∧ (s.setMark t m).refLost = s.refLost := by
  and_intros <;> rfl

@[simp] theorem setPlace_frame (s : State) (c : Nat) (p : Place) :
    (s.setPlace c p).pending = s.pending ∧ (s.setPlace c p).out = s.out ∧ (s.setPlace c p).drawn = s.drawn ∧
    (s.setPlace c p).cores = s.cores ∧ (s.setPlace c p).mem = s.mem ∧ (s.setPlace c p).vaults = s.vaults ∧
    (s.setPlace c p).reg = s.reg ∧ (s.setPlace c p).log = s.log ∧ (s.setPlace c p).host = s.host ∧ (s.setPlace c p).pwr = s.pwr ∧
    (s.setPlace c p).start = s.start ∧ (s.setPlace c p).lode = s.lode ∧ (s.setPlace c p).flashA = s.flashA ∧
    (s.setPlace c p).flashB = s.flashB ∧ (s.setPlace c p).flashOp = s.flashOp ∧ (s.setPlace c p).flashUsed = s.flashUsed ∧
    (s.setPlace c p).chart = s.chart ∧ (s.setPlace c p).keys = s.keys ∧ (s.setPlace c p).ports = s.ports ∧
    (s.setPlace c p).pds = s.pds ∧ (s.setPlace c p).lz = s.lz ∧ (s.setPlace c p).links = s.links ∧
    (s.setPlace c p).routed = s.routed ∧ (s.setPlace c p).groups = s.groups ∧ (s.setPlace c p).power = s.power ∧
    (s.setPlace c p).tap = s.tap ∧ (s.setPlace c p).preempted = s.preempted ∧ (s.setPlace c p).refLost = s.refLost := by
  and_intros <;> rfl

@[simp] theorem clearCtrs_frame (s : State) (c : Nat) :
    (s.clearCtrs c).pending = s.pending ∧ (s.clearCtrs c).out = s.out ∧ (s.clearCtrs c).drawn = s.drawn ∧
    (s.clearCtrs c).cores = s.cores ∧ (s.clearCtrs c).mem = s.mem ∧ (s.clearCtrs c).vaults = s.vaults ∧
    (s.clearCtrs c).helm = s.helm ∧ (s.clearCtrs c).log = s.log ∧ (s.clearCtrs c).host = s.host ∧ (s.clearCtrs c).pwr = s.pwr ∧
    (s.clearCtrs c).start = s.start ∧ (s.clearCtrs c).lode = s.lode ∧ (s.clearCtrs c).flashA = s.flashA ∧
    (s.clearCtrs c).flashB = s.flashB ∧ (s.clearCtrs c).flashOp = s.flashOp ∧ (s.clearCtrs c).flashUsed = s.flashUsed ∧
    (s.clearCtrs c).chart = s.chart ∧ (s.clearCtrs c).keys = s.keys ∧ (s.clearCtrs c).ports = s.ports ∧
    (s.clearCtrs c).pds = s.pds ∧ (s.clearCtrs c).lz = s.lz ∧ (s.clearCtrs c).links = s.links ∧
    (s.clearCtrs c).routed = s.routed ∧ (s.clearCtrs c).groups = s.groups ∧ (s.clearCtrs c).power = s.power ∧
    (s.clearCtrs c).tap = s.tap ∧ (s.clearCtrs c).preempted = s.preempted ∧ (s.clearCtrs c).refLost = s.refLost := by
  and_intros <;> rfl

@[simp] theorem setSteps_frame (s : State) (l : List Step) :
    (s.setSteps l).pending = s.pending ∧ (s.setSteps l).out = s.out ∧ (s.setSteps l).drawn = s.drawn ∧
    (s.setSteps l).cores = s.cores ∧ (s.setSteps l).mem = s.mem ∧ (s.setSteps l).vaults = s.vaults ∧ (s.setSteps l).reg = s.reg ∧
    (s.setSteps l).log = s.log ∧ (s.setSteps l).host = s.host ∧ (s.setSteps l).pwr = s.pwr ∧ (s.setSteps l).start = s.start ∧
    (s.setSteps l).lode = s.lode ∧ (s.setSteps l).flashA = s.flashA ∧ (s.setSteps l).flashB = s.flashB ∧
    (s.setSteps l).flashOp = s.flashOp ∧ (s.setSteps l).flashUsed = s.flashUsed ∧ (s.setSteps l).chart = s.chart ∧
    (s.setSteps l).keys = s.keys ∧ (s.setSteps l).ports = s.ports ∧ (s.setSteps l).pds = s.pds ∧ (s.setSteps l).lz = s.lz ∧
    (s.setSteps l).links = s.links ∧ (s.setSteps l).routed = s.routed ∧ (s.setSteps l).groups = s.groups ∧
    (s.setSteps l).power = s.power ∧ (s.setSteps l).tap = s.tap ∧ (s.setSteps l).preempted = s.preempted ∧
    (s.setSteps l).refLost = s.refLost := by
  and_intros <;> rfl

@[simp] theorem mapSteps_frame (s : State) (f : Step → Step) :
    (s.mapSteps f).pending = s.pending ∧ (s.mapSteps f).out = s.out ∧ (s.mapSteps f).drawn = s.drawn ∧
    (s.mapSteps f).cores = s.cores ∧ (s.mapSteps f).mem = s.mem ∧ (s.mapSteps f).vaults = s.vaults ∧ (s.mapSteps f).reg = s.reg ∧
    (s.mapSteps f).log = s.log ∧ (s.mapSteps f).host = s.host ∧ (s.mapSteps f).pwr = s.pwr ∧ (s.mapSteps f).start = s.start ∧
    (s.mapSteps f).lode = s.lode ∧ (s.mapSteps f).flashA = s.flashA ∧ (s.mapSteps f).flashB = s.flashB ∧
    (s.mapSteps f).flashOp = s.flashOp ∧ (s.mapSteps f).flashUsed = s.flashUsed ∧ (s.mapSteps f).chart = s.chart ∧
    (s.mapSteps f).keys = s.keys ∧ (s.mapSteps f).ports = s.ports ∧ (s.mapSteps f).pds = s.pds ∧ (s.mapSteps f).lz = s.lz ∧
    (s.mapSteps f).links = s.links ∧ (s.mapSteps f).routed = s.routed ∧ (s.mapSteps f).groups = s.groups ∧
    (s.mapSteps f).power = s.power ∧ (s.mapSteps f).tap = s.tap ∧ (s.mapSteps f).preempted = s.preempted ∧
    (s.mapSteps f).refLost = s.refLost := by
  and_intros <;> rfl

@[simp] theorem setPort_frame (s : State) (p : Fin 8) (x : EthPort) :
    (s.setPort p x).pending = s.pending ∧ (s.setPort p x).out = s.out ∧ (s.setPort p x).drawn = s.drawn ∧
    (s.setPort p x).cores = s.cores ∧ (s.setPort p x).mem = s.mem ∧ (s.setPort p x).vaults = s.vaults ∧
    (s.setPort p x).helm = s.helm ∧ (s.setPort p x).reg = s.reg ∧ (s.setPort p x).log = s.log ∧ (s.setPort p x).host = s.host ∧
    (s.setPort p x).pwr = s.pwr ∧ (s.setPort p x).start = s.start ∧ (s.setPort p x).lode = s.lode ∧
    (s.setPort p x).flashA = s.flashA ∧ (s.setPort p x).flashB = s.flashB ∧ (s.setPort p x).flashOp = s.flashOp ∧
    (s.setPort p x).flashUsed = s.flashUsed ∧ (s.setPort p x).chart = s.chart ∧ (s.setPort p x).keys = s.keys ∧
    (s.setPort p x).pds = s.pds ∧ (s.setPort p x).lz = s.lz ∧ (s.setPort p x).links = s.links ∧
    (s.setPort p x).routed = s.routed ∧ (s.setPort p x).groups = s.groups ∧ (s.setPort p x).power = s.power ∧
    (s.setPort p x).tap = s.tap ∧ (s.setPort p x).preempted = s.preempted ∧ (s.setPort p x).refLost = s.refLost := by
  and_intros <;> rfl

@[simp] theorem setGroup_frame (s : State) (gid : Nat) (g : Option Group) :
    (s.setGroup gid g).pending = s.pending ∧ (s.setGroup gid g).out = s.out ∧ (s.setGroup gid g).drawn = s.drawn ∧
    (s.setGroup gid g).cores = s.cores ∧ (s.setGroup gid g).mem = s.mem ∧ (s.setGroup gid g).vaults = s.vaults ∧
    (s.setGroup gid g).helm = s.helm ∧ (s.setGroup gid g).reg = s.reg ∧ (s.setGroup gid g).log = s.log ∧
    (s.setGroup gid g).host = s.host ∧ (s.setGroup gid g).pwr = s.pwr ∧ (s.setGroup gid g).start = s.start ∧
    (s.setGroup gid g).lode = s.lode ∧ (s.setGroup gid g).flashA = s.flashA ∧ (s.setGroup gid g).flashB = s.flashB ∧
    (s.setGroup gid g).flashOp = s.flashOp ∧ (s.setGroup gid g).flashUsed = s.flashUsed ∧ (s.setGroup gid g).chart = s.chart ∧
    (s.setGroup gid g).keys = s.keys ∧ (s.setGroup gid g).ports = s.ports ∧ (s.setGroup gid g).pds = s.pds ∧
    (s.setGroup gid g).lz = s.lz ∧ (s.setGroup gid g).links = s.links ∧ (s.setGroup gid g).routed = s.routed ∧
    (s.setGroup gid g).power = s.power ∧ (s.setGroup gid g).tap = s.tap ∧ (s.setGroup gid g).preempted = s.preempted ∧
    (s.setGroup gid g).refLost = s.refLost := by
  and_intros <;> rfl

/-! ### Reads after an update -/

@[simp] theorem core_setCore_self (s : State) (c : Nat) (k : Core) : (s.setCore c k).core c = k := Sparse.get_set_self ..
theorem core_setCore_ne (s : State) {c d : Nat} (h : d ≠ c) (k : Core) : (s.setCore c k).core d = s.core d :=
  Sparse.get_set_ne _ _ h _
@[simp] theorem setCore_setCore_core (s : State) (c : Nat) (k k' : Core) : ((s.setCore c k).setCore c k').core c = k' := by simp

@[simp] theorem vault_setVault_self (s : State) (v : Nat) (x : Vault) : (s.setVault v x).vault v = x := Sparse.get_set_self ..
theorem vault_setVault_ne (s : State) {v w : Nat} (h : w ≠ v) (x : Vault) : (s.setVault v x).vault w = s.vault w :=
  Sparse.get_set_ne _ _ h _

@[simp] theorem ctr_setCtr_self (s : State) (o : Nat) (v : W64) : (s.setCtr o v).ctr o = v := Sparse.get_set_self ..
theorem ctr_setCtr_ne (s : State) {o p : Nat} (h : p ≠ o) (v : W64) : (s.setCtr o v).ctr p = s.ctr p := Sparse.get_set_ne _ _ h _
@[simp] theorem ctr_bump_self (s : State) (o n : Nat) : (s.bump o n).ctr o = s.ctr o + BitVec.ofNat 64 n := ctr_setCtr_self ..
theorem ctr_bump_ne (s : State) {o p : Nat} (h : p ≠ o) (n : Nat) : (s.bump o n).ctr p = s.ctr p := ctr_setCtr_ne _ h _

@[simp] theorem buf_setBuf_self (s : State) (b : Nat) (x : EvBuf) : (s.setBuf b x).buf b = x := Sparse.get_set_self ..
theorem buf_setBuf_ne (s : State) {b d : Nat} (h : d ≠ b) (x : EvBuf) : (s.setBuf b x).buf d = s.buf d := Sparse.get_set_ne _ _ h _

@[simp] theorem pat_setPat_self (s : State) (p : Nat) (x : Pattern) : (s.setPat p x).pat p = some x := by
  simp [State.pat, State.setPat]
theorem pat_setPat_ne (s : State) {p q : Nat} (h : q ≠ p) (x : Pattern) : (s.setPat p x).pat q = s.pat q := by
  simp [State.pat, State.setPat, Sparse.get_set_ne _ _ h]

@[simp] theorem stream_setStream_self (s : State) (n : Nat) (x : Option Stream) : (s.setStream n x).stream n = x :=
  Sparse.get_set_self ..
theorem stream_setStream_ne (s : State) {n m : Nat} (h : m ≠ n) (x : Option Stream) : (s.setStream n x).stream m = s.stream m :=
  Sparse.get_set_ne _ _ h _

@[simp] theorem mark_setMark_self (s : State) (t : Nat) (m : SiteMark) : (s.setMark t m).mark t = m := Sparse.get_set_self ..
theorem mark_setMark_ne (s : State) {t u : Nat} (h : u ≠ t) (m : SiteMark) : (s.setMark t m).mark u = s.mark u :=
  Sparse.get_set_ne _ _ h _

@[simp] theorem pd_setPd_self (s : State) (k : Fin 4) (x : PortDie) : (s.setPd k x).pd k = x := by
  simp [State.setPd, State.pd, Vector.get_eq_getElem]
theorem pd_setPd_ne (s : State) {k j : Fin 4} (h : j ≠ k) (x : PortDie) : (s.setPd k x).pd j = s.pd j := by
  have : k.val ≠ j.val := fun e => h (Fin.ext e.symm)
  simp [State.setPd, State.pd, Vector.get_eq_getElem, this]

@[simp] theorem conn_setConn_self (s : State) (k : Fin 4) (n : Nat) (x : Option Conn) : (s.setConn k n x).conn k n = x := by
  simp [State.setConn, State.conn]
theorem conn_setConn_ne (s : State) (k : Fin 4) {n m : Nat} (h : m ≠ n) (x : Option Conn) :
    (s.setConn k n x).conn k m = s.conn k m := by
  simp [State.setConn, State.conn, Sparse.get_set_ne _ _ h]

@[simp] theorem group_setGroup_self (s : State) (n : Nat) (g : Option Group) : (s.setGroup n g).group n = g := Sparse.get_set_self ..
theorem group_setGroup_ne (s : State) {n m : Nat} (h : m ≠ n) (g : Option Group) : (s.setGroup n g).group m = s.group m :=
  Sparse.get_set_ne _ _ h _

@[simp] theorem wrMem_mem (s : State) (a : Nat) (b : Byte) : (s.wrMem a b).mem = wrByte s.mem a b := rfl
@[simp] theorem wrMemBytes_mem (s : State) (a : Nat) (l : List Byte) : (s.wrMemBytes a l).mem = wrBytes s.mem a l :=
  openRows_field State.mem (fun _ _ => rfl) { s with mem := wrBytes s.mem a l } a l.length
@[simp] theorem rdByte_wrMem_self (s : State) (a : Nat) (b : Byte) : rdByte (s.wrMem a b).mem a = b := rdByte_wrByte_self ..
theorem rdByte_wrMem_ne (s : State) {a x : Nat} (h : x ≠ a) (b : Byte) : rdByte (s.wrMem a b).mem x = rdByte s.mem x :=
  rdByte_wrByte_ne _ h _
theorem rdByte_wrMemBytes_out (s : State) (a : Nat) (l : List Byte) (x : Nat) (h : x < a ∨ a + l.length ≤ x) :
    rdByte (s.wrMemBytes a l).mem x = rdByte s.mem x := by
  rw [wrMemBytes_mem, rdByte_wrBytes_out _ _ _ _ h]
theorem wrMem_wf (s : State) (a : Nat) (b : Byte) (h : Memory.wf s.mem = true) : Memory.wf (s.wrMem a b).mem = true :=
  wrByte_wf _ _ _ h
theorem wrMemBytes_wf (s : State) (a : Nat) (l : List Byte) (h : Memory.wf s.mem = true) : Memory.wf (s.wrMemBytes a l).mem = true := by
  rw [wrMemBytes_mem]
  exact wrBytes_wf _ _ _ h

/-- Sending several messages is sending one after another. -/
theorem emits_cons (s : State) (e : Emit) (l : List Emit) : s.emits (e :: l) = (s.emit e).emits l := by
  simp [State.emits, State.emit]
@[simp] theorem emit_out (s : State) (e : Emit) : (s.emit e).out = s.out ++ [e] := rfl
@[simp] theorem emits_out (s : State) (l : List Emit) : (s.emits l).out = s.out ++ l := rfl

/-! ### Registers, engines, banks and receive queues of a core -/

@[simp] theorem queue_setQueue_self (k : Core) (i : Fin 5) (x : EngineQ) : (k.setQueue i x).queue i = x := by
  simp [Core.setQueue, Core.queue, Vector.get_eq_getElem]
theorem queue_setQueue_ne (k : Core) {i j : Fin 5} (h : j ≠ i) (x : EngineQ) : (k.setQueue i x).queue j = k.queue j := by
  have : i.val ≠ j.val := fun e => h (Fin.ext e.symm)
  simp [Core.setQueue, Core.queue, Vector.get_eq_getElem, this]

@[simp] theorem bank_setBank_self (k : Core) (i : Fin 2) (x : Bank) : (k.setBank i x).bank i = x := by
  simp [Core.setBank, Core.bank, Vector.get_eq_getElem]
theorem bank_setBank_ne (k : Core) {i j : Fin 2} (h : j ≠ i) (x : Bank) : (k.setBank i x).bank j = k.bank j := by
  have : i.val ≠ j.val := fun e => h (Fin.ext e.symm)
  simp [Core.setBank, Core.bank, Vector.get_eq_getElem, this]

@[simp] theorem recvq_setRecvq_self (k : Core) (i : Fin 8) (x : RecvQ) : (k.setRecvq i x).recvq i = x := by
  simp [Core.setRecvq, Core.recvq, Vector.get_eq_getElem]
theorem recvq_setRecvq_ne (k : Core) {i j : Fin 8} (h : j ≠ i) (x : RecvQ) : (k.setRecvq i x).recvq j = k.recvq j := by
  have : i.val ≠ j.val := fun e => h (Fin.ext e.symm)
  simp [Core.setRecvq, Core.recvq, Vector.get_eq_getElem, this]

@[simp] theorem reg_setReg_self (k : Core) (i : Reg) (x : W64) : (k.setReg i x).reg i = x := by
  simp [Core.setReg, Core.reg, Vector.get_eq_getElem]
theorem reg_setReg_ne (k : Core) {i j : Reg} (h : j ≠ i) (x : W64) : (k.setReg i x).reg j = k.reg j := by
  have : i.val ≠ j.val := fun e => h (Fin.ext e.symm)
  simp [Core.setReg, Core.reg, Vector.get_eq_getElem, this]

@[simp] theorem sem_setSem_self (k : Core) (i : Fin 64) (n : Nat) : (k.setSem i n).sem i = n % 2 ^ 16 := by
  simp [Core.setSem, Core.sem, Vector.get_eq_getElem]
theorem sem_setSem_ne (k : Core) {i j : Fin 64} (h : j ≠ i) (n : Nat) : (k.setSem i n).sem j = k.sem j := by
  have : i.val ≠ j.val := fun e => h (Fin.ext e.symm)
  simp [Core.setSem, Core.sem, Vector.get_eq_getElem, this]

/-! ### Fields of a core that an update leaves alone -/

@[simp] theorem core_setQueue_frame (k : Core) (e : Fin 5) (q : EngineQ) :
    (k.setQueue e q).st = k.st ∧ (k.setQueue e q).pat = k.pat ∧ (k.setQueue e q).region = k.region ∧
    (k.setQueue e q).progLen = k.progLen ∧ (k.setQueue e q).store = k.store ∧ (k.setQueue e q).entry = k.entry ∧
    (k.setQueue e q).restart = k.restart ∧ (k.setQueue e q).useRestart = k.useRestart ∧ (k.setQueue e q).pos = k.pos ∧
    (k.setQueue e q).latch = k.latch ∧ (k.setQueue e q).regs = k.regs ∧ (k.setQueue e q).sems = k.sems ∧
    (k.setQueue e q).pend = k.pend ∧ (k.setQueue e q).loops = k.loops ∧ (k.setQueue e q).wait = k.wait ∧
    (k.setQueue e q).banks = k.banks ∧ (k.setQueue e q).bhold = k.bhold ∧ (k.setQueue e q).table = k.table ∧
    (k.setQueue e q).scratch = k.scratch ∧ (k.setQueue e q).rings = k.rings ∧ (k.setQueue e q).xlate = k.xlate ∧ (k.setQueue e q).nmuXlate = k.nmuXlate ∧ (k.setQueue e q).rq = k.rq ∧
    (k.setQueue e q).prod = k.prod ∧ (k.setQueue e q).connWait = k.connWait ∧ (k.setQueue e q).phase = k.phase ∧
    (k.setQueue e q).locks = k.locks ∧ (k.setQueue e q).fault = k.fault ∧ (k.setQueue e q).cancelling = k.cancelling ∧
    (k.setQueue e q).cycles = k.cycles := by
  and_intros <;> rfl

@[simp] theorem core_setBank_frame (k : Core) (i : Fin 2) (x : Bank) :
    (k.setBank i x).st = k.st ∧ (k.setBank i x).pat = k.pat ∧ (k.setBank i x).region = k.region ∧
    (k.setBank i x).progLen = k.progLen ∧ (k.setBank i x).store = k.store ∧ (k.setBank i x).entry = k.entry ∧
    (k.setBank i x).restart = k.restart ∧ (k.setBank i x).useRestart = k.useRestart ∧ (k.setBank i x).pos = k.pos ∧
    (k.setBank i x).latch = k.latch ∧ (k.setBank i x).regs = k.regs ∧ (k.setBank i x).sems = k.sems ∧
    (k.setBank i x).pend = k.pend ∧ (k.setBank i x).loops = k.loops ∧ (k.setBank i x).wait = k.wait ∧
    (k.setBank i x).queues = k.queues ∧ (k.setBank i x).bhold = k.bhold ∧ (k.setBank i x).table = k.table ∧
    (k.setBank i x).scratch = k.scratch ∧ (k.setBank i x).rings = k.rings ∧ (k.setBank i x).xlate = k.xlate ∧ (k.setBank i x).nmuXlate = k.nmuXlate ∧ (k.setBank i x).rq = k.rq ∧
    (k.setBank i x).prod = k.prod ∧ (k.setBank i x).connWait = k.connWait ∧ (k.setBank i x).phase = k.phase ∧
    (k.setBank i x).locks = k.locks ∧ (k.setBank i x).fault = k.fault ∧ (k.setBank i x).cancelling = k.cancelling ∧
    (k.setBank i x).cycles = k.cycles := by
  and_intros <;> rfl

@[simp] theorem core_setRecvq_frame (k : Core) (q : Fin 8) (x : RecvQ) :
    (k.setRecvq q x).st = k.st ∧ (k.setRecvq q x).pat = k.pat ∧ (k.setRecvq q x).region = k.region ∧
    (k.setRecvq q x).progLen = k.progLen ∧ (k.setRecvq q x).store = k.store ∧ (k.setRecvq q x).entry = k.entry ∧
    (k.setRecvq q x).restart = k.restart ∧ (k.setRecvq q x).useRestart = k.useRestart ∧ (k.setRecvq q x).pos = k.pos ∧
    (k.setRecvq q x).latch = k.latch ∧ (k.setRecvq q x).regs = k.regs ∧ (k.setRecvq q x).sems = k.sems ∧
    (k.setRecvq q x).pend = k.pend ∧ (k.setRecvq q x).loops = k.loops ∧ (k.setRecvq q x).wait = k.wait ∧
    (k.setRecvq q x).queues = k.queues ∧ (k.setRecvq q x).banks = k.banks ∧ (k.setRecvq q x).bhold = k.bhold ∧
    (k.setRecvq q x).table = k.table ∧ (k.setRecvq q x).scratch = k.scratch ∧ (k.setRecvq q x).rings = k.rings ∧ (k.setRecvq q x).xlate = k.xlate ∧ (k.setRecvq q x).nmuXlate = k.nmuXlate ∧
    (k.setRecvq q x).prod = k.prod ∧ (k.setRecvq q x).connWait = k.connWait ∧ (k.setRecvq q x).phase = k.phase ∧
    (k.setRecvq q x).locks = k.locks ∧ (k.setRecvq q x).fault = k.fault ∧ (k.setRecvq q x).cancelling = k.cancelling ∧
    (k.setRecvq q x).cycles = k.cycles := by
  and_intros <;> rfl

@[simp] theorem core_setReg_frame (k : Core) (r : Reg) (v : W64) :
    (k.setReg r v).st = k.st ∧ (k.setReg r v).pat = k.pat ∧ (k.setReg r v).region = k.region ∧
    (k.setReg r v).progLen = k.progLen ∧ (k.setReg r v).store = k.store ∧ (k.setReg r v).entry = k.entry ∧
    (k.setReg r v).restart = k.restart ∧ (k.setReg r v).useRestart = k.useRestart ∧ (k.setReg r v).pos = k.pos ∧
    (k.setReg r v).latch = k.latch ∧ (k.setReg r v).sems = k.sems ∧ (k.setReg r v).pend = k.pend ∧
    (k.setReg r v).loops = k.loops ∧ (k.setReg r v).wait = k.wait ∧ (k.setReg r v).queues = k.queues ∧
    (k.setReg r v).banks = k.banks ∧ (k.setReg r v).bhold = k.bhold ∧ (k.setReg r v).table = k.table ∧
    (k.setReg r v).scratch = k.scratch ∧ (k.setReg r v).rings = k.rings ∧ (k.setReg r v).xlate = k.xlate ∧ (k.setReg r v).nmuXlate = k.nmuXlate ∧ (k.setReg r v).rq = k.rq ∧
    (k.setReg r v).prod = k.prod ∧ (k.setReg r v).connWait = k.connWait ∧ (k.setReg r v).phase = k.phase ∧
    (k.setReg r v).locks = k.locks ∧ (k.setReg r v).fault = k.fault ∧ (k.setReg r v).cancelling = k.cancelling ∧
    (k.setReg r v).cycles = k.cycles := by
  and_intros <;> rfl

@[simp] theorem core_setSem_frame (k : Core) (i : Fin 64) (n : Nat) :
    (k.setSem i n).st = k.st ∧ (k.setSem i n).pat = k.pat ∧ (k.setSem i n).region = k.region ∧
    (k.setSem i n).progLen = k.progLen ∧ (k.setSem i n).store = k.store ∧ (k.setSem i n).entry = k.entry ∧
    (k.setSem i n).restart = k.restart ∧ (k.setSem i n).useRestart = k.useRestart ∧ (k.setSem i n).pos = k.pos ∧
    (k.setSem i n).latch = k.latch ∧ (k.setSem i n).regs = k.regs ∧ (k.setSem i n).pend = k.pend ∧
    (k.setSem i n).loops = k.loops ∧ (k.setSem i n).wait = k.wait ∧ (k.setSem i n).queues = k.queues ∧
    (k.setSem i n).banks = k.banks ∧ (k.setSem i n).bhold = k.bhold ∧ (k.setSem i n).table = k.table ∧
    (k.setSem i n).scratch = k.scratch ∧ (k.setSem i n).rings = k.rings ∧ (k.setSem i n).xlate = k.xlate ∧ (k.setSem i n).nmuXlate = k.nmuXlate ∧ (k.setSem i n).rq = k.rq ∧
    (k.setSem i n).prod = k.prod ∧ (k.setSem i n).connWait = k.connWait ∧ (k.setSem i n).phase = k.phase ∧
    (k.setSem i n).locks = k.locks ∧ (k.setSem i n).fault = k.fault ∧ (k.setSem i n).cancelling = k.cancelling ∧
    (k.setSem i n).cycles = k.cycles := by
  and_intros <;> rfl

end Sys2Proof.Machine
end

