-- ==== Sys2Proof/Laws/Cores.lean ====
section
/-! SUPPORT. What the shared operations on a core do: taking a word, going on, raising a semaphore, and taking a fault. -/

namespace Sys2Proof.Machine

/-! ### Commands of a core or vault that exists, or not -/

theorem onCore_ok (s : State) (c : Nat) (f : Core → State) (h : c < Config.nCores) : onCore s c f = .next (f (s.core c)) :=
  if_pos h
theorem onCore_bad (s : State) (c : Nat) (f : Core → State) (h : Config.nCores ≤ c) : onCore s c f = .fault .noSuchCore :=
  if_neg (by omega)
theorem onVault_ok (v : Nat) (s : State) (h : v < Config.nSites) : onVault v s = .next s := if_pos h
theorem onVault_bad (v : Nat) (s : State) (h : Config.nSites ≤ v) : onVault v s = .fault .noSuchVault := if_neg (by omega)

/-- A command of a core answers a next state or the fault of a core that does not exist. -/
theorem onCore_cases (s : State) (c : Nat) (f : Core → State) :
    onCore s c f = .next (f (s.core c)) ∨ onCore s c f = .fault .noSuchCore := by
  unfold onCore
  split <;> simp

/-! ### The sequencer -/

/-- At a command boundary with none of its registers pending the word has its effect. -/
theorem seqTake_ok (c : Nat) (regs : List Reg) (s : State) (f : Core → State) (hc : c < Config.nCores)
    (h : (s.core c).takes regs = true) : seqTake c regs s f = .next (f { s.core c with wait := .none }) := by
  rw [Core.takes, Bool.and_eq_true, List.all_eq_true] at h
  have hp : regs.find? (s.core c).pending = none := by
    rw [List.find?_eq_none]
    intro r hr
    simpa using h.2 r hr
  rw [seqTake, onCore_ok _ _ _ hc]
  simp [h.1, hp]

/-- On the first pending register the sequencer stalls. -/
theorem seqTake_stalls (c : Nat) (regs : List Reg) (s : State) (f : Core → State) (r : Reg) (hc : c < Config.nCores)
    (hb : (s.core c).atBoundary = true) (h : regs.find? (s.core c).pending = some r) :
    seqTake c regs s f = .next (s.setCore c { s.core c with wait := .reg r }) := by
  rw [seqTake, onCore_ok _ _ _ hc]
  simp [hb, h]

/-- Away from a command boundary a word has no effect. -/
theorem seqTake_idle (c : Nat) (regs : List Reg) (s : State) (f : Core → State) (hc : c < Config.nCores)
    (hb : (s.core c).atBoundary = false) : seqTake c regs s f = .next s := by
  rw [seqTake, onCore_ok _ _ _ hc]
  simp [hb]

/-- Continuing at a plain position inside the program only moves the sequencer there. -/
theorem seqGoto_lands (s : State) (c : Nat) (k : Core) (p : Nat) (h : landsIn k.loops k.progLen p = true) :
    seqGoto s c k p = s.setCore c (k.goes p) := by
  unfold landsIn at h
  rw [Bool.and_eq_true, decide_eq_true_eq] at h
  obtain ⟨h1, h2⟩ := h
  cases hl : k.loops with
  | nil =>
    have hk : ({ k with loops := [], pos := p, wait := .none } : Core) = k.goes p := by simp [Core.goes, ← hl]
    have hn : ¬ (k.progLen ≤ p) := by omega
    simp [seqGoto, hl, Core.gotoIn, hn, hk]
  | cons e es =>
    rw [hl] at h2
    have h2 : ¬ (p = e.last + 1) := by simpa using h2
    have hk : ({ k with loops := e :: es, pos := p, wait := .none } : Core) = k.goes p := by simp [Core.goes, ← hl]
    have hn : ¬ (k.progLen ≤ p) := by omega
    simp [seqGoto, hl, Core.gotoIn, h2, hn, hk]

/-! ### Faults (R87) -/

/-- Releasing a core empties its lock table and changes no other core. -/
theorem releaseCore_core (s : State) (c d : Nat) :
    (releaseCore s c).core d = if d = c then { s.core c with locks := [] } else s.core d := by
  have h : ∀ t : State, t.cores = (s.setCore c { s.core c with locks := [] }).cores →
      t.core d = (s.setCore c { s.core c with locks := [] }).core d := fun t ht => by rw [State.core, State.core, ht]
  rw [h (releaseCore s c) rfl]
  split
  next e => rw [e, core_setCore_self]
  next e => exact core_setCore_ne s e _

/-- A further fault of a STOPPED core only adds one to FAULT_LOST. -/
theorem coreFault_again (s : State) (c eng : Nat) (kind : Kind) (code : Code) (pos : Nat) (word : CmdWord) (detail : BitVec 256)
    (h : (s.core c).st = .stopped) : coreFault s c eng kind code pos word detail = s.bump32 (coreCtr c 0xE8) 1 := by
  simp [coreFault, h]

/-- The core after its first fault: STOPPED, its engines quiet, its caches empty, its locks released, its record captured. -/
theorem coreFault_core (s : State) (c eng : Nat) (kind : Kind) (code : Code) (pos : Nat) (word : CmdWord) (detail : BitVec 256)
    (h : (s.core c).st ≠ .stopped) :
    (coreFault s c eng kind code pos word detail).core c = { (s.core c).quiet with
      st := .stopped, locks := [], xlate := [], nmuXlate := [],
      fault := some { core := c, engine := eng, kind := kind, code := code, pos := pos, word := word, regs := (s.core c).regs,
                      sems := (s.core c).sems, extra := detail } } := by
  rw [coreFault]
  simp only [h, if_false]
  rw [State.core, (logRec_frame _ _).2.2.2.1, ← State.core, releaseCore_core, if_pos rfl, core_setCore_self]

/-- The first fault of a core stops it, and changes no other core and no memory. -/
theorem coreFault_stops (s : State) (c eng : Nat) (kind : Kind) (code : Code) (pos : Nat) (word : CmdWord) (detail : BitVec 256)
    (h : (s.core c).st ≠ .stopped) :
    Stopped s (coreFault s c eng kind code pos word detail) c eng kind code pos
      ∧ OtherCores c s (coreFault s c eng kind code pos word detail)
      ∧ (coreFault s c eng kind code pos word detail).mem = s.mem := by
  have hk := coreFault_core s c eng kind code pos word detail h
  refine ⟨?_, ?_, ?_⟩
  · rw [Stopped, hk]
    refine ⟨rfl, rfl, rfl, fun e => ?_, fun b => ?_, _, rfl, rfl, rfl, rfl, rfl, rfl, rfl, rfl⟩
    · simp [Core.queue, Core.quiet, Vector.get_eq_getElem]
    · simp [Core.bank, Core.quiet, Vector.get_eq_getElem]
  · intro d hd
    rw [coreFault]
    simp only [h, if_false]
    rw [State.core, (logRec_frame _ _).2.2.2.1, ← State.core, releaseCore_core, if_neg hd, core_setCore_ne s hd]
  · rw [coreFault]
    simp only [h, if_false]
    rfl

/-- The same for a fault of a command word. -/
theorem cmdFault_stops (s : State) (c eng : Nat) (kind : Kind) (code : Code) (pos : Nat) (word : CmdWord)
    (h : (s.core c).st ≠ .stopped) :
    Stopped s (cmdFault s c eng kind code pos word) c eng kind code pos ∧ OtherCores c s (cmdFault s c eng kind code pos word)
      ∧ (cmdFault s c eng kind code pos word).mem = s.mem := coreFault_stops s c eng kind code pos word _ h

/-- A semaphore with room for the increment rises by it. -/
theorem raiseSem_fits (s : State) (c eng : Nat) (i : Fin 64) (n pos : Nat) (word : CmdWord) (h : (s.core c).sem i + n ≤ 65535) :
    raiseSem s c eng i n pos word = s.setCore c ((s.core c).setSem i ((s.core c).sem i + n)) := by
  simp [raiseSem, h]

/-- Past 65,535 the core stops with SEM_OVERFLOW. -/
theorem raiseSem_overflows (s : State) (c eng : Nat) (i : Fin 64) (n pos : Nat) (word : CmdWord)
    (h : 65535 < (s.core c).sem i + n) : raiseSem s c eng i n pos word = cmdFault s c eng .faulted .semOverflow pos word := by
  simp [raiseSem, Nat.not_le.2 h]

/-! ### Steps -/

/-- Nothing of an answer is lost where its interrupts are noted. -/
theorem noted_next (s s' : State) : noted s (.next s') = .next (note s s') := rfl

end Sys2Proof.Machine
end

