-- ==== Sys2Proof/Laws/KeptOps.lean ====
section
/-! SUPPORT. What the operations on cores, engines and vault commands leave alone: the power state and the queue of waiting commands. One lemma
per operation, for the simplifier. -/

namespace Sys2Proof.Machine

/-- The power state and the queue of waiting commands. -/
def State.kept (s : State) : Power × List Instr := (s.power, s.pending)

@[simp] theorem kept_mk (pending out drawn cores mem vaults helm reg log host pwr start lode flashA flashB flashOp flashUsed chart keys
    ports pds lz links routed groups power tap preempted refLost) :
  State.kept ⟨pending, out, drawn, cores, mem, vaults, helm, reg, log, host, pwr, start, lode, flashA, flashB, flashOp, flashUsed,
    chart, keys, ports, pds, lz, links, routed, groups, power, tap, preempted, refLost⟩ = (power, pending) := rfl

@[simp] theorem kept_pair (s : State) : (s.power, s.pending) = s.kept := rfl

@[simp] theorem kept_foldl {α : Type} (f : State → α → State) (l : List α) (s : State) (h : ∀ s a, (f s a).kept = s.kept) : (l.foldl f s).kept = s.kept := by
  induction l generalizing s with
  | nil => rfl
  | cons a l ih => simp only [List.foldl_cons]; rw [ih, h]

@[simp] theorem kept_foldl2 {α β : Type} (f : State × β → α → State × β) (l : List α) (s : State × β) (h : ∀ s a, (f s a).1.kept = s.1.kept) : (l.foldl f s).1.kept = s.1.kept := by
  induction l generalizing s with
  | nil => rfl
  | cons a l ih => simp only [List.foldl_cons]; rw [ih, h]

@[simp] theorem setCore_kept (s : State) (c : Nat) (k : Core) : (State.setCore s c k).kept = s.kept := by
  simp [State.setCore]

@[simp] theorem emit_kept (s : State) (e : Emit) : (State.emit s e).kept = s.kept := by
  simp [State.emit]

@[simp] theorem emits_kept (s : State) (es : List Emit) : (State.emits s es).kept = s.kept := by
  simp [State.emits]

@[simp] theorem setVault_kept (s : State) (v : Nat) (x : Vault) : (State.setVault s v x).kept = s.kept := by
  simp [State.setVault]

@[simp] theorem mapVaults_kept (s : State) (f : Vault → Vault) : (State.mapVaults s f).kept = s.kept := by
  simp [State.mapVaults]

@[simp] theorem setCtr_kept (s : State) (ofs : Nat) (v : W64) : (State.setCtr s ofs v).kept = s.kept := by
  simp [State.setCtr]

@[simp] theorem bump_kept (s : State) (ofs n : Nat) : (State.bump s ofs n).kept = s.kept := by
  simp [State.bump]

@[simp] theorem bump32_kept (s : State) (ofs n : Nat) : (State.bump32 s ofs n).kept = s.kept := by
  simp [State.bump32]

@[simp] theorem setBuf_kept (s : State) (b : Nat) (x : EvBuf) : (State.setBuf s b x).kept = s.kept := by
  simp [State.setBuf]

@[simp] theorem logRec_kept (s : State) (r : EventRec) : (State.logRec s r).kept = s.kept := by
  simp [State.logRec]

@[simp] theorem event_kept (s : State) (block : Nat) (c : Code) (detail : Nat) :
    (State.event s block c detail).kept = s.kept := by
  simp [State.event]

@[simp] theorem refusal_kept (s : State) (block : Nat) (c : Code) (detail : Nat) :
    (State.refusal s block c detail).kept = s.kept := by
  simp [State.refusal]

@[simp] theorem releaseCore_kept (s : State) (c : Nat) : (releaseCore s c).kept = s.kept := by
  simp [releaseCore]

@[simp] theorem coreFault_kept (s : State) (c eng : Nat) (kind : Kind) (code : Code) (pos : Nat) (word : CmdWord) (detail : BitVec 256) :
    (coreFault s c eng kind code pos word detail).kept = s.kept := by
  unfold coreFault
  dsimp only
  repeat' first | (simp; done) | split

@[simp] theorem cmdFault_kept (s : State) (c eng : Nat) (kind : Kind) (code : Code) (pos : Nat) (word : CmdWord) :
    (cmdFault s c eng kind code pos word).kept = s.kept := by
  simp [cmdFault]

@[simp] theorem raiseSem_kept (s : State) (c eng : Nat) (i : Fin 64) (n pos : Nat) (word : CmdWord) :
    (raiseSem s c eng i n pos word).kept = s.kept := by
  unfold raiseSem
  dsimp only
  repeat' first | (simp; done) | split

@[simp] theorem setLink_kept (s : State) (i : LinkId) (x : Link) : (State.setLink s i x).kept = s.kept := by
  unfold State.setLink
  split <;> simp

@[simp] theorem setPort_kept (s : State) (p : Fin 8) (x : EthPort) : (s.setPort p x).kept = s.kept := by
  simp [State.setPort]

@[simp] theorem transmit_kept (s : State) (p : Fin 8) (e : Emit) : (s.transmit p e).kept = s.kept := by
  unfold State.transmit
  dsimp only
  repeat' first | rfl | (simp; done) | split

@[simp] theorem transmits_kept (s : State) (p : Fin 8) (es : List Emit) : (s.transmits p es).kept = s.kept := by
  simp [State.transmits]

@[simp] theorem wireOut_kept (s : State) (i : LinkId) (es : List Emit) : (wireOut s i es).kept = s.kept := by
  unfold wireOut
  split <;> simp

@[simp] theorem nzOut_kept (s : State) (i : LinkId) (x : Link) (seq : BitVec 16) (vc ftype len : Nat) (m : Option Emit) :
    (nzOut s i x seq vc ftype len m).kept = s.kept := by
  simp [nzOut]

@[simp] theorem sendFrame_kept (s : State) (i : LinkId) (x : Link) (f : NzFrame) : (sendFrame s i x f).kept = s.kept := by
  simp [sendFrame]

@[simp] theorem pump_kept (i : LinkId) (n : Nat) (s : State) : (pump i n s).kept = s.kept := by
  induction n generalizing s with
  | zero => rfl
  | succ n ih => unfold pump; repeat' first | rfl | split | (simp [ih]; done)

@[simp] theorem pumpAll_kept (s : State) (i : LinkId) : (pumpAll s i).kept = s.kept := by
  unfold pumpAll
  split <;> simp

@[simp] theorem sendBytes_kept (s : State) (i : LinkId) (vc n : Nat) (e : Emit) : (sendBytes s i vc n e).kept = s.kept := by
  unfold sendBytes
  split <;> simp

@[simp] theorem sendHandshake_kept (s : State) (i : LinkId) (st : LinkState) : (sendHandshake s i st).kept = s.kept := by
  unfold sendHandshake
  split <;> simp

@[simp] theorem sendControl_kept (s : State) (i : LinkId) (x : Link) (ftype : Nat) : (sendControl s i x ftype).kept = s.kept := by
  simp [sendControl]

@[simp] theorem seqGoto_kept (s : State) (c : Nat) (k : Core) (p : Nat) : (seqGoto s c k p).kept = s.kept := by
  unfold seqGoto
  dsimp only
  repeat' first | (simp; done) | split

@[simp] theorem seqGrant_kept (s : State) (c : Nat) (k : Core) : (seqGrant s c k).kept = s.kept := by
  unfold seqGrant
  repeat' first | (simp; done) | split

@[simp] theorem semRound_kept (s : State) (c : Nat) (k : Core) : (semRound s c k).kept = s.kept := by
  simp [semRound]

@[simp] theorem sendArrival_kept (s : State) (c : Nat) (k : Core) (bid : Fin 4) : (sendArrival s c k bid).kept = s.kept := by
  simp [sendArrival]

@[simp] theorem setPat_kept (s : State) (p : Nat) (x : Pattern) : (State.setPat s p x).kept = s.kept := by
  simp [State.setPat]

@[simp] theorem seqWrite_kept (s : State) (c : Nat) (k : Core) (d : Reg) (v : W64) : (seqWrite s c k d v).kept = s.kept := by
  simp [seqWrite]

@[simp] theorem takeDispatch_kept (s : State) (c : Nat) (k : Core) (d : DispatchRec) : (takeDispatch s c k d).kept = s.kept := by
  simp [takeDispatch]

@[simp] theorem enterIdle_kept (s : State) (c : Nat) (k : Core) : (enterIdle s c k).kept = s.kept := by
  unfold enterIdle
  dsimp only
  repeat' first | (simp; done) | split

/-- What an engine's start leaves of the power state and the queue. -/
def StartOut.Kept (b : Power × List Instr) : StartOut → Prop
  | .wait => True
  | .stall _ _ => True
  | .stop s _ => s.kept = b
  | .go s _ => s.kept = b

/-- What a partial result leaves of them. -/
def KeptOk {ε α : Type} (f : α → State) (b : Power × List Instr) : Except ε α → Prop
  | .error _ => True
  | .ok x => (f x).kept = b

/-- The same for a result that may be absent. -/
def KeptSome {α : Type} (f : α → State) (b : Power × List Instr) : Option α → Prop
  | none => True
  | some x => (f x).kept = b

@[simp] theorem StartOut.kept_wait (b) : StartOut.wait.Kept b = True := rfl

@[simp] theorem StartOut.kept_stall (b r n) : (StartOut.stall r n).Kept b = True := rfl

@[simp] theorem StartOut.kept_stop (b s st) : (StartOut.stop s st).Kept b = (s.kept = b) := rfl

@[simp] theorem StartOut.kept_go (b s st) : (StartOut.go s st).Kept b = (s.kept = b) := rfl

@[simp] theorem keptOk_error {ε α : Type} (f : α → State) (b) (e : ε) : KeptOk f b (.error e) = True := rfl

@[simp] theorem keptOk_ok {ε α : Type} (f : α → State) (b) (x : α) : KeptOk f b (.ok x : Except ε α) = ((f x).kept = b) := rfl

@[simp] theorem keptSome_none {α : Type} (f : α → State) (b) : KeptSome f b none = True := rfl

@[simp] theorem keptSome_some {α : Type} (f : α → State) (b) (x : α) : KeptSome f b (some x) = ((f x).kept = b) := rfl

@[simp] theorem coreBumps_kept (s : State) (c : Nat) (l : List (Nat × Nat × Bool)) : (coreBumps s c l).kept = s.kept := by
  unfold coreBumps
  refine kept_foldl _ _ _ (fun _ _ => ?_)
  repeat' first | rfl | (simp; done) | split | (dsimp only; split)

@[simp] theorem SlotHold.out_kept (s : State) (h : SlotHold) : (h.out s).Kept s.kept := by
  cases h <;> simp [SlotHold.out]

@[simp] theorem slotsBegun_kept (s : State) (c : Nat) (k : Core) (rs ws : List (Nat × Nat)) :
    (slotsBegun s c k rs ws).kept = s.kept := by
  simp [slotsBegun]

theorem startTmul_kept (s : State) (c : Nat) (k : Core) (e : QEntry) (opset : Nat) (t : Tmul) :
    (startTmul s c k e opset t).Kept s.kept := by
  unfold startTmul
  dsimp only
  have hb (rs ws : List (Nat × Nat)) (n : Nat) : State.kept { slotsBegun s c k rs ws with drawn := n } = s.kept :=
    slotsBegun_kept s c k rs ws
  repeat' first | (simp [hb]; done) | split

theorem startAccrd_kept (s : State) (c : Nat) (k : Core) (e : QEntry) (dst : Nat) (bank : Fin 2) :
    (startAccrd s c k e dst bank).Kept s.kept := by
  unfold startAccrd
  extract_lets b
  split
  · trivial
  split
  · simp
  generalize pastTop (imageSpan dst) = g
  cases g with
  | true => simp
  | false =>
  rw [if_neg (by decide)]
  generalize ringsOf 1 true k.rings _ = r
  cases r with
  | error st => simp
  | ok ws =>
    dsimp only
    split
    · trivial
    · rw [StartOut.kept_go]
      simp

theorem startRow_kept (s : State) (c : Nat) (k : Core) (e : QEntry) (op : RowOp) (src : Nat) (bankSrc : Bool) (f : RowFields) :
    (startRow s c k e op src bankSrc f).Kept s.kept := by
  unfold startRow
  dsimp only
  repeat' first | (simp; done) | split

@[simp] theorem openRow_kept (s : State) (a : Nat) : (openRow s a).kept = s.kept := by
  simp [openRow]

@[simp] theorem openRows_kept (s : State) (a n : Nat) : (openRows s a n).kept = s.kept := by
  simp [openRows]

@[simp] theorem clearFrames_kept (s : State) (f n : Nat) : (clearFrames s f n).kept = s.kept := by
  simp [clearFrames]

@[simp] theorem wrMem_kept (s : State) (a : Nat) (b : Byte) : (State.wrMem s a b).kept = s.kept := by
  simp [State.wrMem]

@[simp] theorem Mv.hit_kept (x : Mv) (t : XlateTag) : (x.hit t).s.kept = x.s.kept := by
  unfold Mv.hit
  repeat' first | rfl | split

@[simp] theorem Mv.listRead_kept (p : Option Pattern) (x : Mv) (l : ListAt) (o n : Nat) : (x.listRead p l o n).s.kept = x.s.kept := by
  unfold Mv.listRead
  repeat' first | rfl | (simp; done) | split | (dsimp only; split)

@[simp] theorem segPut_kept (s : State) (p seg : Nat) (g : Segment) (ofs : Nat) (b : Byte) :
    (segPut s p seg g ofs b).kept = s.kept := by
  unfold segPut
  repeat' first | (simp; done) | split

@[simp] theorem segPuts_kept (s : State) (p seg : Nat) (g : Segment) (ofs : Nat) (l : List Byte) :
    (segPuts s p seg g ofs l).kept = s.kept := by
  induction l generalizing s ofs with
  | nil => rfl
  | cons b l ih => unfold segPuts; simp [ih]

theorem rdLoc_kept (p : Option Pattern) (x : Mv) (bits fill : Nat) (l : Loc) :
    KeptOk (·.2.s) x.s.kept (rdLoc p x bits fill l) := by
  unfold rdLoc
  dsimp only
  repeat' first | rfl | trivial | (simp; done) | split

@[simp] theorem segElem_kept (s : State) (pi seg : Nat) (g : Segment) (a bit bits v : Nat) :
    (segElem s pi seg g a bit bits v).kept = s.kept := by
  unfold segElem
  split <;> simp

theorem wrLoc_kept (pi : Nat) (p : Option Pattern) (x : Mv) (bits : Nat) (l : Loc) (v : Nat) :
    KeptOk (·.s) x.s.kept (wrLoc pi p x bits l v) := by
  unfold wrLoc
  dsimp only
  have hm (y : Mv) (m : Memory) : State.kept { y.s with mem := m } = y.s.kept := rfl
  repeat' first | rfl | trivial | (simp [hm]; done) | split

theorem moveOne_kept (pi : Nat) (p : Option Pattern) (bits fill : Nat) (x : Mv) (a b : Loc) :
    KeptOk (·.s) x.s.kept (moveOne pi p bits fill x a b) := by
  unfold moveOne
  have h := rdLoc_kept p x bits fill a
  split
  · trivial
  next v y he =>
    rw [he] at h
    exact h ▸ wrLoc_kept pi p y bits b v

@[simp] theorem moveAll_kept (pi : Nat) (p : Option Pattern) (bits fill : Nat) (x : Mv) (l : List (Loc × Loc)) :
    (moveAll pi p bits fill x l).1.s.kept = x.s.kept := by
  induction l generalizing x with
  | nil => rfl
  | cons a l ih =>
    unfold moveAll
    have h := moveOne_kept pi p bits fill x a.1 a.2
    split
    · rfl
    next y he =>
      rw [he] at h
      exact (ih y).trans h

theorem readAll_kept (p : Option Pattern) (bits fill : Nat) (x : Mv) (l : List Loc) :
    KeptOk (·.2.s) x.s.kept (readAll p bits fill x l) := by
  induction l generalizing x with
  | nil => rfl
  | cons a l ih =>
    have h := rdLoc_kept p x bits fill a
    unfold readAll
    split
    · trivial
    next v y he =>
      rw [he] at h
      have h2 := ih y
      split
      · trivial
      next vs z hz => rw [hz] at h2; exact h2.trans h

@[simp] theorem writeAll_kept (pi : Nat) (p : Option Pattern) (bits : Nat) (x : Mv) (l : List (Loc × Nat)) :
    (writeAll pi p bits x l).1.s.kept = x.s.kept := by
  induction l generalizing x with
  | nil => rfl
  | cons a l ih =>
    have h := wrLoc_kept pi p x bits a.1 a.2
    unfold writeAll
    split
    · rfl
    next y he => rw [he] at h; exact (ih y).trans h

@[simp] theorem moveTiles_kept (pi : Nat) (p : Option Pattern) (bits fill : Nat) (x : Mv) (l : List (List Loc × List (Loc × Nat))) :
    (moveTiles pi p bits fill x l).1.s.kept = x.s.kept := by
  induction l generalizing x with
  | nil => rfl
  | cons a l ih =>
    have h := readAll_kept p bits fill x a.1
    unfold moveTiles
    split
    · rfl
    next vs y he =>
      rw [he] at h
      have hw := writeAll_kept pi p bits y (a.2.map (fun d => (d.1, vs.getD d.2 0)))
      split
      next hz => rw [hz] at hw; exact hw.trans h
      next hz => rw [hz] at hw; exact (ih _).trans (hw.trans h)

theorem overList_kept (p : Option Pattern) (l : ListAt) (h : ListHdr) (f : Mv → Nat → List Nat → Mv × Option Stop)
    (hf : ∀ x n e, (f x n e).1.s.kept = x.s.kept) (k n : Nat) (o : Option (List Nat)) (x : Mv) :
    (overList p l h f k n o x).1.s.kept = x.s.kept := by
  induction k generalizing n o x with
  | zero => rfl
  | succ k ih =>
    unfold overList
    split
    · rfl
    next en _ =>
    generalize (h.sorted && _) = g
    cases g with
    | true => rfl
    | false =>
      have hr := (hf { x.listRead p l (16 + n * h.rank * 4) (h.rank * 4) with
        rd := (x.listRead p l (16 + n * h.rank * 4) (h.rank * 4)).rd + 32 * h.rank } n en).trans (Mv.listRead_kept p x l _ _)
      rw [if_neg (by decide)]
      dsimp only
      split
      next he => rw [he] at hr; exact hr
      next he => rw [he] at hr; exact (ih _ _ _).trans hr

@[simp] theorem mvOf_kept (s : State) (sc : Memory) (tags : List XlateTag) (cap : Nat) : (mvOf s sc tags cap).s.kept = s.kept := rfl

theorem xferRun_kept (x : XferAt) (pi : Nat) (h : Option ListHdr) (m : Mv) : (xferRun x pi h m).1.s.kept = m.s.kept := by
  unfold xferRun
  dsimp only
  split
  · split <;> simp
  · exact (overList_kept _ _ _ _ (fun _ _ _ => by simp) _ _ _ _).trans (Mv.listRead_kept ..)

@[simp] theorem mvDone_kept (c : Nat) (k : Core) (rings : List Ring) (m : Mv) : (mvDone c k rings m).kept = m.s.kept := by
  unfold mvDone
  simp

theorem startStream_kept (s : State) (c : Nat) (k : Core) (e : QEntry) (op : StreamOp) (desc list : Nat) :
    (startStream s c k e op desc list).Kept s.kept := by
  unfold startStream
  dsimp only
  split
  · simp
  split
  · simp
  split
  · simp
  · simp
  split
  · trivial
  split
  next he => rw [StartOut.kept_stop, mvDone_kept, ← congrArg (fun z => z.1.s.kept) he]; exact xferRun_kept ..
  next he => rw [StartOut.kept_go, mvDone_kept, ← congrArg (fun z => z.1.s.kept) he]; exact xferRun_kept ..

theorem nmuRead_kept (p : Option Pattern) (x : Mv) (bits : Nat) (l : Loc) :
    KeptOk (·.2.s) x.s.kept (nmuRead p x bits l) := by
  have h := rdLoc_kept p x bits 0 l
  unfold nmuRead
  split
  · split
    · trivial
    · cases hr : rdLoc p x bits 0 _ with
      | error _ => trivial
      | ok _ => rw [hr] at h; exact h
  · cases hr : rdLoc p x bits 0 l with
    | error _ => trivial
    | ok _ => rw [hr] at h; exact h

theorem nmuReads_kept (p : Option Pattern) (bits : Nat) (x : Mv) (l : List Loc) :
    KeptOk (·.2.s) x.s.kept (nmuReads p bits x l) := by
  induction l generalizing x with
  | nil => rfl
  | cons a l ih =>
    have h := nmuRead_kept p x bits a
    unfold nmuReads
    split
    · trivial
    next v y he =>
      rw [he] at h
      have h2 := ih y
      split
      · trivial
      next vs z hz => rw [hz] at h2; exact h2.trans h

@[simp] theorem nmuWrite_kept (pi : Nat) (p : Option Pattern) (space : Nat) (x : Mv) (a : Nat) (l : List Byte) :
    (nmuWrite pi p space x a l).1.s.kept = x.s.kept := by
  induction l generalizing x a with
  | nil => rfl
  | cons b l ih =>
    unfold nmuWrite
    have h := wrLoc_kept pi p x 8 (if space = 0 then .scratch a 0 else .seg (segOf a) (ofsOf a) 0) b.toNat
    split
    · rfl
    next y he => rw [he] at h; exact (ih y _).trans h

@[simp] theorem recPut_kept (s : State) (pi : Nat) (p : Option Pattern) (a n v : Nat) :
    (recPut s pi p a n v).kept = s.kept := by
  unfold recPut
  split <;> simp

@[simp] theorem claimPut_kept (s : State) (pi : Nat) (p : Option Pattern) (cmap i e : Nat) :
    (claimPut s pi p cmap i e).kept = s.kept := by
  simp [claimPut]

theorem ctrDraw_kept (s : State) (c pi : Nat) (p : Option Pattern) (a inc : Nat) :
    KeptOk (·.1) s.kept (ctrDraw s c pi p a inc) := by
  unfold ctrDraw
  try dsimp only
  repeat' first | rfl | trivial | (simp; done) | split

@[simp] theorem claimsZero_kept (s : State) (pi : Nat) (p : Option Pattern) (cmap n : Nat) :
    (claimsZero s pi p cmap n).kept = s.kept := by
  simp [claimsZero]

@[simp] theorem ctrDrop_kept (s : State) (v pi a : Nat) : (ctrDrop s v pi a).kept = s.kept := by
  simp [ctrDrop]

@[simp] theorem ctrRegister_kept (s : State) (v : Nat) (r : RegCtr) : (ctrRegister s v r).kept = s.kept := by
  simp [ctrRegister]

theorem ctrInit_kept (s : State) (pi : Nat) (p : Option Pattern) (a next limit cmap : Nat) (claim : Bool) (notify : Option (Nat × Nat)) :
    KeptOk (id) s.kept (ctrInit s pi p a next limit cmap claim notify) := by
  unfold ctrInit
  try dsimp only
  repeat' first | rfl | trivial | (simp; done) | split

theorem ctrDone_kept (s : State) (c pi : Nat) (p : Option Pattern) (a : Nat) :
    KeptOk id s.kept (ctrDone s c pi p a) := by
  unfold ctrDone
  split
  · trivial
  split
  · trivial
  · refine kept_foldl _ _ _ (fun s i => ?_)
    dsimp only
    split <;> simp

theorem ctrRelease_kept (s : State) (pi : Nat) (p : Option Pattern) (a : Nat) :
    KeptOk (id) s.kept (ctrRelease s pi p a) := by
  unfold ctrRelease
  try dsimp only
  repeat' first | rfl | trivial | (simp; done) | split

theorem ctrApply_kept (s : State) (c pi : Nat) (p : Option Pattern) (a : Nat) :
    KeptOk (·.1) s.kept (ctrApply s c pi p a) := by
  unfold ctrApply
  try dsimp only
  repeat' first | rfl | trivial | (simp; done) | split

@[simp] theorem ctrApplied_kept (s : State) (c pi : Nat) (p : Option Pattern) (a : Nat) :
    (ctrApplied s c pi p a).kept = s.kept := by
  unfold ctrApplied
  split <;> simp

@[simp] theorem lockPut_kept (s : State) (pi : Nat) (p : Option Pattern) (a old w : Nat) :
    (lockPut s pi p a old w).kept = s.kept := by
  simp [lockPut]

theorem lockTry_kept (s : State) (c pi : Nat) (p : Option Pattern) (a : Nat) (t : State) (w : Nat)
    (h : lockTry s c pi p a = .acquired t w) : t.kept = s.kept := by
  revert h
  unfold lockTry
  split
  · simp
  split
  · simp
  split
  · rintro ⟨⟩
    simp
  split <;> simp

theorem lockFree_kept (s : State) (c pi : Nat) (p : Option Pattern) (a : Nat) :
    KeptOk (id) s.kept (lockFree s c pi p a) := by
  unfold lockFree
  try dsimp only
  repeat' first | rfl | trivial | (simp; done) | split

@[simp] theorem nmuBytesAt_kept (s : State) (v n : Nat) : (nmuBytesAt s v n).kept = s.kept := by
  simp [nmuBytesAt]

@[simp] theorem recOpen_kept (s : State) (p : Option Pattern) (a : Nat) : (recOpen s p a).kept = s.kept := by
  unfold recOpen
  split <;> simp

@[simp] theorem fillWords_kept (pi : Nat) (p : Option Pattern) (seg pat : Nat) (s : State) (o n : Nat) :
    (fillWords pi p seg pat s o n).1.kept = s.kept := by
  induction n generalizing s o with
  | zero => rfl
  | succ n ih => unfold fillWords; split <;> simp [ih]

/-- A plan keeps what the transfer's state holds of them. -/
def KeptPlan (b : Except Stop Plan) : Prop := ∀ pl, b = .ok pl → ∀ x, (pl.run x).1.s.kept = x.s.kept

theorem planTopk_kept (pi : Nat) (p : Option Pattern) (d : NDesc) (unit : Nat) (x : Mv) : KeptPlan (planTopk pi p d unit x) := by
  intro pl h y
  unfold planTopk at h
  dsimp only at h
  split at h
  · cases h
  · cases h
    have hr := nmuReads_kept p 32 y (topkLocs d)
    dsimp only
    split
    · rfl
    next he => rw [he] at hr; exact (nmuWrite_kept _ _ _ _ _ _).trans hr

@[simp] theorem rredRows_kept (pi : Nat) (p : Option Pattern) (d : NDesc) (drawn : Nat) (l : List Nat) (x : Mv) :
    (rredRows pi p d drawn l x).1.s.kept = x.s.kept := by
  induction l generalizing x with
  | nil => rfl
  | cons r l ih =>
    unfold rredRows
    have hr := nmuReads_kept p (etBits d.etype) x (rredLocs d r)
    split
    · rfl
    next xs y he =>
      rw [he] at hr
      have hw := nmuWrite_kept pi p d.pspace y (d.pbase + 16 * r) (rowScalarBytes (rredEntry d.sub (Config.freeSum (drawn + r)) xs))
      split
      next hz => rw [hz] at hw; exact hw.trans hr
      next hz => rw [hz] at hw; exact (ih _).trans (hw.trans hr)

theorem planRred_kept (pi : Nat) (p : Option Pattern) (d : NDesc) (unit : Nat) (x : Mv) : KeptPlan (planRred pi p d unit x) := by
  intro pl h y
  unfold planRred at h
  dsimp only at h
  split at h
  · cases h
  · cases h
    exact rredRows_kept ..

theorem mergeEntries_kept (p : Option Pattern) (la lb : ListAt) (ha hb : ListHdr) (y : Mv) :
    KeptOk (·.2.2.s) y.s.kept (mergeEntries p la lb ha hb y) := by
  unfold mergeEntries
  dsimp only
  repeat' first | trivial | (simp; done) | split

/-- A write that follows on another keeps what both keep. -/
theorem nmuWrite_kept_of {pi : Nat} {p : Option Pattern} {space : Nat} {x : Mv} {a : Nat} {l : List Byte} {b}
    (r : Mv × Option Stop) (h : x.s.kept = b) (he : nmuWrite pi p space x a l = r) : r.1.s.kept = b := by
  rw [← he, nmuWrite_kept, h]

theorem mergeRun_kept (pi : Nat) (p : Option Pattern) (d : NDesc) (la lb : ListAt) (ha hb : ListHdr) (y : Mv) :
    (mergeRun pi p d la lb ha hb y).1.s.kept = y.s.kept := by
  unfold mergeRun
  have h := mergeEntries_kept p la lb ha hb y
  split
  · rfl
  next ea eb z he =>
    rw [he] at h
    have h : z.s.kept = y.s.kept := h
    dsimp only
    split
    · split
      next hu => exact nmuWrite_kept_of _ (by exact h) hu
      next hu => rw [nmuWrite_kept]; exact nmuWrite_kept_of _ (by exact h) hu
    · split
      next hu => exact nmuWrite_kept_of _ (by exact h) hu
      next hu =>
        have hv := nmuWrite_kept_of _ (by exact h) hu
        split
        next hw => exact nmuWrite_kept_of _ hv hw
        next hw => exact (congrArg (fun r => r.1.s.kept) hw).symm.trans ((nmuWrite_kept ..).trans hv)

theorem planMerge_kept (pi : Nat) (p : Option Pattern) (d : NDesc) (unit : Nat) (x : Mv) : KeptPlan (planMerge pi p d unit x) := by
  intro pl h y
  unfold planMerge at h
  dsimp only at h
  split at h
  · cases h
  · cases h
  split at h
  · cases h
  · cases h
    exact mergeRun_kept ..

theorem decompRun_kept (p : Option Pattern) (o : Opnd) (d : NDesc) (y : Mv) : (decompRun p o d y).1.s.kept = y.s.kept := by
  unfold decompRun
  dsimp only
  split <;> simp

theorem planDecomp_kept (p : Option Pattern) (d : NDesc) (unit : Nat) (x : Mv) : KeptPlan (planDecomp p d unit x) := by
  intro pl h y
  unfold planDecomp at h
  dsimp only at h
  split at h
  · cases h
  · cases h
  split at h
  · cases h
  split at h
  · cases h
  · cases h
    exact decompRun_kept ..

@[simp] theorem nmuBytes_kept (s : State) (c n : Nat) : (nmuBytes s c n).kept = s.kept := by
  simp [nmuBytes]

@[simp] theorem nmuDone_kept (c : Nat) (k : Core) (rings : List Ring) (draws : Nat) (m : Mv) :
    (nmuDone c k rings draws m).kept = m.s.kept := by
  unfold nmuDone
  simp

@[simp] theorem nmuMoved_kept (c : Nat) (k : Core) (rings : List Ring) (add : Bool) (m : Mv) :
    (nmuMoved c k rings add m).kept = m.s.kept := by
  unfold nmuMoved
  simp

@[simp] theorem foldl_hit_kept {α : Type} (f : α → XlateTag) (l : List α) (x : Mv) :
    (l.foldl (fun x i => x.hit (f i)) x).s.kept = x.s.kept := by
  induction l generalizing x with
  | nil => rfl
  | cons a l ih => rw [List.foldl_cons, ih, Mv.hit_kept]

@[simp] theorem elemHits_kept (x : Mv) (op : VaultOp) (d : NDesc) : (elemHits x op d).s.kept = x.s.kept := by
  simp [elemHits]

theorem runPlan_kept (c : Nat) (k : Core) (e : QEntry) (x : Mv) (pl : Except Stop Plan) (h : KeptPlan pl) :
    (runPlan c k e x pl).Kept x.s.kept := by
  unfold runPlan
  split
  · simp
  next q =>
    have hq := h q rfl x
    split
    · simp
    · simp
    split
    · trivial
    split
    next he => rw [he] at hq; rw [StartOut.kept_stop, nmuDone_kept]; exact hq
    next he => rw [he] at hq; rw [StartOut.kept_go, nmuDone_kept]; exact hq

@[simp] theorem scaddAll_kept (pi : Nat) (p : Option Pattern) (fill : Nat) (x : Mv) (l : List (Loc × Loc)) :
    (scaddAll pi p fill x l).1.s.kept = x.s.kept := by
  induction l generalizing x with
  | nil => rfl
  | cons a l ih =>
    unfold scaddAll
    have h1 := rdLoc_kept p x 32 fill a.2
    split
    · rfl
    next v y he =>
      rw [he] at h1
      split
      · exact (ih _).trans h1
      · have h2 := rdLoc_kept p y 32 0 a.1
        split
        · rfl
        next u z hz =>
          rw [hz] at h2
          have h3 := wrLoc_kept pi p z 32 a.1 ((u + v) % 2 ^ 32)
          split
          · rfl
          next w hw =>
            rw [hw] at h3
            refine (ih _).trans ?_
            exact (nmuBytesAt_kept w.s _ _).trans (h3.trans (h2.trans h1))

theorem startVaultMove_kept (s : State) (c : Nat) (k : Core) (e : QEntry) (add : Bool) (unit : Nat) :
    (startVaultMove s c k e add unit).Kept s.kept := by
  unfold startVaultMove
  extract_lets p pi x
  split
  · simp
  split
  · simp
  extract_lets sp none' lk linked ca
  split
  · simp
  · simp
  extract_lets rs ws
  split
  · simp
  split
  · trivial
  split
  · simp
  next s1 link he =>
  have hs : s1.kept = s.kept := by
    split at he
    · have ha := ctrApply_kept s c pi p (bitsOf (rdNat k.scratch ((unit + 3) * 64) 64) 64 64)
      revert he ha
      cases ctrApply s c pi p (bitsOf (rdNat k.scratch ((unit + 3) * 64) 64) 64 64) with
      | error _ => intro he; cases he
      | ok r => intro he ha; cases he; exact ha
    · cases he; rfl
  extract_lets m0 m done
  have hm : m.1.s.kept = s.kept := by
    rw [← hs]
    unfold m
    split
    · rfl
    · split
      · exact (overList_kept _ _ _ _ (fun _ _ _ => by simp) _ _ _ _).trans (Mv.listRead_kept ..)
      · exact xferRun_kept ..
  have hd : done.kept = s.kept := (nmuMoved_kept ..).trans hm
  split
  · exact hd
  · exact hd

theorem elemDone_kept (v : Nat) (e : QEntry) (s : State) (r : Except Stop State) (h : KeptOk id s.kept r) :
    (elemDone v e s r).Kept s.kept := by
  unfold elemDone
  split
  · simp
  · rw [StartOut.kept_go, nmuBytesAt_kept]; exact h

theorem lockOut_kept (v : Nat) (fl : InFlight) (dreg : Option Reg) (s : State) (a tries : Nat) (t : LockTry)
    (h : ∀ s1 w, t = .acquired s1 w → s1.kept = s.kept) : (lockOut v fl dreg s a tries t).Kept s.kept := by
  unfold lockOut
  split
  · rw [StartOut.kept_go, nmuBytesAt_kept]; exact h _ _ rfl
  · split <;> simp
  · simp

theorem startVault_kept (s : State) (c : Nat) (k : Core) (e : QEntry) (op : VaultOp) (unit : Nat) (dreg : Option Reg) :
    (startVault s c k e op unit dreg).Kept s.kept := by
  unfold startVault
  split
  · exact startVaultMove_kept ..
  extract_lets p pi d
  split
  · simp
  rename_i x y s1 s0 v _ _
  have hx : x.s.kept = s.kept := setCore_kept s c k
  have h0 : s0.kept = s.kept := by
    have h1 : s1.kept = s.kept := by rw [← hx]; unfold s1 y; rw [setCore_kept, elemHits_kept]
    unfold s0
    split
    · exact h1
    · rw [recOpen_kept, h1]
  split
  rotate_left 4
  · rw [← h0]
    have hf := fillWords_kept pi p (segOf d.vbase) (d.p0 + d.p1 * 2 ^ 32) s0 (ofsOf d.vbase) d.count
    split
    all_goals next he => rw [he] at hf; exact hf
  · rw [← h0]
    have hc := ctrDraw_kept s0 c pi p d.vbase d.p0
    split
    · simp
    next he => rw [he] at hc; rw [StartOut.kept_go, nmuBytesAt_kept]; exact hc
  · rw [← h0]
    refine elemDone_kept _ _ _ _ ?_
    split
    · exact ctrInit_kept ..
    split
    · exact ctrDone_kept ..
    · exact ctrRelease_kept ..
  · rw [← h0]
    exact lockOut_kept _ _ _ _ _ _ _ (fun t w h => lockTry_kept _ _ _ _ _ t w h)
  · rw [← h0]
    exact elemDone_kept _ _ _ _ (lockFree_kept ..)
  all_goals rw [← hx]
  · exact runPlan_kept c k e x _ (planTopk_kept _ _ _ _ _)
  · exact runPlan_kept c k e x _ (planRred_kept _ _ _ _ _)
  · split
    · simp
    · exact runPlan_kept c k e x _ (planMerge_kept _ _ _ _ _)
  · exact runPlan_kept c k e x _ (planDecomp_kept _ _ _ _)

@[simp] theorem sendConnect_kept (s : State) (c dest : Nat) (q : Fin 8) : (sendConnect s c dest q).kept = s.kept := by
  unfold sendConnect
  dsimp only
  repeat' first | (simp; done) | split

theorem sendTry_kept (s : State) (c : Nat) (fl : InFlight) (dest : Nat) (q : Fin 8) (src len : Nat) (tag : BitVec 16) :
    (sendTry s c fl dest q src len tag).Kept s.kept := by
  unfold sendTry
  dsimp only
  repeat' first | (simp; done) | split

theorem startSend_kept (s : State) (c : Nat) (k : Core) (e : QEntry) (d : Nat) (q : Fin 8) (src len : Nat) (tag : BitVec 16) :
    (startSend s c k e d q src len tag).Kept s.kept := by
  unfold startSend
  split
  · simp
  split
  · simp
  split
  · simp
  split
  · simp
  split
  · trivial
  · rw [← setCore_kept s c]; exact sendTry_kept ..

@[simp] theorem giveBack_kept (s : State) (c : Nat) (q : Fin 8) (src w : Nat) : (giveBack s c q src w).kept = s.kept := by
  unfold giveBack
  dsimp only
  repeat' first | (simp; done) | split

@[simp] theorem discardStale_kept (s : State) (b c sender : Nat) (q : Fin 8) (epoch : BitVec 8) :
    (discardStale s b c sender q epoch).kept = s.kept := by
  simp [discardStale]

@[simp] theorem discardStored_kept (s : State) (c : Nat) (q : Fin 8) : (discardStored s c q).kept = s.kept := by
  simp [discardStored]

@[simp] theorem discardAll_kept (s : State) (c : Nat) : (discardAll s c).kept = s.kept := by
  simp [discardAll]

@[simp] theorem resetQueue_kept (s : State) (c : Nat) (q : Fin 8) : (resetQueue s c q).kept = s.kept := by
  simp [resetQueue]

@[simp] theorem spillPut_kept (s : State) (f : Nat) (x : RecvQ) (a b : Nat) : (spillPut s f x a b).kept = s.kept := by
  exact kept_foldl _ _ _ (fun _ _ => rfl)

theorem recvTry_kept (s : State) (c : Nat) (fl : InFlight) (q : Fin 8) (blk : Bool) (dsts maxlen : Nat) (lreg : Option Reg) :
    (recvTry s c fl q blk dsts maxlen lreg).Kept s.kept := by
  unfold recvTry
  dsimp only
  repeat' first | (simp; done) | split

theorem startRecv_kept (s : State) (c : Nat) (k : Core) (e : QEntry) (q : Fin 8) (blk : Bool) (dsts maxlen : Nat) (lreg : Option Reg) :
    (startRecv s c k e q blk dsts maxlen lreg).Kept s.kept := by
  unfold startRecv
  dsimp only
  split
  · simp
  split
  · simp
  split
  · trivial
  · rw [← setCore_kept s c]; exact recvTry_kept ..

theorem startCredit_kept (s : State) (c : Nat) (k : Core) (e : QEntry) (q : Fin 8) (n : Nat) :
    (startCredit s c k e q n).Kept s.kept := by
  unfold startCredit
  dsimp only
  repeat' first | (simp; done) | split

theorem startMessage_kept (s : State) (c : Nat) (k : Core) (e : QEntry) : (startMessage s c k e).Kept s.kept := by
  unfold startMessage
  split
  · exact startSend_kept ..
  · exact startRecv_kept ..
  · exact startCredit_kept ..
  · trivial

theorem messageTry_kept (s : State) (c : Nat) (fl : InFlight) : (messageTry s c fl).Kept s.kept := by
  unfold messageTry
  split
  · split
    · trivial
    · exact sendTry_kept ..
  · exact recvTry_kept ..
  · trivial

end Sys2Proof.Machine
end

