-- ==== Sys2Proof/Laws/KeptCores.lean ====
section
/-! SUPPORT. What the operations on engines' queues, messages, placement, resets, cancellation and steps leave alone: the power state and the queue. -/

namespace Sys2Proof.Machine

@[simp] theorem takeFrames_kept (s : State) (f n : Nat) (taken : Bool) : (State.takeFrames s f n taken).kept = s.kept := by
  simp [State.takeFrames]

@[simp] theorem lzPut_kept (s : State) (a : Nat) (b : Byte) : (lzPut s a b).kept = s.kept := by
  simp [lzPut]

@[simp] theorem lzPuts_kept (s : State) (a : Nat) (l : List Byte) : (lzPuts s a l).kept = s.kept := by
  induction l generalizing s a with
  | nil => rfl
  | cons b l ih => unfold lzPuts; simp [ih]

@[simp] theorem lzRelease_kept (s : State) (b n : Nat) : (lzRelease s b n).kept = s.kept := by
  unfold lzRelease
  refine kept_foldl _ _ _ (fun _ _ => ?_)
  repeat' first | rfl | (simp; done) | split | (dsimp only; split)

@[simp] theorem setPd_kept (s : State) (k : Fin 4) (x : PortDie) : (State.setPd s k x).kept = s.kept := by
  simp [State.setPd]

@[simp] theorem setConn_kept (s : State) (k : Fin 4) (n : Nat) (x : Option Conn) : (State.setConn s k n x).kept = s.kept := by
  simp [State.setConn]

@[simp] theorem sendBacklog_kept (s : State) (k : Fin 4) (n : Nat) : (sendBacklog s k n).kept = s.kept := by
  unfold sendBacklog
  dsimp only
  repeat' first | rfl | (simp; done) | split

@[simp] theorem respond_kept (s : State) (k : Fin 4) (n kind : Nat) (body : List Byte) :
    (respond s k n kind body).kept = s.kept := by
  unfold respond
  dsimp only
  repeat' first | (simp; done) | split

@[simp] theorem finalStatus_kept (s : State) (k : Fin 4) (n : Nat) (c : Code) : (finalStatus s k n c).kept = s.kept := by
  unfold finalStatus
  dsimp only
  repeat' first | (simp; done) | split

@[simp] theorem setStream_kept (s : State) (slot : Nat) (x : Option Stream) : (State.setStream s slot x).kept = s.kept := by
  simp [State.setStream]

@[simp] theorem reportEnd_kept (s : State) (x : Stream) (code : Option Code) : (reportEnd s x code).kept = s.kept := by
  unfold reportEnd
  repeat' first | (simp; done) | split

@[simp] theorem endStream_kept (s : State) (slot : Nat) (code : Option Code) : (endStream s slot code).kept = s.kept := by
  unfold endStream
  repeat' first | (simp; done) | split

@[simp] theorem endStreams_kept (s : State) (slots : List Nat) (code : Option Code) :
    (endStreams s slots code).kept = s.kept := by
  simp [endStreams]

@[simp] theorem keyMismatch_kept (s : State) (block slot : Nat) : (keyMismatch s block slot).kept = s.kept := by
  unfold keyMismatch
  split <;> simp

@[simp] theorem reportEnded_kept (s : State) (slots : List Nat) : (reportEnded s slots).kept = s.kept := by
  unfold reportEnded
  refine kept_foldl _ _ _ (fun _ _ => ?_)
  repeat' first | rfl | (simp; done) | split | (dsimp only; split)

@[simp] theorem engineMarks_kept (s : State) (c : Nat) (e : Fin 5) : (engineMarks s c e).kept = s.kept := by
  simp [engineMarks]

@[simp] theorem stopCore_kept (s : State) (c : Nat) (e : Fin 5) (q : QEntry) (st : Stop) :
    (stopCore s c e q st).kept = s.kept := by
  unfold stopCore
  split <;> simp

theorem chainRun_kept (s : State) (c : Nat) (k : Core) (fl : InFlight) (ch : Chain) (unit : Nat) (run : Bool) (p : Fin 2) :
    (chainRun s c k fl ch unit run p).Kept s.kept := by
  unfold chainRun
  dsimp only
  split <;> simp

theorem startChain_kept (s : State) (c : Nat) (k : Core) (e : QEntry) (unit : Nat) (run : Bool) (p : Fin 2) :
    (startChain s c k e unit run p).Kept s.kept := by
  unfold startChain
  dsimp only
  repeat' first | trivial | (simp; done) | exact chainRun_kept .. | split

theorem startEntry_kept (s : State) (c : Nat) (k : Core) (e : QEntry) : (startEntry s c k e).Kept s.kept := by
  unfold startEntry
  split
  · exact startTmul_kept ..
  · exact startChain_kept ..
  · exact startAccrd_kept ..
  · exact startRow_kept ..
  · exact startStream_kept ..
  · exact startVault_kept ..
  · exact startMessage_kept ..
  · exact startMessage_kept ..
  · exact startMessage_kept ..

@[simp] theorem putProg_kept (s : State) (c : Nat) (e : Fin 5) (i : Nat) (fl : InFlight) :
    (putProg s c e i fl).kept = s.kept := by
  simp [putProg]

@[simp] theorem headStarted_kept (s : State) (c : Nat) (e : Fin 5) (fl : InFlight) : (headStarted s c e fl).kept = s.kept := by
  simp [headStarted]

@[simp] theorem headStalls_kept (s : State) (c : Nat) (e : Fin 5) (ring slot : Nat) :
    (headStalls s c e ring slot).kept = s.kept := by
  unfold headStalls
  dsimp only
  repeat' first | (simp; done) | split

@[simp] theorem chainMore_kept (s : State) (c : Nat) (k : Core) (i : Nat) (fl : InFlight) (ch : Chain) :
    (chainMore s c k i fl ch).kept = s.kept := by
  unfold chainMore
  split
  next unit run p _ =>
    have h := chainRun_kept s c k fl ch unit run p
    split
    next he => rw [he] at h; rw [putProg_kept]; exact h
    next he => rw [he] at h; rw [stopCore_kept]; exact h
    · rfl
  · rfl

@[simp] theorem tryStart_kept (s : State) (c : Nat) (e : Fin 5) : (tryStart s c e).kept = s.kept := by
  unfold tryStart
  extract_lets k0 k s1
  have h1 : s1.kept = s.kept := setCore_kept ..
  split
  · rfl
  split
  · simp
  · rw [← h1]
    split
    · rfl
    next h _ _ =>
      split
      · rfl
      · have hs := startEntry_kept s1 c k { h with stalled := none }
        split
        · rfl
        · simp
        next he => rw [he] at hs; rw [stopCore_kept]; exact hs
        next he => rw [he] at hs; rw [headStarted_kept]; exact hs

@[simp] theorem retire_kept (c : Nat) (e : Fin 5) (n : Nat) (s : State) : (retire c e n s).kept = s.kept := by
  induction n generalizing s with
  | zero => rfl
  | succ n ih =>
    unfold retire
    dsimp only
    repeat' first | (simp [ih]; done) | split

@[simp] theorem finishCmd_kept (s : State) (c : Nat) (e : Fin 5) (i : Nat) (fl : InFlight) :
    (finishCmd s c e i fl).kept = s.kept := by
  unfold finishCmd
  repeat' first | (simp; done) | split

@[simp] theorem lockTries_kept (c : Nat) (l : List Nat) (s : State) : (lockTries c l s).kept = s.kept := by
  induction l generalizing s with
  | nil => rfl
  | cons i l ih =>
    unfold lockTries
    extract_lets k
    split
    · exact ih s
    next fl _ =>
      split
      next a _ dreg _ _ _ =>
        have h := lockOut_kept (recVault (s.corePat k) a) fl dreg s a (fl.tries - 1) (lockTry s c (k.pat.getD 0) (s.corePat k) a)
          (fun t w h => lockTry_kept _ _ _ _ _ t w h)
        split
        next he => rw [he] at h; rw [ih, putProg_kept]; exact h
        next he => rw [he] at h; rw [stopCore_kept]; exact h
        · exact ih s
      · exact ih s

@[simp] theorem messageGoOn_kept (s : State) (c : Nat) : (messageGoOn s c).kept = s.kept := by
  unfold messageGoOn
  dsimp only
  split
  · rfl
  split
  · rfl
  next fl _ _ =>
    split
    · rfl
    · have h := messageTry_kept s c fl
      split
      next he => rw [he] at h; rw [putProg_kept]; exact h
      next he => rw [he] at h; rw [stopCore_kept]; exact h
      · rfl

@[simp] theorem queuePtr_kept (s : State) (c : Nat) (q : Fin 8) : (queuePtr s c q).kept = s.kept := by
  simp [queuePtr]

@[simp] theorem spillItem_kept (s : State) (c : Nat) (q : Fin 8) (n : Nat) : (spillItem s c q n).kept = s.kept := by
  unfold spillItem
  dsimp only
  repeat' first | rfl | (simp; done) | split

@[simp] theorem takeItem_kept (s : State) (c : Nat) (q : Fin 8) (i : Item) : (takeItem s c q i).kept = s.kept := by
  unfold takeItem
  dsimp only
  repeat' first | (simp; done) | split

@[simp] theorem raiseIrq_kept (s : State) (n : Nat) : (raiseIrq s n).kept = s.kept := by
  unfold raiseIrq
  dsimp only
  repeat' first | (simp; done) | split

@[simp] theorem note_kept (s s' : State) : (note s s').kept = s'.kept := by
  unfold note
  try dsimp only
  repeat' first
    | rfl
    | (simp; done)
    | split
    | (refine (kept_foldl _ _ _ (fun _ _ => ?_)).trans ?_)
    | (dsimp only; split)
    | (intro; done)

@[simp] theorem setMark_kept (s : State) (t : Nat) (m : SiteMark) : (State.setMark s t m).kept = s.kept := by
  simp [State.setMark]

@[simp] theorem setPlace_kept (s : State) (c : Nat) (p : Place) : (State.setPlace s c p).kept = s.kept := by
  simp [State.setPlace]

@[simp] theorem seatCore_kept (s : State) (c : Nat) : (seatCore s c).kept = s.kept := by
  unfold seatCore
  repeat' first | (simp; done) | split

@[simp] theorem makeAbsent_kept (s : State) (c : Nat) : (makeAbsent s c).kept = s.kept := by
  simp [makeAbsent]

@[simp] theorem absentMore_kept (d n : Nat) (s : State) : (absentMore d n s).kept = s.kept := by
  induction n generalizing s with
  | zero => rfl
  | succ n ih => unfold absentMore; split <;> simp [ih]

@[simp] theorem dieEvent_kept (s : State) (d : Nat) (c : Code) : (dieEvent s d c).kept = s.kept := by
  simp [dieEvent]

@[simp] theorem retireDie_kept (s : State) (d : Nat) : (retireDie s d).kept = s.kept := by
  unfold retireDie
  split
  · rfl
  · dsimp only
    split <;> simp

@[simp] theorem dieCheck_kept (s : State) (d : Nat) : (dieCheck s d).kept = s.kept := by
  unfold dieCheck
  dsimp only
  repeat' first | (simp; done) | split

@[simp] theorem suspectSite_kept (s : State) (block c seq pi : Nat) : (suspectSite s block c seq pi).kept = s.kept := by
  unfold suspectSite
  split <;> simp

@[simp] theorem clearCtrs_kept (s : State) (c : Nat) : (State.clearCtrs s c).kept = s.kept := by
  simp [State.clearCtrs]

@[simp] theorem coreReset_kept (s : State) (c : Nat) : (coreReset s c).kept = s.kept := by
  simp [coreReset]

@[simp] theorem placeCore_kept (s : State) (c pi ri : Nat) (m : Manifest) (img : CoreImage) (atLoad : Bool) :
    (placeCore s c pi ri m img atLoad).kept = s.kept := by
  simp [placeCore]

@[simp] theorem placeRegionCores_kept (s : State) (pi ri : Nat) (p : Pattern) (r : Region) (atLoad : Bool) :
    (placeRegionCores s pi ri p r atLoad).kept = s.kept := by
  unfold placeRegionCores
  refine kept_foldl _ _ _ (fun _ _ => ?_)
  repeat' first | rfl | (simp; done) | split | (dsimp only; split)

@[simp] theorem clearArrivals_kept (s : State) (c : Nat) : (clearArrivals s c).kept = s.kept := by
  unfold clearArrivals
  dsimp only
  repeat' first | (simp; done) | split

@[simp] theorem lockEvent_kept (s : State) (pi c a : Nat) (code : Code) : (lockEvent s pi c a code).kept = s.kept := by
  simp [lockEvent]

@[simp] theorem orphanClaims_kept (s : State) (pi : Nat) (p : Option Pattern) (c : Nat) (r : RegCtr) :
    (orphanClaims s pi p c r).kept = s.kept := by
  unfold orphanClaims
  try dsimp only
  repeat' first
    | rfl
    | (simp; done)
    | split
    | (refine (kept_foldl _ _ _ (fun _ _ => ?_)).trans ?_)
    | (dsimp only; split)
    | (intro; done)

@[simp] theorem setSteps_kept (s : State) (l : List Step) : (State.setSteps s l).kept = s.kept := by
  simp [State.setSteps]

@[simp] theorem mapSteps_kept (s : State) (f : Step → Step) : (State.mapSteps s f).kept = s.kept := by
  simp [State.mapSteps]

@[simp] theorem setStreams_kept (s : State) (slots : List Nat) (st : StreamState) : (setStreams s slots st).kept = s.kept := by
  unfold setStreams
  refine kept_foldl _ _ _ (fun _ _ => ?_)
  repeat' first | rfl | (simp; done) | split | (dsimp only; split)

@[simp] theorem dropHold_kept (s : State) (pi : Nat) : (dropHold s pi).kept = s.kept := by
  unfold dropHold
  split <;> simp

@[simp] theorem settle_kept (s : State) : (settle s).kept = s.kept := by
  simp [settle]

@[simp] theorem drainDone_kept (s : State) (pi : Nat) : (drainDone s pi).kept = s.kept := by
  unfold drainDone
  dsimp only
  repeat' first | (simp; done) | split

@[simp] theorem haltSteps_kept (s : State) (pi : Nat) (p : Pattern) (ph : Step → StepPhase) :
    (haltSteps s pi p ph).kept = s.kept := by
  unfold haltSteps
  dsimp only
  repeat' first | (simp; done) | split

@[simp] theorem endSteps_kept (s : State) (pi : Nat) (f : Step → Bool) (code : Code) : (endSteps s pi f code).kept = s.kept := by
  simp [endSteps]

@[simp] theorem dropParked_kept (s : State) (x : Stream) (code : Option Code) : (dropParked s x code).kept = s.kept := by
  unfold dropParked
  split <;> simp

theorem openRow2_kept (s : State) (m1 m2 : Memory) (d a : Nat) :
    (openRow { openRow { s with mem := m1 } d with mem := m2 } a).kept = s.kept := by
  rw [openRow_kept]
  exact openRow_kept { s with mem := m1 } d

@[simp] theorem parkWrite_kept (s : State) (i : Nat) (x : Stream) : (parkWrite s i x).kept = s.kept := by
  delta parkWrite
  exact openRow2_kept ..

@[simp] theorem setParked_kept (s : State) (head : Nat) (l : List Stream) : (s.setParked head l).kept = s.kept := by
  unfold State.setParked
  extract_lets old s1
  have h : s1.kept = s.kept := by
    refine kept_foldl _ _ _ (fun s i => ?_)
    split
    · rfl
    · split
      · rfl
      · exact parkWrite_kept ..
  exact h

@[simp] theorem refuseParked_kept (s : State) (pi : Nat) : (refuseParked s pi).kept = s.kept := by
  simp [refuseParked]

@[simp] theorem faultPattern_kept (s : State) (pi : Nat) : (faultPattern s pi).kept = s.kept := by
  unfold faultPattern
  repeat' first | (simp; done) | split

@[simp] theorem stopPeer_kept (s : State) (c first : Nat) : (stopPeer s c first).kept = s.kept := by
  unfold stopPeer
  dsimp only
  repeat' first | (simp; done) | split

@[simp] theorem markStopped_kept (s : State) (pi ri : Nat) : (markStopped s pi ri).kept = s.kept := by
  unfold markStopped
  repeat' first | (simp; done) | split

@[simp] theorem afterStop_kept (s : State) (pi ri : Nat) (cls : FaultClass) (faults : List (Nat × Nat)) :
    (afterStop s pi ri cls faults).kept = s.kept := by
  unfold afterStop
  repeat' first | (simp; done) | split

@[simp] theorem loseRegion_kept (s : State) (pi ri : Nat) : (loseRegion s pi ri).kept = s.kept := by
  unfold loseRegion
  repeat' first | (simp; done) | split

@[simp] theorem loseAbsent_kept (s : State) : (loseAbsent s).kept = s.kept := by
  simp [loseAbsent]

@[simp] theorem unplaceCores_kept (s : State) (l : List Nat) : (unplaceCores s l).kept = s.kept := by
  simp [unplaceCores]

@[simp] theorem helmWrite_kept (s : State) (pi : Nat) (p : Pattern) (seg ofs : Nat) (b : List Byte) :
    (helmWrite s pi p seg ofs b).kept = s.kept := by
  unfold helmWrite
  split <;> simp

theorem setStream_mem_kept (s : State) (m : Memory) (slot : Nat) (x : Option Stream) :
    (State.setStream { s with mem := m } slot x).kept = s.kept := by
  simp

@[simp] theorem putPage_kept (s : State) (p : Pattern) (slot : Nat) (x : Stream) (l g f : Nat) :
    (putPage s p slot x l g f).kept = s.kept :=
  setStream_mem_kept s (wrNat s.mem (ptAddr x p.manifest.params.nlhg l g) 8 (ptBits f x.pki)) slot
    (some { x with pages := x.pages.filter (fun e => !decide (e.1 = l ∧ e.2.1 = g)) ++ [(l, g, f)] })

@[simp] theorem mapPage_kept (s : State) (p : Pattern) (slot l g : Nat) : (mapPage s p slot l g).kept = s.kept := by
  unfold mapPage
  dsimp only
  repeat' first | (simp; done) | split

@[simp] theorem mapBlocks_kept (s : State) (p : Pattern) (slot g0 g1 : Nat) : (mapBlocks s p slot g0 g1).kept = s.kept := by
  unfold mapBlocks
  repeat' first | (simp; done) | split

@[simp] theorem renewPage_kept (s : State) (p : Pattern) (slot : Nat) (e : Nat × Nat) : (renewPage s p slot e).kept = s.kept := by
  unfold renewPage
  repeat' first | (simp; done) | split

@[simp] theorem resolveLost_kept (s : State) (slot : Nat) : (resolveLost s slot).kept = s.kept := by
  unfold resolveLost
  dsimp only
  repeat' first | (simp; done) | split

@[simp] theorem writeRows_kept (s : State) (pi : Nat) (p : Pattern) (b : BatchEnt) : (writeRows s pi p b).kept = s.kept := by
  unfold writeRows
  split <;> simp

@[simp] theorem zeroRows_kept (s : State) (pi : Nat) (p : Pattern) (t n : Nat) : (zeroRows s pi p t n).kept = s.kept := by
  simp [zeroRows]

theorem dispatchStep_kept (s : State) (pi : Nat) (p : Pattern) (t : Step) (lclass : Nat) :
    (dispatchStep s pi p t lclass).2.kept = s.kept := by
  unfold dispatchStep
  simp

@[simp] theorem formStep_kept (s : State) (pi : Nat) (p : Pattern) : (formStep s pi p).kept = s.kept := by
  unfold formStep
  extract_lets ready has hb
  split
  · rfl
  extract_lets order batch p1 s1 t
  have h1 : s1.kept = s.kept := by
    unfold s1
    rw [bump_kept]
    refine kept_foldl _ _ _ (fun s b => ?_)
    split <;> simp
  rw [← h1, ← setSteps_kept s1]
  exact (setSteps_kept _ _).trans (dispatchStep_kept ..)

@[simp] theorem restartCores_kept (s : State) (p : Pattern) : (restartCores s p).kept = s.kept := by
  simp [restartCores]

@[simp] theorem commitEntry_kept (p : Pattern) (a : State × List (Nat × List Byte)) (b : BatchEnt) :
    (commitEntry p a b).1.kept = a.1.kept := by
  unfold commitEntry
  dsimp only
  repeat' first | rfl | (simp; done) | split

@[simp] theorem undoEntry_kept (st : StreamState) (s : State) (b : BatchEnt) : (undoEntry st s b).kept = s.kept := by
  unfold undoEntry
  repeat' first | (simp; done) | split

@[simp] theorem gateEntry_kept (t : Step) (s : State) (b : BatchEnt) : (gateEntry t s b).kept = s.kept := by
  unfold gateEntry
  dsimp only
  repeat' first | (simp; done) | split

end Sys2Proof.Machine
end

