-- ==== Sys2Proof/Laws/KeptDevice.lean ====
section
/-! SUPPORT. What the operations on frames, vaults, admission, links, ports and the loader leave alone: the power state and the queue. -/

namespace Sys2Proof.Machine

@[simp] theorem setSegment_kept (s : State) (pi seg : Nat) (g : Segment) : (setSegment s pi seg g).kept = s.kept := by
  unfold setSegment
  split <;> simp

@[simp] theorem wrMemBytes_kept (s : State) (a : Nat) (b : List Byte) : (State.wrMemBytes s a b).kept = s.kept := by
  simp [State.wrMemBytes]

@[simp] theorem swapFrame_kept (s : State) (f f' : Nat) : (swapFrame s f f').kept = s.kept := by
  unfold swapFrame
  repeat' first | (simp; done) | split

@[simp] theorem darnEvent_kept (s : State) (c : Code) (a num : Nat) : (darnEvent s c a num).kept = s.kept := by
  simp [darnEvent]

@[simp] theorem moveFrame_kept (s : State) (f : Nat) (zero : List Nat) : (moveFrame s f zero).kept = s.kept := by
  unfold moveFrame
  split
  · rfl
  next f' _ =>
    extract_lets s1 s2 bad s3 s4
    have h2 : s2.kept = s.kept := by
      unfold s2 s1
      rw [kept_mk, kept_pair, takeFrames_kept, wrMemBytes_kept]
    have h3 : s3.kept = s.kept := by
      unfold s3
      split
      · exact h2
      · exact (kept_foldl _ _ _ (fun s o => wrMemBytes_kept ..)).trans h2
    exact (swapFrame_kept ..).trans h3

@[simp] theorem moveKv_kept (s : State) (slot l g : Nat) : (moveKv s slot l g).kept = s.kept := by
  unfold moveKv
  dsimp only
  repeat' first | (simp; done) | split

@[simp] theorem moveTable_kept (s : State) (slot : Nat) : (moveTable s slot).kept = s.kept := by
  unfold moveTable
  dsimp only
  repeat' first | (simp; done) | split

@[simp] theorem movePage_kept (s : State) (f : Nat) (failed : Bool) : (movePage s f failed).kept = s.kept := by
  unfold movePage
  repeat' first | (simp; done) | split

@[simp] theorem queueReplay_kept (s : State) (slot upto : Nat) : (queueReplay s slot upto).kept = s.kept := by
  unfold queueReplay
  dsimp only
  repeat' first | rfl | (simp; done) | split

@[simp] theorem losePage_kept (s : State) (slot l g : Nat) : (losePage s slot l g).kept = s.kept := by
  unfold losePage
  dsimp only
  repeat' first | (simp; done) | split

@[simp] theorem loseLz_kept (s : State) (a : Nat) : (loseLz s a).kept = s.kept := by
  unfold loseLz
  repeat' first | rfl | (simp; done) | split

@[simp] theorem loseWord_kept (s : State) (a : Nat) : (loseWord s a).kept = s.kept := by
  unfold loseWord
  dsimp only
  repeat' first | (simp; done) | split

@[simp] theorem faultEngine_kept (s : State) (c : Nat) (eng : Fin 6) (code : Code) (x56 : Nat) :
    (faultEngine s c eng code x56).kept = s.kept := by
  unfold faultEngine
  dsimp only
  repeat' first | (simp; done) | split

@[simp] theorem faultIssuer_kept (s : State) (issuer : Option (Nat × Fin 6)) (a : Nat) :
    (faultIssuer s issuer a).kept = s.kept := by
  unfold faultIssuer
  split <;> simp

@[simp] theorem holdIssuer_kept (s : State) (issuer : Option (Nat × Fin 6)) (b : Bool) :
    (holdIssuer s issuer b).kept = s.kept := by
  unfold holdIssuer
  dsimp only
  repeat' first | (simp; done) | split

@[simp] theorem correctWord_kept (s : State) (a : Nat) (b : BitVec 256) : (correctWord s a b).kept = s.kept := by
  unfold correctWord
  dsimp only
  repeat' first | (simp; done) | split

@[simp] theorem toDarning_kept (s : State) (a : Nat) (issuer : Option (Nat × Fin 6)) (reply : Bool)
    (write : Option (Nat × BitVec 256 × BitVec 32)) : (toDarning s a issuer reply write).kept = s.kept := by
  unfold toDarning
  split <;> simp

@[simp] theorem readArray_kept (s : State) (a : Nat) (first retry : DecodeOut) : (readArray s a first retry).1.kept = s.kept := by
  unfold readArray
  repeat' first | (simp; done) | split

@[simp] theorem putCodeword_kept (s : State) (a : Nat) (b : List Byte) : (putCodeword s a b).kept = s.kept := by
  unfold putCodeword
  split <;> simp

@[simp] theorem writeLost_kept (s : State) (a : Nat) (issuer : Option (Nat × Fin 6)) (data : List Byte) (mask : BitVec 32) : (writeLost s a issuer data mask).kept = s.kept := by
  unfold writeLost
  dsimp only
  repeat' first | (simp; done) | split

@[simp] theorem placeRebuilt_kept (s : State) (a : Nat) (b : List Byte) : (placeRebuilt s a b).kept = s.kept := by
  unfold placeRebuilt
  dsimp only
  repeat' first | (simp; done) | split

@[simp] theorem finishWrite_kept (s : State) (w : DarnWait) (word : List Byte) : (finishWrite s w word).kept = s.kept := by
  unfold finishWrite
  repeat' first | (simp; done) | split

@[simp] theorem taintSteps_kept (s : State) (pi : Nat) (r : Report) : (taintSteps s pi r).kept = s.kept := by
  simp [taintSteps]

@[simp] theorem resolveReport_kept (s : State) (r : Report) : (resolveReport s r).kept = s.kept := by
  unfold resolveReport
  dsimp only
  repeat' first | (simp; done) | split

@[simp] theorem setMig_kept (s : State) (m : Migration) (m' : Option Migration) : (setMig s m m').kept = s.kept := by
  simp [setMig]

@[simp] theorem returnCore_kept (s : State) (t : Nat) : (returnCore s t).kept = s.kept := by
  unfold returnCore
  split <;> simp

@[simp] theorem loseKv_kept (s : State) (d : Nat) : (loseKv s d).kept = s.kept := by
  unfold loseKv
  refine kept_foldl _ _ _ (fun _ _ => ?_)
  repeat' first | rfl | (simp; done) | split | (dsimp only; split)

@[simp] theorem holdCores_kept (s : State) : (holdCores s).kept = s.kept := by
  simp [holdCores]

@[simp] theorem closePorts_kept (s : State) : (closePorts s).kept = s.kept := by
  simp [closePorts]

@[simp] theorem refuseReq_kept (s : State) (h : Nat) (i : ReqItem) (c : Code) : (refuseReq s h i c).kept = s.kept := by
  simp [refuseReq]

@[simp] theorem resetIngress_kept (s : State) (h : Fin 2) (pd : Fin 4) : (resetIngress s h pd).kept = s.kept := by
  simp [resetIngress]

@[simp] theorem moveKey_kept (s : State) (x : Stream) (k : Fin 4) (q : Nat) : (moveKey s x k q).kept = s.kept := by
  unfold moveKey
  split <;> simp

@[simp] theorem activate_kept (s : State) (x : Stream) (p : Pattern) (slot : Nat) : (activate s x p slot).kept = s.kept := by
  unfold activate
  split <;> simp

@[simp] theorem activateAll_kept (n : Nat) (s : State) : (activateAll n s).kept = s.kept := by
  induction n generalizing s with
  | zero => rfl
  | succ n ih =>
    unfold activateAll
    dsimp only
    split
    · simp [ih]
    · simp [ih]
    · rfl

@[simp] theorem parkItem_kept (s : State) (e : ReqItem × Nat) : (parkItem s e).kept = s.kept := by
  unfold parkItem
  dsimp only
  repeat' first | (simp; done) | split

@[simp] theorem releaseSlot_kept (s : State) (slot : Nat) : (releaseSlot s slot).kept = s.kept := by
  unfold releaseSlot
  repeat' first | (simp; done) | split

@[simp] theorem telWrite_kept (s : State) (r : EventRec) : (telWrite s r).kept = s.kept := by
  unfold telWrite
  dsimp only
  repeat' first | (simp; done) | split

@[simp] theorem toLog_kept (s : State) (r : EventRec) : (toLog s r).kept = s.kept := by
  unfold toLog
  split <;> simp

@[simp] theorem newChallenge_kept (s : State) : (newChallenge s).kept = s.kept := by
  simp [newChallenge]

@[simp] theorem hostReset_kept (s : State) (up : Bool) : (hostReset s up).kept = s.kept := by
  simp [hostReset]

@[simp] theorem takeOver_kept (s : State) : (takeOver s).kept = s.kept := by
  simp [takeOver]

@[simp] theorem closePd_kept (s : State) (k : Fin 4) : (closePd s k).kept = s.kept := by
  simp [closePd]

@[simp] theorem linkEvent_kept (s : State) (i : LinkId) (c : Code) (x : Link) : (linkEvent s i c x).kept = s.kept := by
  simp [linkEvent]

@[simp] theorem releaseSent_kept (s : State) (l : Fin 8) : (releaseSent s l).kept = s.kept := by
  unfold releaseSent
  try dsimp only
  repeat' first
    | rfl
    | (simp; done)
    | split
    | (refine (kept_foldl _ _ _ (fun _ _ => ?_)).trans ?_)
    | (dsimp only; split)
    | (intro; done)

@[simp] theorem afterAck_kept (s : State) (i : LinkId) : (afterAck s i).kept = s.kept := by
  unfold afterAck
  split <;> simp

@[simp] theorem retrain_kept (s : State) (i : LinkId) (x : Link) : (retrain s i x).kept = s.kept := by
  unfold retrain
  split <;> simp

@[simp] theorem resend_kept (s : State) (i : LinkId) : (resend s i).kept = s.kept := by
  unfold resend
  split
  · rfl
  · refine kept_foldl _ _ _ (fun s f => ?_)
    split <;> simp

@[simp] theorem resetLink_kept (s : State) (l : Fin 8) : (resetLink s l).kept = s.kept := by
  simp [resetLink]

@[simp] theorem failLink_kept (s : State) (i : LinkId) (x : Link) (h : Handshake) (c : Code) (hold : Bool) :
    (failLink s i x h c hold).kept = s.kept := by
  simp [failLink]

@[simp] theorem resetEth_kept (s : State) (p : Fin 8) : (resetEth s p).kept = s.kept := by
  simp [resetEth]

@[simp] theorem sendRqack_kept (s : State) (k : Fin 4) (n : Nat) (c : Conn) : (sendRqack s k n c).kept = s.kept := by
  simp [sendRqack]

@[simp] theorem turnAway_kept (s : State) (key : ConnKey) : (turnAway s key).kept = s.kept := by
  simp [turnAway]

@[simp] theorem statusOnce_kept (s : State) (key : ConnKey) (c : Code) : (statusOnce s key c).kept = s.kept := by
  simp [statusOnce]

@[simp] theorem refuseConn_kept (s : State) (k : Fin 4) (n : Nat) (c : Code) : (refuseConn s k n c).kept = s.kept := by
  unfold refuseConn
  split <;> simp

@[simp] theorem forwardOut_kept (s : State) (k : Fin 4) (n : Nat) (x : Conn) : (forwardOut s k n x).kept = s.kept := by
  unfold forwardOut
  split <;> simp

@[simp] theorem landSegment_kept (s : State) (x : Conn) (seg : RqSegment) : (landSegment s x seg).kept = s.kept := by
  simp [landSegment]

@[simp] theorem takeSegment_kept (s : State) (k : Fin 4) (n : Nat) (x : Conn) (seg : RqSegment) :
    (takeSegment s k n x seg).kept = s.kept := by
  unfold takeSegment
  dsimp only
  repeat' first | (simp; done) | split

@[simp] theorem openConn_kept (s : State) (k : Fin 4) (seg : RqSegment) : (openConn s k seg).kept = s.kept := by
  unfold openConn
  dsimp only
  repeat' first | (simp; done) | split

@[simp] theorem keepConn_kept (s : State) (k : Fin 4) (n : Nat) (x : Conn) : (keepConn s k n x).kept = s.kept := by
  simp [keepConn]

@[simp] theorem unqueue_kept (s : State) (k : Fin 4) (n : Nat) : (unqueue s k n).kept = s.kept := by
  unfold unqueue
  exact kept_foldl _ _ _ (fun s q => by simp)

@[simp] theorem cancelOpened_kept (s : State) (k : Fin 4) (n : Nat) (x : Conn) : (cancelOpened s k n x).kept = s.kept := by
  unfold cancelOpened
  repeat' first | (simp; done) | split

@[simp] theorem spillReq_kept (s : State) (k : Fin 4) (h : Fin 2) (q : Ingress) (a b : Nat) : (spillReq s k h q a b).kept = s.kept := by
  simp [spillReq]

@[simp] theorem sendReq_kept (s : State) (k : Fin 4) (h : Fin 2) (i : ReqItem) : (sendReq s k h i).kept = s.kept := by
  unfold sendReq
  dsimp only
  repeat' first | (simp; done) | split

@[simp] theorem openFail_kept (s : State) (k : Fin 4) (n : Nat) (x : Conn) (c : Code) : (openFail s k n x c).kept = s.kept := by
  simp [openFail]

@[simp] theorem openPlain_kept (s : State) (k : Fin 4) (n : Nat) (x : Conn) (pki : Nat) (b : List Byte) :
    (openPlain s k n x pki b).kept = s.kept := by
  unfold openPlain
  dsimp only
  repeat' first | (simp; done) | split

@[simp] theorem relay_kept (s : State) (k : Fin 4) (n : Nat) (x : Conn) (kind : Nat) (body : List Byte) :
    (relay s k n x kind body).kept = s.kept := by
  simp [relay]

theorem takePage_kept (s : State) (p : Pattern) (mine : List Nat) (si k j : Nat) (prot : Bool) (used got : List Nat) :
    KeptSome (·.2) s.kept (takePage s p mine si k j prot used got) := by
  unfold takePage
  generalize (if prot || !s.place then _ else _ : Option Nat) = f
  cases f with
  | none => trivial
  | some f => exact takeFrames_kept ..

theorem takeStripe_kept (p : Pattern) (mine : List Nat) (si k : Nat) (prot : Bool) (got l : List Nat) (s : State) (used : List Nat) :
    KeptSome (·.1) s.kept (takeStripe p mine si k prot got l s used) := by
  induction l generalizing s used with
  | nil => rfl
  | cons j l ih =>
    unfold takeStripe
    have h := takePage_kept s p mine si k j prot used (got ++ used)
    split
    · trivial
    next f t he => rw [he] at h; rw [← (show t.kept = s.kept from h)]; exact ih ..

theorem takeSegment'_kept (p : Pattern) (mine : List Nat) (si pages : Nat) (prot : Bool) (l : List Nat) (s : State) (g : Segment) :
    KeptSome (·.1) s.kept (takeSegment' p mine si pages prot l s g) := by
  induction l generalizing s g with
  | nil => rfl
  | cons k l ih =>
    unfold takeSegment'
    extract_lets n
    have h := takeStripe_kept p mine si k prot (g.frames ++ g.parity) (List.range n ++ (if prot then [7] else [])) s []
    split
    · trivial
    next t l he => rw [he] at h; rw [← (show t.kept = s.kept from h)]; exact ih ..

theorem takeList_kept (s : State) (g : Segment) : KeptSome (·.1) s.kept (takeList s g) := by
  unfold takeList
  extract_lets n
  cases s.runIn (g.frames.headD 0 / 16384) n with
  | none => trivial
  | some f => exact takeFrames_kept ..

theorem takeSegments_kept (p : Pattern) (l : List (Nat × SegDecl)) (s : State) (gs : List Segment) :
    KeptOk (·.1) s.kept (takeSegments p l s gs) := by
  induction l generalizing s gs with
  | nil => rfl
  | cons a l ih =>
    unfold takeSegments
    extract_lets n mine
    have h := takeSegment'_kept p mine a.1 n (!a.2.wr) (List.range (ceilDiv n 7)) s (Segment.ofDecl a.2)
    split
    · trivial
    next t g he =>
    rw [he] at h
    have h2 := takeList_kept t g
    split
    · trivial
    next u g' hu => rw [hu] at h2; rw [← (show u.kept = s.kept from Eq.trans h2 h)]; exact ih ..

theorem takeSpills_kept (l : List Nat) (s : State) (fs : List Nat) : KeptSome (·.1) s.kept (takeSpills l s fs) := by
  induction l generalizing s fs with
  | nil => rfl
  | cons c l ih =>
    unfold takeSpills
    split
    · trivial
    next f he => rw [← takeFrames_kept s f 1 true]; exact ih ..

@[simp] theorem takePins_kept (s : State) (pi : Nat) (p : Pattern) : (takePins s pi p).kept = s.kept := by
  unfold takePins
  refine kept_foldl _ _ _ (fun _ _ => ?_)
  repeat' first | rfl | (simp; done) | split | (dsimp only; split)

theorem reserve_kept (s : State) (pi : Nat) (p0 : Pattern) : KeptOk (·.1) s.kept (reserve s pi p0) := by
  unfold reserve
  extract_lets m
  split
  · trivial
  split
  · trivial
  next p1 _ =>
  split
  · trivial
  split
  · trivial
  have h1 := takeSegments_kept p1 (numbered m.segments) (s.setPat pi p1) []
  split
  · trivial
  next s1 gs he =>
  rw [he] at h1
  have h2 := takeSpills_kept (spillCores p1) s1 []
  split
  · trivial
  next s2 fs hf =>
  rw [hf] at h2
  split
  · trivial
  extract_lets p
  rw [keptOk_ok, takePins_kept, setPat_kept, show s2.kept = s1.kept from h2, show s1.kept = _ from h1, setPat_kept]

@[simp] theorem answerLoad_kept (s : State) (h : LoadHeader) (c : Code) (sect entry : Nat) :
    (answerLoad s h c sect entry).kept = s.kept := by
  unfold answerLoad
  dsimp only
  repeat' first | (simp; done) | split

@[simp] theorem refuseLoad_kept (s : State) (h : LoadHeader) (e : LoadErr) : (refuseLoad s h e).kept = s.kept := by
  simp [refuseLoad]

@[simp] theorem resumeReplans_kept (s : State) : (resumeReplans s).kept = s.kept := by
  simp [resumeReplans]

@[simp] theorem finishLoad_kept (s : State) (pi : Nat) (p : Pattern) : (finishLoad s pi p).kept = s.kept := by
  simp [finishLoad]

@[simp] theorem loadProgress_kept (s : State) (pi : Nat) (p : Pattern) (h : LoadHeader) :
    (loadProgress s pi p h).kept = s.kept := by
  unfold loadProgress
  split <;> simp

@[simp] theorem giveFrame_kept (s : State) (f : Nat) : (giveFrame s f).kept = s.kept := by
  simp [giveFrame]

@[simp] theorem vacate_kept (s : State) (c : Nat) : (vacate s c).kept = s.kept := by
  simp [vacate]

@[simp] theorem freePattern_kept (s : State) (pi : Nat) (p : Pattern) : (freePattern s pi p).kept = s.kept := by
  simp [freePattern]

@[simp] theorem abandonLoad_kept (s : State) (pi : Nat) (p : Pattern) : (abandonLoad s pi p).kept = s.kept := by
  simp [abandonLoad]

end Sys2Proof.Machine
end

