-- ==== Sys2Proof/Laws/KeptHost.lean ====
section
/-! SUPPORT. What the operations on groups, low-power states, registers, sealed commands and start-up leave alone: the power state and the queue. -/

namespace Sys2Proof.Machine

@[simp] theorem setGroup_kept (s : State) (gid : Nat) (g : Option Group) : (State.setGroup s gid g).kept = s.kept := by
  simp [State.setGroup]

@[simp] theorem collCtr_kept (s : State) (gid ofs n : Nat) : (collCtr s gid ofs n).kept = s.kept := by
  simp [collCtr]

@[simp] theorem collCtr32_kept (s : State) (gid ofs n : Nat) : (collCtr32 s gid ofs n).kept = s.kept := by
  unfold collCtr32
  split <;> simp

@[simp] theorem groupEvent_kept (s : State) (gid : Nat) (g : Group) (c : Code) (rank : Nat) :
    (groupEvent s gid g c rank).kept = s.kept := by
  simp [groupEvent]

@[simp] theorem grpPut_kept (s : State) (pi seg ofs : Nat) (b : List Byte) : (grpPut s pi seg ofs b).kept = s.kept := by
  unfold grpPut
  split
  · rfl
  · split <;> simp

@[simp] theorem writeGroups_kept (s : State) (c : GroupRec) (seg vals exps : Nat) (l : List Grp) :
    (writeGroups s c seg vals exps l).kept = s.kept := by
  simp [writeGroups]

@[simp] theorem writeReplica_kept (s : State) (g : Group) (blk : Nat) (l : List Grp) :
    (writeReplica s g blk l).kept = s.kept := by
  simp [writeReplica]

@[simp] theorem writePub_kept (s : State) (g : Group) (blk bank : Nat) (l : List Grp) :
    (writePub s g blk bank l).kept = s.kept := by
  simp [writePub]

@[simp] theorem writeState_kept (s : State) (g : Group) (ofs : Nat) (l : List Int) : (writeState s g ofs l).kept = s.kept := by
  simp [writeState]

@[simp] theorem storeBank_kept (s : State) (g : Group) (blk bank : Nat) (w v : List Int) (l : List Grp) :
    (storeBank s g blk bank w v l).kept = s.kept := by
  simp [storeBank]

@[simp] theorem optimise_kept (s : State) (gid : Nat) (g : Group) (blk : Nat) (t : Sum) :
    (optimise s gid g blk t).kept = s.kept := by
  simp [optimise]

@[simp] theorem keepBlock_kept (s : State) (g : Group) (blk : Nat) : (keepBlock s g blk).kept = s.kept := by
  simp [keepBlock]

@[simp] theorem initBlock_kept (g : Group) (s : State) (blk : Nat) : (initBlock g s blk).kept = s.kept := by
  unfold initBlock
  dsimp only
  repeat' first | (simp; done) | split

@[simp] theorem makeRouted_kept (s : State) (i : LinkId) : (makeRouted s i).kept = s.kept := by
  unfold makeRouted
  split <;> simp

@[simp] theorem sendModule_kept (s : State) (gid node slot n : Nat) (e : Emit) : (sendModule s gid node slot n e).kept = s.kept := by
  unfold sendModule
  repeat' first | rfl | (simp; done) | split

@[simp] theorem sendMember_kept (s : State) (gid : Nat) (g : Group) (r n : Nat) (e : Emit) :
    (sendMember s gid g r n e).kept = s.kept := sendModule_kept ..

@[simp] theorem sendRoster_kept (s : State) (gid : Nat) (c : GroupRec) (i n : Nat) (e : Emit) :
    (sendRoster s gid c i n e).kept = s.kept := by
  unfold sendRoster
  split <;> simp

@[simp] theorem sendChunk_kept (s : State) (gid : Nat) (g : Group) (r w x : Nat) (c : Chunk) (e : Emit) :
    (sendChunk s gid g r w x c e).kept = s.kept := by
  simp [sendChunk]

@[simp] theorem sendShard_kept (s : State) (gid : Nat) (g : Group) (inc : Bool) : (sendShard s gid g inc).kept = s.kept := by
  simp [sendShard]

@[simp] theorem reportIncomplete_kept (s : State) (gid : Nat) (g : Group) : (reportIncomplete s gid g).1.kept = s.kept := by
  unfold reportIncomplete
  split <;> simp

@[simp] theorem blockUpdated_kept (s : State) (gid : Nat) (g : Group) (blk : Nat) :
    (blockUpdated s gid g blk).1.kept = s.kept := by
  unfold blockUpdated
  dsimp only
  repeat' first | (simp; done) | split

@[simp] theorem tryFold_kept (s : State) (gid : Nat) (g : Group) (blk : Nat) (late : Bool) :
    (tryFold s gid g blk late).1.kept = s.kept := by
  unfold tryFold
  repeat' first | (simp; done) | split

@[simp] theorem takePartial_kept (s : State) (gid : Nat) (g : Group) (cstep blk node : Nat) (t : Sum) (inc : Bool) :
    (takePartial s gid g cstep blk node t inc).1.kept = s.kept := by
  unfold takePartial
  repeat' first | (simp; done) | split

@[simp] theorem giveSum_kept (s : State) (gid : Nat) (g : Group) (blk : Nat) (t : Option Sum) (inc : Bool) :
    (giveSum s gid g blk t inc).1.kept = s.kept := by
  unfold giveSum
  repeat' first | (simp; done) | split

@[simp] theorem trySum_kept (s : State) (gid : Nat) (g : Group) (blk : Nat) (late : Bool) :
    (trySum s gid g blk late).1.kept = s.kept := by
  unfold trySum
  dsimp only
  repeat' first | (simp; done) | split

@[simp] theorem takeContrib_kept (s : State) (gid : Nat) (g : Group) (cstep blk rank : Nat) (t : Sum) :
    (takeContrib s gid g cstep blk rank t).1.kept = s.kept := by
  unfold takeContrib
  split <;> simp

@[simp] theorem contribute_kept (gid : Nat) (a : State × Group) (blk : Nat) : (contribute gid a blk).1.kept = a.1.kept := by
  unfold contribute
  dsimp only
  repeat' first | (simp; done) | split

@[simp] theorem putGroup_kept (gid : Nat) (r : State × Group) : (putGroup gid r).kept = r.1.kept := by
  simp [putGroup]

@[simp] theorem chunkIn_kept (s : State) (gid : Nat) : (chunkIn s gid).kept = s.kept := by
  simp [chunkIn]

@[simp] theorem blockLate_kept (gid : Nat) (a : State × Group) (blk : Nat) : (blockLate gid a blk).1.kept = a.1.kept := by
  unfold blockLate
  dsimp only
  repeat' first | (simp; done) | split

@[simp] theorem initBells_kept (s : State) (gid : Nat) (g : Group) : (initBells s gid g).kept = s.kept := by
  unfold initBells
  refine kept_foldl _ _ _ (fun s i => ?_)
  split
  · rfl
  next e _ =>
    have h := ctrInit_kept s g.cfg.pat (s.pat g.cfg.pat) (segAddr g.cfg.cseg (g.cfg.bell i)) 0 e.nCore 0 false (some (gid, i))
    split
    next he => rw [he] at h; exact h
    · rfl

@[simp] theorem writeStatus_kept (s : State) (g : Group) : (writeStatus s g).kept = s.kept := by
  simp [writeStatus]

@[simp] theorem newRound_kept (s : State) (gid : Nat) (g : Group) : (newRound s gid g).1.kept = s.kept := by
  simp [newRound]

@[simp] theorem sendCommit_kept (s : State) (gid : Nat) (g : Group) : (sendCommit s gid g).kept = s.kept := by
  simp [sendCommit]

@[simp] theorem sendAbort_kept (s : State) (gid : Nat) (g : Group) : (sendAbort s gid g).kept = s.kept := by
  simp [sendAbort]

@[simp] theorem castGo_kept (gid n : Nat) (a : State × Group) : (castGo gid n a).1.kept = a.1.kept := by
  induction n generalizing a with
  | zero => rfl
  | succ n ih => unfold castGo; split <;> simp [ih]

@[simp] theorem castAll_kept (gid : Nat) (a : State × Group) : (castAll gid a).1.kept = a.1.kept := by
  simp [castAll]

@[simp] theorem releaseHold_kept (s : State) (gid : Nat) (g : Group) : (releaseHold s gid g).kept = s.kept := by
  unfold releaseHold
  split <;> simp

@[simp] theorem updateDone_kept (s : State) (gid : Nat) (g : Group) : (updateDone s gid g).kept = s.kept := by
  unfold updateDone
  repeat' first | (simp; done) | split

@[simp] theorem castBlock_kept (a : State × Group) (blk : Nat) : (castBlock a blk).1.kept = a.1.kept := by
  unfold castBlock
  dsimp only
  repeat' first | (simp; done) | split

@[simp] theorem markAgain_kept (s : State) (pi : Nat) : (markAgain s pi).kept = s.kept := by
  unfold markAgain
  split <;> simp

@[simp] theorem dropGroup_kept (s : State) (gid : Nat) (g : Group) : (dropGroup s gid g).kept = s.kept := by
  simp [dropGroup]

@[simp] theorem pullNext_kept (s : State) (gid : Nat) (g : Group) : (pullNext s gid g).kept = s.kept := by
  unfold pullNext
  repeat' first | (simp; done) | split

@[simp] theorem hangReduction_kept (s : State) (pd : Fin 4) (gid blk : Nat) : (hangReduction s pd gid blk).kept = s.kept := by
  unfold hangReduction
  repeat' first | (simp; done) | split

@[simp] theorem formGroup_kept (s : State) (c : GroupRec) : (formGroup s c).kept = s.kept := by
  unfold formGroup
  dsimp only
  repeat' first | (simp; done) | split

@[simp] theorem selfRefresh_kept (s : State) : (selfRefresh s).kept = s.kept := by
  simp [selfRefresh]

@[simp] theorem enterL3_kept (s : State) (auto : Bool) : (enterL3 s auto).kept = s.kept := by
  simp [enterL3]

@[simp] theorem startWake_kept (s : State) : (startWake s).kept = s.kept := by
  unfold startWake
  split <;> simp

@[simp] theorem wakeCore_kept (s : State) (pi ri : Nat) (m : Manifest) (c : Nat) (img : CoreImage) :
    (wakeCore s pi ri m c img).kept = s.kept := by
  unfold wakeCore
  split <;> simp

@[simp] theorem wakeRegion_kept (s : State) (pi ri : Nat) (p : Pattern) (r : Region) :
    (wakeRegion s pi ri p r).kept = s.kept := by
  unfold wakeRegion
  try dsimp only
  repeat' first
    | rfl
    | (simp; done)
    | split
    | (refine (kept_foldl _ _ _ (fun _ _ => ?_)).trans ?_)
    | (dsimp only; split)
    | (intro; done)

@[simp] theorem wakeCores_kept (s : State) : (wakeCores s).kept = s.kept := by
  unfold wakeCores
  refine kept_foldl _ _ _ (fun _ _ => ?_)
  repeat' first | rfl | (simp; done) | split | (dsimp only; split)

@[simp] theorem parkRise_kept (s : State) : (parkRise s).kept = s.kept := by
  unfold parkRise
  split <;> simp

@[simp] theorem parkFall_kept (s : State) : (parkFall s).kept = s.kept := by
  simp [parkFall]

@[simp] theorem pwrReqWrite_kept (s : State) (v : W32) : (pwrReqWrite s v).kept = s.kept := by
  unfold pwrReqWrite
  dsimp only
  repeat' first | (simp; done) | split

@[simp] theorem latchShadow_kept (s : State) (v : View) (ofs : Nat) (hi : W32) : (latchShadow s v ofs hi).kept = s.kept := by
  simp [latchShadow]

@[simp] theorem denyHost_kept (s : State) : (denyHost s).kept = s.kept := by
  simp [denyHost]

@[simp] theorem badHost_kept (s : State) : (badHost s).kept = s.kept := by
  simp [badHost]

@[simp] theorem readCtr_kept (s : State) (v : View) (ofs b rel : Nat) (x : W64) : (readCtr s v ofs b rel x).1.kept = s.kept := by
  unfold readCtr
  repeat' first | (simp; done) | split

@[simp] theorem readLive_kept (s : State) (v : View) (ofs b rel : Nat) (isHeld : Bool) :
    (readLive s v ofs b rel isHeld).1.kept = s.kept := by
  unfold readLive
  repeat' first | (simp; done) | split

@[simp] theorem readWord_kept (s : State) (v : View) (at_ : W32) : (readWord s v at_).1.kept = s.kept := by
  unfold readWord
  dsimp only
  repeat' first | (simp; done) | split

@[simp] theorem irqStatusWrite_kept (s : State) (v : W32) : (irqStatusWrite s v).kept = s.kept := by
  unfold irqStatusWrite
  split <;> simp

@[simp] theorem telCtrlWrite_kept (s : State) (v : W32) : (telCtrlWrite s v).kept = s.kept := by
  unfold telCtrlWrite
  dsimp only
  repeat' first | (simp; done) | split

@[simp] theorem telTailWrite_kept (s : State) (v : W32) : (telTailWrite s v).kept = s.kept := by
  unfold telTailWrite
  split <;> simp

@[simp] theorem sendPending_kept (s : State) (n : Nat) : (sendPending s n).kept = s.kept := by
  unfold sendPending
  split <;> simp

@[simp] theorem sendAllPending_kept (s : State) : (sendAllPending s).kept = s.kept := by
  simp [sendAllPending]

@[simp] theorem msixWrite_kept (s : State) (i : Nat) (v : W32) : (msixWrite s i v).kept = s.kept := by
  simp [msixWrite]

@[simp] theorem stageReg_kept (s : State) (ofs : Nat) (v : W32) : (stageReg s ofs v).kept = s.kept := by
  simp [stageReg]

@[simp] theorem strobe_kept (s : State) (g : Nat) : (strobe s g).kept = s.kept := by
  unfold strobe
  dsimp only
  repeat' first | (simp; done) | split

@[simp] theorem updStrobe_kept (s : State) (v : View) (w : Nat) : (updStrobe s v w).kept = s.kept := by
  unfold updStrobe
  dsimp only
  repeat' first | (simp; done) | split

@[simp] theorem applyRing_kept (s : State) (l : List (Nat × W32)) : (applyRing s l).kept = s.kept := by
  simp [applyRing]

@[simp] theorem applySst_kept (s : State) (h : Fin 2) (l : List (Nat × W32)) : (applySst s h l).kept = s.kept := by
  simp [applySst]

@[simp] theorem cfgRange_kept (s : State) (b g : Nat) : (cfgRange s b g).kept = s.kept := by
  simp [cfgRange]

@[simp] theorem applyThresh_kept (s : State) (k : Fin 4) (l : List (Nat × W32)) : (applyThresh s k l).kept = s.kept := by
  unfold applyThresh
  split <;> simp

@[simp] theorem applyAddr_kept (s : State) (p : Fin 8) (l : List (Nat × W32)) : (applyAddr s p l).kept = s.kept := by
  unfold applyAddr
  dsimp only
  repeat' first | (simp; done) | split

@[simp] theorem applyGroup_kept (s : State) (b g : Nat) (l : List (Nat × W32)) : (applyGroup s b g l).kept = s.kept := by
  unfold applyGroup
  repeat' first | (simp; done) | split

@[simp] theorem snapBlock_kept (s : State) (b : Nat) : (snapBlock s b).kept = s.kept := by
  simp [snapBlock]

@[simp] theorem blkSnap_kept (s : State) (b : Nat) : (blkSnap s b).kept = s.kept := by
  unfold blkSnap
  repeat' first | (simp; done) | split

@[simp] theorem flashStart_kept (s : State) (dev : Fin 2) (erase : Bool) : (flashStart s dev erase).kept = s.kept := by
  unfold flashStart
  dsimp only
  repeat' first | (simp; done) | split

@[simp] theorem flashPut_kept (s : State) (dev : Fin 2) (a : Nat) (l : List Byte) : (flashPut s dev a l).kept = s.kept := by
  unfold flashPut
  split <;> simp

@[simp] theorem flashDone_kept (s : State) (timeout : Bool) : (flashDone s timeout).kept = s.kept := by
  unfold flashDone
  split <;> simp

@[simp] theorem ringSealed_kept (s : State) : (ringSealed s).kept = s.kept := by
  unfold ringSealed
  split <;> simp

@[simp] theorem ringAttest_kept (s : State) : (ringAttest s).kept = s.kept := by
  unfold ringAttest
  split <;> simp

@[simp] theorem ignoreWrite_kept (s : State) : (ignoreWrite s).kept = s.kept := by
  simp [ignoreWrite]

@[simp] theorem bar2Write_kept (s : State) (o : Nat) (v : W32) : (bar2Write s o v).kept = s.kept := by
  unfold bar2Write
  dsimp only
  repeat' first | (simp; done) | split

@[simp] theorem hostWrite_kept (s : State) (rel : Nat) (v : W32) : (hostWrite s rel v).kept = s.kept := by
  unfold hostWrite
  repeat' first | (simp; done) | split

@[simp] theorem portRstWrite_kept (s : State) (k : Nat) (v : W32) : (portRstWrite s k v).kept = s.kept := by
  unfold portRstWrite
  dsimp only
  repeat' first | (simp; done) | split

@[simp] theorem privWrite_kept (s : State) (b rel : Nat) (v : W32) : (privWrite s b rel v).kept = s.kept := by
  unfold privWrite
  repeat' first | (simp; done) | split

@[simp] theorem writeWord_kept (s : State) (vw : View) (at_ v : W32) : (writeWord s vw at_ v).kept = s.kept := by
  unfold writeWord
  dsimp only
  repeat' first | (simp; done) | split

@[simp] theorem sealedEnd_kept (s : State) (op : Nat) (code : Code) (data : List Byte) (takeover : Bool) :
    (sealedEnd s op code data takeover).kept = s.kept := by
  unfold sealedEnd
  dsimp only
  repeat' first | (simp; done) | split

theorem sealedRun_kept (s : State) (c : Sealed) (op : Nat) (f : SealedEffect) (h : KeptOk (·.1) s.kept (f s)) :
    (sealedRun s c op f).kept = s.kept := by
  unfold sealedRun
  split
  · rfl
  split
  · simp
  · split
    · simp
    next he => rw [he] at h; rw [sealedEnd_kept]; exact h

theorem keyInstall_kept (p : KeyPayload) (s : State) : KeptOk (·.1) s.kept (keyInstall p s) := by
  unfold keyInstall
  repeat' first | rfl | trivial | split

theorem collForm_kept (g : GroupRec) (s : State) : KeptOk (·.1) s.kept (collForm g s) := by
  unfold collForm
  split
  · trivial
  · exact formGroup_kept s g

theorem regWrite_kept (l : List (W32 × W32)) (s : State) : KeptOk (·.1) s.kept (regWrite l s) := by
  unfold regWrite
  split
  · exact kept_foldl _ _ _ (fun s a => by simp)
  · trivial

theorem regRead_kept (l : List W32) (s : State) : KeptOk (·.1) s.kept (regRead l s) :=
  kept_foldl2 _ l (s, []) (fun s a => by simp)

@[simp] theorem startUnload_kept (s : State) (pi : Nat) (p : Pattern) : (startUnload s pi p).kept = s.kept := by
  unfold startUnload
  dsimp only
  repeat' first | (simp; done) | split

theorem patternUnload_kept (hash : BitVec 384) (s : State) : KeptOk (·.1) s.kept (patternUnload hash s) := by
  unfold patternUnload
  split
  · rfl
  · split
    · rfl
    · rw [keptOk_ok]
      split <;> simp

@[simp] theorem cutFlash_kept (s : State) : (cutFlash s).kept = s.kept := by
  unfold cutFlash
  split <;> simp

@[simp] theorem failStart_kept (s : State) (code : Code) (log : Bool) : (failStart s code log).kept = s.kept := by
  unfold failStart
  split <;> simp

@[simp] theorem imageFails_kept (s : State) (n : Fin 2) (code : Code) : (imageFails s n code).kept = s.kept := by
  unfold imageFails
  dsimp only
  repeat' first | (simp; done) | split

@[simp] theorem inForce_kept (s : State) (n : Nat) (i : ChartImage) (la lb : Bool) : (inForce s n i la lb).kept = s.kept := by
  simp [inForce]

@[simp] theorem vaultFails_kept (s : State) (v : Nat) : (vaultFails s v).kept = s.kept := by
  simp [vaultFails]

@[simp] theorem siteEvent_kept (s : State) (t : Nat) (c : Code) : (siteEvent s t c).kept = s.kept := by
  simp [siteEvent]

@[simp] theorem judgeSite_kept (marked failed : List Nat) (s : State) (t : Nat) :
    (judgeSite marked failed s t).kept = s.kept := by
  unfold judgeSite
  dsimp only
  repeat' first | (simp; done) | split

@[simp] theorem reconcile_kept (s : State) (marked : List Nat) (t : SelfTest) (badStacks : List Nat) : (reconcile s marked t badStacks).kept = s.kept := by
  unfold reconcile
  dsimp only
  repeat' first | (simp; done) | split

@[simp] theorem startLinks_kept (s : State) : (startLinks s).kept = s.kept := by
  simp [startLinks]

theorem seatsEnd_kept (s : State) :
    (if s.diesIn.length < 8 then failStart s .deviceFailed false
     else if areasFit { s with helm := { s.helm with areaDies := s.diesIn } } then
       startLinks { s with helm := { s.helm with areaDies := s.diesIn } }
     else failStart { s with helm := { s.helm with areaDies := s.diesIn } } .resvShort true).kept = s.kept := by
  split
  · simp
  · split <;> simp

@[simp] theorem reconcileStage_kept (s : State) (badStacks : List Nat) : (reconcileStage s badStacks).kept = s.kept := by
  unfold reconcileStage
  split
  · exact (seatsEnd_kept _).trans (reconcile_kept ..)
  · rfl

@[simp] theorem tapTake_kept (s : State) (t : TapInstr) (drive : Bool) : (tapTake s t drive).kept = s.kept := by
  simp [tapTake]

end Sys2Proof.Machine
end

