-- ==== Sys2Proof/Tests/Base.lean ====
section
/-! SUPPORT. Small states for the tests and the witnesses. -/

namespace Sys2Proof.Tests

open Sys2Proof Sys2Proof.Machine

/-- The state an answer leads to; the reset state where it stops. -/
def after (o : Host.Outcome State Fault Refusal) : State := match o with | .next t => t | .fault _ => State.reset | .refused _ => State.reset

/-- The answer is this next state. -/
def ends (o : Host.Outcome State Fault Refusal) (t : State) : Bool :=
  match o with | .next u => decide (u = t) | .fault _ => false | .refused _ => false

/-- The answer is some next state. -/
def goesOn (o : Host.Outcome State Fault Refusal) : Bool :=
  match o with | .next _ => true | .fault _ => false | .refused _ => false

/-- The state after reset with a challenge that can be computed with. -/
def base : State := { State.reset with lode := { State.reset.lode with challenge := 0 } }

/-- A RUNNING core in a program of eight words, at word 2. -/
def run : Core := { Core.init with st := .running, progLen := 8, pos := 2 }

/-- The state with core 0 as given. -/
def one (k : Core) : State := base.setCore 0 k

/-- Core `c` is STOPPED by engine `eng` with this kind, code and position, and its engines are quiet. -/
def stopped (t : State) (c eng : Nat) (kind : Kind) (code : Code) (pos : Nat) : Bool :=
  decide ((t.core c).st = .stopped) && (t.core c).locks.isEmpty && (t.core c).bhold.isNone
    && decide ((t.core c).queues = Vector.replicate 5 EngineQ.reset) && decide ((t.core c).banks = Vector.replicate 2 Bank.reset)
    && (match (t.core c).fault with
        | none => false
        | some f => decide (f.core = c ∧ f.engine = eng ∧ f.kind = kind ∧ f.code = code ∧ f.pos = pos))

/-! ### Images and Patterns -/

/-- A core image with nothing declared and a program of eight NOPs. -/
def coreImage : CoreImage :=
  { program := List.replicate 8 (seqWord 1 8 0), entry := 0, restart := 1, sems := [], queueWords := [], ringWords := [], scratch := [] }

/-- A region of two cores, two wide, at (1, 1). -/
def regionImage : RegionImage := { width := 2, height := 1, originX := 1, originY := 1, cores := [coreImage, coreImage] }

/-- Parameters with every timeout off. -/
def params : PatParams :=
  { waitLog2 := 0, stepmask := 1, bucketUnit := 0, dispatchAddr := 0, nlhg := 1, kvpitch := 256, inrow := 64, stepinSeg := 0,
    stepinOfs := 0, stepoutSeg := 0, stepoutOfs := 32768 }

/-- A manifest of one region and one writable segment of one page. -/
def manifest : Manifest :=
  { hash := 7, params := params, buckets := [[1, 2]], regions := [regionImage],
    segWords := [65536 + 3 * 2 ^ 40], tensorWords := [], parts := [] }

/-- The segment, in frame 5 of vault 0, not protected. -/
def segment : Segment :=
  Segment.seal { length := 65536, rd := true, wr := true, pinned := false, pinix := 0, frames := [5], parity := [], lists := [], pairN := 0 }

/-- The region placed on cores 0 and 1. -/
def region : Region := { image := regionImage, cores := [0, 1], arrived := [], stopped := false }

/-- A resident Pattern of that region and segment. -/
def pattern : Pattern :=
  { manifest := manifest, resident := true, helm := 0, regions := [region], segs := [segment], spills := [], ptr := 0, sst := [], nextSeq := 9,
    faulted := false, unloading := false, partsDone := [], updateHold := [] }

/-- The state with that Pattern resident as number 0. -/
def resident : State := base.setPat 0 pattern

/-- A core of the Pattern. -/
def runP : Core := { run with pat := some 0 }

/-- The Pattern resident, core 0 as given. -/
def oneP (k : Core) : State := resident.setCore 0 k

/-- The Chart's configuration record, with PLACE and MEND. -/
def config : ConfigRec :=
  { nodeId := 3, slot := 0, linkPrev := false, place := true, mend := true, linkRev := 1, arithRev := 1, minep4 := 0, minep5 := 0,
    pcapDef := 2000, rqLimit := 64, ingThresh := 0, resvTop := 64, sst := [], ports := List.replicate 8 PortAddr.init, reservedOk := true }

/-- A Chart image that passes its checks. -/
def chart : ChartImage :=
  { family := 0x4C4D, member := 0x9032, gen := 1, totlen := 0, config := config, badSites := [], badFrames := [], patterns := [7],
    certs := [], signers := 15, chartHash := 1, fwHash := 2, devid := 3, opid := 4 }

/-- The state with that Chart in force. -/
def charted (s : State) : State := { s with chart := some chart }

/-- An NMU descriptor: its first 256 bits, and the 384 bits that it repeats complemented. -/
def nmuDesc (lo hi : Nat) : Nat := lo + hi * 2 ^ 256 + (2 ^ 384 - 1 - hi) * 2 ^ 640

/-- A word and its complement. -/
def pair (n w : Nat) : Nat := w + (2 ^ n - 1 - w) * 2 ^ n

end Sys2Proof.Tests
end

