-- ==== Sys2Proof/Tests/Witness5.lean ====
section
/-! SUPPORT. States that meet the premises of the statements about events, sealed commands and registers, each with what its clause
concludes there. -/

namespace Sys2Proof.Tests

set_option Elab.async false

open Sys2Proof Sys2Proof.Machine

/-- A rejection that Helm A's block reports. -/
def aRec : EventRec := mkRec 2 .rejected .badDesc

/-- Helm A's block with a record that waits and three lost before it, and a folding window of code 0x61F. -/
def buffered (count : Nat) : State :=
  base.setBuf 2 { recs := [aRec], lost := 3, wins := [(0x61F, some { count := count, last := aRec })] }

/-- No Lodestar is active. -/
def unled : State := { base with lode := { base.lode with activeOk := false, standbyOk := false } }

/-- One Lodestar alone. -/
def alone : State := { base with lode := { base.lode with standbyOk := false } }

theorem witness_EventsAreLoggedInOrder :
    let s := buffered 300
    let t := after (exec (.eventRecordArrival 2) s)
    let h := after (exec .heartbeat base)
    let u := after (exec (.lodestarTakeover false) base)
    let x := after (exec (.lodestarSilence 1) unled)
    s.lode.activeOk = true ∧ (s.buf 2).recs = [aRec]
    ∧ t.log.evNext = 1 ∧ Sparse.get none t.log.log 0 = some { aRec with lost := 3 } ∧ (t.buf 2).recs = [] ∧ t.host.irqBits.getLsbD 3 = true
    ∧ Sparse.get none (s.buf 2).wins 0x61F = some { count := 300, last := aRec }
    ∧ ((after (exec (.foldWindowEnd 2 0x61F) s)).buf 2).recs = [aRec, { aRec with repeats := 300 }]
    ∧ Sparse.get none ((buffered 0).buf 2).wins 0x61F = some { count := 0, last := aRec }
    ∧ ((after (exec (.foldWindowEnd 2 0x61F) (buffered 0))).buf 2).wins = []
    ∧ (after (exec .challengeExpiry base)).host.chalSeq = 1 ∧ (after (exec .challengeExpiry base)).drawn = 2
    ∧ base.lode.standbyOk = true ∧ h.out = [.heartbeat] ∧ h.lode.beatEvseq = 0xFFFFFFFF
    ∧ u.lode.active = 1 ∧ u.lode.standbyOk = false ∧ .pcieTrain ∈ u.out ∧ u.log.evNext = 1
    ∧ (after (exec .lodestarStandbyLost base)).lode.standbyOk = false
    ∧ alone.lode.activeOk = true ∧ alone.lode.standbyOk = false ∧ ends (exec .lodestarStandbyLost alone) alone = true
    ∧ ends (exec (.lodestarTakeover false) alone) alone = true ∧ (after (exec (.lodestarTakeover true) alone)).lode.activeOk = false
    ∧ ends (exec (.lodestarSilence 3) base) base = true ∧ unled.lode.activeOk = false
    ∧ x.lode.silent.get 1 = true ∧ (x.pds.get 1).closed = true := by decide +kernel

/-- An encrypted sealed command of an operation by signer 0 for the device 3, with this challenge (R402). -/
def sealedWith (op challenge : Nat) : Sealed :=
  { hdr := BitVec.ofNat 1024 (0x53434C58 + 2 ^ 32 + op * 2 ^ 40 + 2 ^ 48 + challenge * 2 ^ 128 + 3 * 2 ^ 384), len := 128 + sigLen 1,
    block := BitVec.ofNat 128 (0x53474C44 + 2 ^ 32), rsaOk := true, slhOk := true, openOk := true }

/-- One that passes checks 1 to 7 where the challenge is 0. -/
def good (op : Nat) : Sealed := sealedWith op 0

/-- One that fails check 2. -/
def stale : Sealed := sealedWith 1 1

/-- The plaintext of a KEY_INSTALL, and its fields. -/
def keyWord (keyid : Nat) : BitVec 896 := BitVec.ofNat 896 (keyid + 2 ^ 16 + 5 * 2 ^ 128)
def payload (keyid : Nat) : KeyPayload := { keyid := keyid, pki := 1, hybrid := false, reservedOk := true, x25519 := 5, mlkem := 0 }

/-- In SERVICE, with the Chart in force and key 9 in slot 0. -/
def inService : State :=
  { charted resident with
    start := { base.start with stage := 6 }, keys := [{ slot := 0, payload := payload 9 }],
    lode := { base.lode with bells := [(0, true)] } }

theorem witness_SealedCommandsTakeEffectOnce :
    let s := inService
    let k := after (exec (.keyInstall (good 1) (keyWord 8)) s)
    let d := after (exec (.keyInstall (good 1) (keyWord 9)) s)
    let x := after (exec (.keyInstall stale (keyWord 8)) s)
    let w := after (exec (.regWrite (good 3) [(BitVec.ofNat 32 0x22007C, 5)]) s)
    let n := after (exec (.regWrite (good 3) [(BitVec.ofNat 32 0x22007C, 5), (0x100018, 1)]) s)
    let r := after (exec (.regRead (good 4) [0]) s)
    let u := after (exec (.patternUnload (good 7) 7) s)
    let c := after (exec (.warmRestart (good 8) 1) s)
    let f := { s with refLost := true, start := { s.start with stage := 7 } }
    let q := after (exec (.warmRestart (good 8) 1) f)
    let l := after (exec (.lodestarSwitch (good 9)) s)
    let m := { s with lode := { s.lode with standbyOk := false } }
    let a := { s with host := { s.host with attBusy := true } }
    s.lode.activeOk = true ∧ s.lode.bells.head?.map (·.2) = some true ∧ sealedCheck s stale 1 = some .scStale
    ∧ (∀ op ∈ List.range 10, sealedCheck s (good op) op = none)
    ∧ (keyPayloadOf (keyWord 0)).keyid = 0 ∧ stale.opcode = 1
    ∧ x.keys = s.keys ∧ x.host.result = resultBytes 1 .scStale false [] ∧ x.lode.bells = []
    ∧ (List.range 256).find? (fun n => !s.keys.any (fun k => decide (k.slot = n))) = some 1
    ∧ k.keys = [{ slot := 0, payload := payload 9 }, { slot := 1, payload := payload 8 }] ∧ d.keys = s.keys
    ∧ d.host.result = resultBytes 1 .keyExists false []
    ∧ (after (exec (.keyRemove (good 2) 9) s)).keys = []
    ∧ Sparse.get none w.reg.staged 0x22007C = some 5 ∧ n.reg.staged = []
    ∧ regWritable 0x100018 = false ∧ r.host.result.length = 20
    ∧ s.patOfHash 7 = some 0 ∧ s.pat 0 = some pattern ∧ (u.pat 0).map (·.unloading) = some true
    ∧ c.helm.pats = [] ∧ c.keys = [] ∧ c.start.fast = true ∧ c.start.stage = 0
    ∧ sealedCheck f (good 8) 8 = none ∧ q.start = f.start ∧ q.refLost = true ∧ l.lode.active = 1 ∧ l.keys = s.keys
    ∧ sealedCheck m (good 9) 9 = none ∧ (after (exec (.lodestarSwitch (good 9)) m)).host.result = resultBytes 9 .scNostandby false []
    ∧ s.host.attBusy = false ∧ (after (exec .attestationRequest s)).host.attBusy = true
    ∧ (after (exec .attestationRequest a)).host.ignored = true
    ∧ a.chart = some chart ∧ (after (exec .attestationDone a)).host.attBusy = false ∧ (after (exec .attestationDone a)).lode.rseq = 1 := by
  decide +kernel

theorem witness_InterruptStatusIsClearedBySeq :
    let s := raiseIrq (raiseIrq base 15) 3
    let t := after (exec (.irqStatusClear 0x00028000) s)
    s.host.irqSeq = 2 ∧ s.host.irqBits = 0x8008 ∧ (0x00028000 : W32).toNat / 2 ^ 16 = s.host.irqSeq.toNat
    ∧ t.host.irqSeq = 2 ∧ t.host.irqBits = 0x0008
    ∧ (0x0001FFFF : W32).toNat / 2 ^ 16 ≠ s.host.irqSeq.toNat ∧ ends (exec (.irqStatusClear 0x0001FFFF) s) s = true := by decide +kernel

/-- In service with a write staged in every group. -/
def staged : State :=
  { base with
    start := { base.start with stage := 6 },
    reg := { base.reg with staged := [(0x100010, some 1), (0x220000, some 2), (0x420004, some 3), (0x421000, some 4), (0x720004, some 5),
      (0x721100, some 6)] } }

/-- A strobe of group 5 that has not reached port die 0. -/
def strobing : State := { staged with reg := { staged.reg with strobed := [(4, 5, [(0x420004, 0x00010001)])] } }

/-- A ring of 64 records that is armed, with 10 unread. -/
def ring (armed : Bool) (size : Nat) : State :=
  { base with host := { base.host with telEnable := armed, telSize := size, telHead := 10, telTail := 0 } }

theorem witness_RegistersAreStagedStrobedAndCopied :
    let s := staged
    base.stagedFor 0 1 = [] ∧ ends (exec (.strobeTelemetry .host) base) base = true
    ∧ s.stagedFor 0 1 = [(0x100010, 1)] ∧ (after (exec (.strobeTelemetry .host) s)).reg.strobed = [(1, 0, [(0x100010, 1)])]
    ∧ (after (exec (.strobeSlotTable .host) s)).host.privDeny = 1
    ∧ s.stagedFor 4 2 = [(0x220000, 2)]
    ∧ (after (exec (.strobeSlotTable .priv) s)).reg.strobed = [(2, 4, [(0x220000, 2)]), (3, 4, [(0x220000, 2)])] := by decide +kernel

theorem witness_RegistersAreStagedStrobedAndCopied_ports :
    let s := staged
    let g := strobing
    s.stagedFor 5 4 = [(0x420004, 3)] ∧ s.stagedFor 5 7 = [(0x720004, 5)]
    ∧ (7, 5, [(0x720004, 5)]) ∈ (after (exec (.strobeIngThresh .priv) s)).reg.strobed
    ∧ s.stagedFor 8 4 = [(0x421000, 4)] ∧ s.stagedFor 15 7 = [(0x721100, 6)]
    ∧ (after (exec (.strobePortAddr .priv 7) s)).reg.strobed = [(7, 15, [(0x721100, 6)])]
    ∧ g.reg.strobed.find? (fun e => decide (e.1 = 4 ∧ e.2.1 = 5)) = some (4, 5, [(0x420004, 0x00010001)])
    ∧ ((after (exec (.stagedApply 4 5) g)).pd 0).threshB = 1 ∧ threshOk 1032 = true ∧ threshOk 1033 = false ∧ threshOk 0 = false := by
  decide +kernel

theorem witness_RegistersAreStagedStrobedAndCopied_read :
    let s := staged
    let p := { s with reg := { s.reg with ctrs := [(blockBase 4 + 0x1424, 5)] } }
    let c64 : W32 := BitVec.ofNat 32 (0x200000 + 0x110)
    blockOf (c64.toNat / 4 * 4) = some 2 ∧ s.serves 2 = true ∧ ctrBits 2 0x110 = 64 ∧ timeDriven 2 0x110 = false
    ∧ s.recordOff 2 0x110 = false ∧ (after (exec (.c64LoRead .host c64) s)).out = [.readData 0]
    ∧ blockOf 0x220000 = some 2 ∧ (s.privReg 2 0x20000).isSome = true
    ∧ (after (exec (.bar0PrivAccess (BitVec.ofNat 32 0x220000) false) s)).out = [.readData 0]
    ∧ (after (exec (.bar0PrivAccess (BitVec.ofNat 32 0x220000) true) s)).host.privDeny = 1
    ∧ s.serves 31 = true ∧ s.serves 0 = true ∧ (after (exec (.blkSnap 0) s)).out.length = 31
    ∧ ctrBits 4 0x1424 ≠ 0 ∧ Sparse.wf 0 p.reg.ctrs = true ∧ Sparse.wf 0 p.reg.held = true ∧ (snapBlock p 4).ctrHeld 4 0x1424 = 5
    ∧ (ring false 11).host.telN = 0 ∧ ends (exec (.telEnableSet 0x10001) (ring false 11)) (ring false 11) = true
    ∧ (ring false 12).host.telN = 64 ∧ (after (exec (.telEnableSet 0x10001) (ring false 12))).host.telEnable = true
    ∧ (after (exec (.telEnableClear 0x10000) (ring true 12))).host.telEnable = false
    ∧ ((ring true 12).host.telHead - 10).toNat = 0 ∧ (after (exec (.telTailWrite 10) (ring true 12))).host.telTail = 10
    ∧ (64 : Nat) < ((ring true 12).host.telHead - 11).toNat
    ∧ (after (exec (.telTailWrite 11) (ring true 12))).host.badAccess = 1 := by decide +kernel

/-- In SERVICE with image 0 in force, and a page's bytes in the buffer. -/
def flashing : State :=
  { base with
    start := { base.start with stage := 6, image := 0 },
    host := { base.host with flAddr := 0x12345, progBuf := [(0, 0x5A)] } }

/-- Page 0x12000 of device 0 is being programmed over a byte of another page. -/
def programming : State :=
  { flashing with
    flashA := [(0x11FFF, 1)], host := { flashing.host with flBusy := true },
    flashOp := some { dev := 0, erase := false, addr := 0x12000, data := [(0, 0x5A)] } }

theorem witness_FlashOperationsChangeOnlyTheirBytes :
    let s := flashing
    s.host.flBusy = false ∧ s.flashOp = none ∧ s.flashTakes 1 = true ∧ s.flashTakes 0 = false
    ∧ (after (exec (.flashErase 1) s)).flashOp = some { dev := 1, erase := true, addr := 0x10000, data := [] }
    ∧ (after (exec (.flashProgram 1) s)).flashOp = some { dev := 1, erase := false, addr := 0x12000, data := [(0, 0x5A)] }
    ∧ (after (exec (.flashErase 0) s)).flashOp = none ∧ (after (exec (.flashErase 0) s)).host.flDenied = true
    ∧ programming.host.flBusy = true ∧ ends (exec (.flashErase 1) programming) programming = true
    ∧ (after (exec .flashOpEnd programming)).flashOp = none ∧ (after (exec .flashOpTimeout programming)).host.flTimeout = true := by
  decide +kernel

end Sys2Proof.Tests
end

