-- ==== Sys2Proof/Tests/Witness4.lean ====
section
/-! SUPPORT. States that meet the premises of the statements about cancelling, steps and streams, each with what its clause concludes there. -/

namespace Sys2Proof.Tests

set_option Elab.async false

open Sys2Proof Sys2Proof.Machine

/-- A core that holds a lock, a received item and a producer's credits. -/
def laden : Core :=
  { ((runP.setReg 12 5).setReg 13 6).setRecvq 2
      { RecvQ.reset with depth := 8, pool := 5, items := [{ src := 1, dq := 2, epoch := 0, tag := 5, len := 65, data := [] }] } with
    locks := [(64, 7)], prod := [{ dest := 1, q := 1, epoch := 6, credits := 2, grant := 3 }] }

/-- A step of Pattern 0 that waits for nothing. -/
def step0 : Step :=
  { pat := 0, seq := 8, drec := { stepSeq := 8, bucket := 0, ntoken := 1, nbatch := 1, lclass := 0 },
    batch := [{ slot := 3, ntok := 1, row0 := 0, pos0 := 4 }], toHalt := [], toDrain := [], toClear := [], phase := .running, replays := 0,
    faults := [], taintAll := false, taintSlots := [], commitReport := 0, again := false, outputs := [] }

/-- The state with these steps in flight. -/
def withSteps (s : State) (l : List Step) : State := { s with helm := { s.helm with steps := l } }

theorem witness_CancelQuietsAndClearRestores :
    let s := oneP laden
    let i := oneP { laden with st := .idle, latch := some { stepSeq := 1, bucket := 0, ntoken := 0, nbatch := 0, lclass := 0 } }
    let x := oneP { laden with st := .stopped }
    let d := withSteps s [{ step0 with phase := .cancelling, toDrain := [0], toClear := [0, 1] }]
    let t := after (exec (.clear 0) s)
    let u := after (exec (.drained 0) d)
    let r := after (exec (.coreReset 0) s)
    (s.core 0).st = .running ∧ (s.core 0).cancelling = false
    ∧ ends (exec (.cancel 0) s) ((s.setCore 0 { (s.core 0).quiet with cancelling := true }).emit (.drained 0)) = true
    ∧ (i.core 0).st = .idle ∧ ends (exec (.cancel 0) i) ((i.setCore 0 { i.core 0 with latch := none }).emit (.drained 0)) = true
    ∧ (x.core 0).st = .stopped ∧ ends (exec (.cancel 0) x) x = true ∧ ends (exec (.clear 0) x) x = true
    ∧ (t.core 0).st = .idle ∧ (t.core 0).useRestart = true ∧ (t.core 0).locks = [] ∧ (t.core 0).reg 12 = 0 ∧ (t.core 0).reg 13 = 6
    ∧ ((t.core 0).recvq 2).items = [] ∧ .lockRelease 0 64 7 ∈ t.out ∧ .creditReturn 1 0 2 0 3 ∈ t.out
    ∧ (d.core 0).pat = some 0 ∧ u.helm.steps = [] ∧ .clear 0 ∈ u.out ∧ .clear 1 ∈ u.out
    ∧ stopped (after (exec (.cancelTimeout 0) d)) 0 0 .faulted .cancelTimeout 2 = true
    ∧ r.core 0 = (s.core 0).afterReset ∧ .disconnect 1 1 0 6 2 ∈ r.out ∧ .lockRelease 0 64 7 ∈ r.out := by decide +kernel

theorem witness_RegionsRestartAndLocksAreBroken :
    let s := { oneP { runP with region := 0 } with mem := wrNat [] (5 * 65536 + 64) 16 (pair 64 (lockWord 0 7 1 false)) }
    let t := after (exec (.regionReset 0 0) s)
    let b := after (exec (.lockRelease 0 64 7) s)
    let a := { s with helm := { s.helm with acks := [(4607, 0, 0)] } }
    let f := { s with helm := { s.helm with frees := [(3, 64, 7, 0)] }, mem := wrNat [] (5 * 65536 + 64) 16 (pair 64 (lockWord 3 7 1 false)) }
    let g := after (exec (.lockRelease 3 64 7) f)
    s.pat 0 = some pattern ∧ pattern.regions[0]? = some region ∧ region.cores.any s.isAbsent = false
    ∧ region.image.cores.length = region.cores.length
    ∧ t.pat 0 = some pattern ∧ (∀ c ∈ region.cores, (t.core c).st = .idle ∧ (t.core c).pat = some 0 ∧ (t.core c).useRestart = true)
    ∧ lockGet s (s.pat 0) 64 = .ok (lockWord 0 7 1 false) ∧ lockOwner (lockWord 0 7 1 false) = 0 ∧ lockEpoch (lockWord 0 7 1 false) = 7
    ∧ lockGet b (b.pat 0) 64 = .ok (lockWord 0 7 2 true) ∧ ends (exec (.lockRelease 0 64 8) s) s = true
    ∧ (f.core 3).pat = none ∧ lockGet g (g.pat 0) 64 = .ok (lockWord 3 7 2 true) ∧ g.helm.frees = []
    ∧ (after (exec (.orphanNotice 4607 0) s)).out = [.orphanAck 4607 0]
    ∧ ends (exec (.orphanNoticeAck 4607 0) a) s = true ∧ ends (exec (.orphanNoticeAck 4607 0) s) s = true := by decide +kernel

/-- A stream of Pattern 0. -/
def stream0 : Stream :=
  Stream.seal
  { sid := 1, pat := 0, sclass := 0, st := .ready, pos := 4, plen := 4, limit := 20, port := 0, crec := 0, conn := 5, ptVault := 0, ptFrame := 0,
    kdie := 0, pki := 0, rkh := 0, keyN := 0, aseq := 0, lzBase := 0, lzLen := 0, pages := [], lastOut := [], lost := [], endCode := none,
    slotWas := none }

/-- The Pattern with both its cores IDLE and a stream in slot 3. -/
def idle2 (x : Stream) : State :=
  ((resident.setCore 0 { runP with st := .idle }).setCore 1 { runP with st := .idle }).setStream 3 (some x)

/-- What a step's output row holds: flag words and a body of 64 bytes. -/
def row0 : List Byte := List.replicate 64 0 ++ List.replicate 64 0x41

theorem witness_StepsAreFormedCommittedAndGated :
    let s := idle2 stream0
    let t := after (exec (.stepForm 0) s)
    let h (l : List Nat) : State := withSteps s [{ step0 with toHalt := l }]
    let g := withSteps (idle2 { stream0 with st := .commit, pos := 5 }) [{ step0 with phase := .committed, outputs := [(3, row0)], commitReport := 1 }]
    let held := { g with helm := { g.helm with reports := [{ num := 0, addr := 0, decoded := 0, resolved := false, steps := [] }] } }
    let bad := charted (withSteps s [{ step0 with phase := .committed, taintAll := true, outputs := [(3, row0)] }])
    let u := after (exec (.outputGate 0 8) g)
    (resident.readyOf 0).isEmpty = true ∧ ends (exec (.stepForm 0) resident) resident = true
    ∧ s.readyOf 0 = [(3, stream0)] ∧ mayDispatch s 0 pattern = true
    ∧ leadWalk (s.helm.sst.get 0) (fun c => (s.readyOf 0).any (fun e => decide (e.2.sclass.val = c))) 512 0 [] 0 = some (0, [], 0)
    ∧ t.helm.steps.length = 1 ∧ (t.pat 0).map (·.nextSeq) = some 10 ∧ (t.pat 0).map (·.ptr) = some 1 ∧ t.out.length = 2
    ∧ ((h [0, 1]).core 0).pat = some 0 ∧ ends (exec (.haltReport 0) (h [0, 1])) ((h [0, 1]).setSteps [{ step0 with toHalt := [1] }]) = true
    ∧ (after (exec (.haltReport 0) (h [0]))).helm.steps.map (·.phase) = [.committed]
    ∧ reportsDone held { step0 with commitReport := 1 } = false ∧ ends (exec (.outputGate 0 8) held) held = true
    ∧ reportsDone bad step0 = true ∧ bad.mend = true ∧ (after (exec (.outputGate 0 8) bad)).helm.steps.map (·.phase) = [.stopped]
    ∧ g.stream 3 = some { stream0 with st := .commit, pos := 5 } ∧ (row0.headD 0).getLsbD 0 = false
    ∧ u.helm.steps = [] ∧ u.stream 3 = some { stream0 with st := .ready, pos := 5, lastOut := List.replicate 64 0x41 } := by decide +kernel

/-- The record of a fault of core 0. -/
def faultRec : FaultRec :=
  { core := 0, engine := 0, kind := .faulted, code := .waitTimeout, pos := 3, word := 0, regs := Vector.replicate 16 0,
    sems := Vector.replicate 64 0, extra := 0 }

theorem witness_StepsAreCancelledStoppedAndReplayed :
    let run2 (x : Stream) : State := withSteps (idle2 x) [{ step0 with toHalt := [0, 1] }]
    let e := run2 { stream0 with st := .ending }
    let n := run2 { stream0 with st := .stepping }
    let f := charted ((run2 { stream0 with st := .stepping }).setCore 0 { runP with st := .stopped, fault := some faultRec })
    let r := withSteps (idle2 { stream0 with st := .replay }) [{ step0 with phase := .stopped }]
    let t := after (exec (.stepCancel 0 8) e)
    let u := after (exec (.regionStop 0) f)
    let v := after (exec (.stepReplay 0 8) r)
    e.stream 3 = some { stream0 with st := .ending } ∧ t.out = [.cancel 0, .cancel 1]
    ∧ t.helm.steps = [{ step0 with toHalt := [0, 1], phase := .cancelling, toDrain := [0, 1], toClear := [0, 1] }]
    ∧ n.stream 3 = some { stream0 with st := .stepping } ∧ pattern.unloading = false ∧ ends (exec (.stepCancel 0 8) n) n = true
    ∧ ends (exec (.regionStop 1) n) n = true
    ∧ (f.core 0).st = .stopped ∧ faultsIn f region.cores ≠ [] ∧ f.runs 0 region.cores = true ∧ f.mend = true ∧ .regionReset 0 0 ∈ u.out ∧ (u.core 1).st = .stopped
    ∧ (u.pat 0).map (fun p => p.regions.map (·.stopped)) = some [true]
    ∧ mayDispatch r 0 { pattern with updateHold := [] } = true ∧ (∀ c ∈ pattern.coresOf, (r.core c).st = .idle) ∧ bucketMax pattern = 1
    ∧ r.stream 3 = some { stream0 with st := .replay }
    ∧ v.helm.steps.map (fun u => (u.seq, u.replays, u.phase)) = [(9, 1, .running)] ∧ (v.core 1).useRestart = true := by decide +kernel

/-- An inner header (R379). -/
def innerWord (pattern plen limit : Nat) : BitVec 512 := BitVec.ofNat 512 (pattern + plen * 2 ^ 384 + limit * 2 ^ 416)

/-- A request of a stream: four tokens of 64 B each, of at most 20. -/
def req : ReqItem :=
  { crec := 0, pd := 0, port := 0, conn := 5, lzBase := 0, lzLen := 0, pki := 0, head := innerWord 7 4 20,
    bodyLen := 256 }

/-- An ended stream's frame 1 waits to be zeroed. -/
def zeroing1 : State :=
  { base with
    mem := [(65536, 9), (131072, 8)]
    helm := { base.helm with kvReserved := 5, zeroing := [{ sid := 1, ranges := [(1, 1)], lzBase := 0, lzLen := 0, kv := 2 }] } }

/-- The Pattern with requests admitted. -/
def admitting : State := { resident with helm := { resident.helm with admission := true } }

/-- Two requests wait in the ingress queue of HB at port die 3, the first as given. -/
def queuing (r : ReqItem) : State :=
  admitting.setPd 3 { PortDie.init with
    ingress := (Vector.replicate 2 Ingress.init).set 1 ({ Ingress.init with items := [r, req], credits := 1026 }.advance 0 6) }

/-- A checked request waits for admission. -/
def checking : State := { admitting with helm := { admitting.helm with checked := [(req, 1)] } }

theorem witness_StreamsAreAdmittedAndReleased :
    let e := resident.setStream 3 (some { stream0 with st := .ending })
    let long := { req with bodyLen := 255 }
    ((after (exec (.reqItem 1 3 false) (queuing req))).pd 3).ingress.get 1 = { Ingress.init with epoch := 1 }
    ∧ (let two := queuing req
       let q := (two.pd 3).ingress.get 1
       let off := two.setPd 3 { two.pd 3 with ingress := (two.pd 3).ingress.set 1 { q with ptr2 := (0, 7) } }
       ((after (exec (.reqItem 1 3 true) off)).pd 3).ingress.get 1 = { Ingress.init with epoch := 1 })
    ∧ (let two := { queuing req with helm := { admitting.helm with checked := [(req, 1), ({ req with pd := 3 }, 1)] } }
       (after (exec (.reqItem 1 3 false) two)).helm.checked = [(req, 1)])
    ∧ ends (exec (.reqItem 1 3 true) { queuing req with helm := base.helm }) { queuing req with helm := base.helm } = true
    ∧ (((queuing long).pd 3).ingress.get 1).items = [long, req]
    ∧ ((after (exec (.reqItem 1 3 true) (queuing long))).pd 3).ingress.get 1
        = { Ingress.init with items := [req], credits := 1029, ptr := (3, 6), ptr2 := (3, 6) } ∧ reqCheck (queuing long) long = some .refusedLength
    ∧ ends (exec .admissionCycle resident) resident = true
    ∧ matchPat checking 7 = some (0, pattern) ∧ checking.pat 0 = some pattern ∧ checking.helm.admission = true ∧ checking.helm.parked = []
    ∧ checking.pwr.state = 0 ∧ checking.conn 0 0 = none
    ∧ checking.lowSlot (if checking.freeSlots 0 < checking.freeSlots 1 then 1 else 0) = some 0
    ∧ e.stream 3 = some { stream0 with st := .ending } ∧ e.inStep 3 = false ∧ Sparse.wf none e.helm.streams = true
    ∧ (after (exec (.streamRelease 3) e)).stream 3 = none ∧ (after (exec (.streamRelease 3) e)).helm.zeroing.length = 1
    ∧ ends (exec (.streamRelease 3) (idle2 stream0)) (idle2 stream0) = true
    ∧ (after (exec (.zeroingComplete 1) zeroing1)).mem = [(131072, 8)]
    ∧ (after (exec (.zeroingComplete 1) zeroing1)).helm.kvReserved = 3 := by decide +kernel

/-- An element of a list is no more than the list's sum. -/
theorem le_foldl_of_mem (l : List Nat) (a x : Nat) (h : x ∈ l) : x ≤ l.foldl (· + ·) a := by
  have key : ∀ (l : List Nat) (a : Nat), a ≤ l.foldl (· + ·) a := by
    intro l
    induction l with
    | nil => intro a; exact Nat.le_refl a
    | cons b l ih => intro a; exact Nat.le_trans (Nat.le_add_right a b) (ih (a + b))
  induction l generalizing a with
  | nil => cases h
  | cons b l ih =>
    rcases List.mem_cons.1 h with rfl | h
    · exact Nat.le_trans (Nat.le_add_left x a) (key l (a + x))
    · exact ih (a + b) h

/-- A device of which vault 0 can be used whole, and on which nothing is taken, has room for 16,384 frames. -/
theorem kvPool_of_vault0 (s : State) (hu : s.usableIn 0 = 16384) (ht : (s.helm.frames.filter (·.2)).length = 0) : 16384 ≤ s.kvPool := by
  have h := le_foldl_of_mem ((List.range Config.nSites).map s.usableIn) 0 16384
    (List.mem_map.2 ⟨0, List.mem_range.2 (by decide), hu⟩)
  have le (a b c d : Nat) (h : a ≤ b) (hc : c = 0) : a ≤ b - (c - d) := by omega
  exact le _ _ _ _ h ht

theorem witness_StreamsAreAdmittedAndReleased_room : checking.helm.kvReserved + kvNeed pattern 20 ≤ checking.kvPool :=
  Nat.le_trans (by decide +kernel : checking.helm.kvReserved + kvNeed pattern 20 ≤ 16384)
    (kvPool_of_vault0 checking (by decide +kernel) (by decide +kernel))

theorem witness_StreamsAreAdmittedAndReleased_checked : reqCheck (queuing req) req = none := by
  have hm : matchPat (queuing req) req.inner.pattern = some (0, pattern) := by decide +kernel
  have hk : ¬ (queuing req).kvPool < kvNeed pattern req.inner.limit :=
    Nat.not_lt.2 (Nat.le_trans (by decide +kernel : kvNeed pattern req.inner.limit ≤ 16384)
      (kvPool_of_vault0 (queuing req) (by decide +kernel) (by decide +kernel)))
  rw [reqCheck, hm]
  dsimp only
  rw [if_neg (by decide +kernel), if_neg hk]

end Sys2Proof.Tests
end

