-- ==== Sys2Proof/Tests/Witness6.lean ====
section
/-! SUPPORT. States that meet the premises of the statements about low power, ports, requests, loads and links, each with what its
clause concludes there. -/

namespace Sys2Proof.Tests

set_option Elab.async false

open Sys2Proof Sys2Proof.Machine

/-- In SERVICE with these power registers. -/
def powered (s : State) (p : PowerRegs) : State := { s with start := { s.start with stage := 6 }, pwr := p }

/-- GLB_PWR_REQ after reset. -/
def regs0 : PowerRegs := PowerRegs.init

theorem witness_LowPowerStatesAreEnteredAndLeft :
    let s := powered base regs0
    let asleep (n : Nat) (park : Bool) := powered base { regs0 with state := n, park := park }
    let parked (x : State) := powered x { regs0 with park := true, entering := true }
    let wake (n : Nat) := powered base { regs0 with state := n, waking := true }
    let v := after (exec (.lpmaxWrite 0x00003FFF) s)
    let t := after (exec .l3Entry (parked (idle2 stream0)))
    v.pwr.lpmax = 2 ∧ v.pwr.l2idle = 1 ∧ v.pwr.pcap = 0xFFF ∧ (after (exec (.lpmaxWrite 0) (asleep 1 false))).pwr.waking = true
    ∧ s.serving = true ∧ (after (exec (.parkSet 0x4000) s)).pwr.entering = true
    ∧ (after (exec (.parkClear 0) (asleep 2 true))).pwr.waking = true
    ∧ (idle2 stream0).idle = false ∧ s.idle = true ∧ 1 ≤ s.pwr.lpmax ∧ (after (exec .l2Entry s)).pwr.state = 1
    ∧ (parked (withSteps base [step0])).drained = false ∧ ends (exec .l3Entry (parked (withSteps base [step0]))) (parked (withSteps base [step0])) = true
    ∧ (parked (idle2 stream0)).drained = true ∧ t.pwr.state = 2 ∧ t.pwr.l3parked = 1 ∧ t.helm.parked.length = 1 ∧ (t.core 0).st = .reset
    ∧ ends (exec (.wakeTrigger .segment) (asleep 1 true)) (asleep 1 true) = true
    ∧ (after (exec (.wakeTrigger .load) (asleep 1 false))).pwr.waking = true
    ∧ (after (exec .wakeEnd (wake 1))).pwr.state = 0 ∧ (after (exec .wakeEnd (wake 2))).pwr.waking = false := by decide +kernel

/-- A port's addresses. -/
def addr0 : PortAddr :=
  { PortAddr.init with mac := 0x010000000002, ipv4 := 0x0A000001, gw4 := 0x0A0000FE, ipv6 := 1, iid := 5, mtu := 9000, pfcEn := 0x0F,
                       pauseEn := true }

/-- In SERVICE with port 0 as given, and its die's ports in use. -/
def port0 (up training : Bool) : State :=
  { base with
    start := { base.start with stage := 6 }, pds := Vector.replicate 4 { PortDie.init with closed := false },
    ports := base.ports.set 0 { EthPort.init with up := up, training := training, addr := addr0, paused := 0x10 } }

/-- An ARP frame for that port. -/
def frame0 : EthFrame :=
  { fcsOk := true, len := 64, dstMac := broadcastMac, tags := [], etype := etArp, ipOk := false, ihl := 0, frag := false, proto := 0,
    dstV4 := 0, dstV6 := 0, udpOk := false, udpZero := false, udpPort := 0, udpLen := 0, rqp := 0 }

/-- A datagram with a request of 48 bytes on connection 5, for that port. -/
def frame1 : EthFrame :=
  { frame0 with len := 134, dstMac := addr0.mac, etype := etV4, ipOk := true, ihl := 5, proto := 17, dstV4 := addr0.ipv4, udpOk := true,
                udpPort := 47301, udpLen := 88, rqp := rqpBits ptRq true false 48 5 0 0 0 0 0 }

/-- A message through that port, and the port in a PAUSE with that message waiting. -/
def reply0 : Emit := .arp 0 7 8
def pausing : State := (port0 true false).setPort 0 { (port0 true false).ports.get 0 with pausedAll := true, txq := [reply0] }

theorem witness_EthernetPortsAnswerWhatIsTheirs :
    let s := port0 true false
    let d := port0 false false
    let tr := port0 false true
    (s.ports.get 0).up = true ∧ (after (exec (.ethSignalLoss 0) s)).ethUp 0 = false
    ∧ ((after (exec (.ethSignalLoss 0) s)).ports.get 0).training = true ∧ ends (exec (.ethSignalLoss 0) d) d = true
    ∧ (tr.ports.get 0).training = true ∧ tr.portsOpen 0 = true ∧ (after (exec (.ethTrainingEnd 0) tr)).ethUp 0 = true
    ∧ ends (exec (.ethTrainingEnd 0) d) d = true
    ∧ ends (exec (.ethFrameRx 0 frame0) d) d = true ∧ frameCheck addr0 0 frame0 = none
    ∧ frameCheck addr0 0 frame1 = none ∧ frameCheck addr0 0 { frame1 with tags := [5] } = some (portCtr 0 0x10)
    ∧ frameCheck addr0 0 { frame1 with ihl := 6 } = some (portCtr 0 0x18) ∧ frameCheck addr0 0 { frame1 with udpLen := 87 } = some (portCtr 0 0x20)
    ∧ (after (exec (.ethFrameRx 0 { frame1 with udpPort := 9 }) s)).reg.ctrs.length = 2
    ∧ (s.ports.get 0).paused ≠ 0 ∧ s.transmit 0 reply0 = s.emit reply0 ∧ d.transmit 0 reply0 = d
    ∧ (pausing.ports.get 0).pausedAll = true ∧ (after (exec (.arpRequest 0 0x0A000001 1 2) pausing)).out = []
    ∧ ((after (exec (.arpRequest 0 0x0A000001 1 2) pausing)).ports.get 0).txq = [reply0, .arp 0 1 2]
    ∧ (after (exec (.pauseTimeExpiry 0 0xFF) pausing)).out = [reply0]
    ∧ ((after (exec (.pauseTimeExpiry 0 0xFF) pausing)).ports.get 0).txq = []
    ∧ (after (exec (.ethFrameRx 0 { frame0 with fcsOk := false }) s)).reg.ctrs.length = 1
    ∧ (after (exec (.arpRequest 0 0x0A000001 7 8) s)).out = [.arp 0 7 8] ∧ (after (exec (.arpRequest 0 0x0A000002 7 8) s)).out = []
    ∧ (after (exec (.icmpEcho 0 true (linkLocal addr0) 9 []) s)).out = [.echo (s.netTo 0 9 0 0) []]
    ∧ (after (exec (.neighborSolicitation 0 1 9) s)).out = [.neighbor 0 1 9]
    ∧ ((after (exec (.pauseFrame 0 true 0xFF) s)).ports.get 0).paused = 0x1F
    ∧ ((after (exec (.pauseFrame 0 false 0) s)).ports.get 0).pausedAll = true
    ∧ ((after (exec (.pauseTimeExpiry 0 0x10) s)).ports.get 0).paused = 0
    ∧ ((after (exec (.arpReply 0 0x0A0000FE 3) s)).ports.get 0).arp = [(0x0A0000FE, 3)]
    ∧ ((after (exec (.neighborAdvertisement 0 4 3) s)).ports.get 0).nbr = [(4, 3)] := by decide +kernel

/-- A client's connection at port 0, and its request's preamble. -/
def key0 : ConnKey := { ip := 1, udp := 5000, port := 0, conn := 5 }
def pre0 : Preamble := { hybrid := false, keyid := 9, dslot := 0, fwd := false, clen := 80, enc := 0, ct := 0, ok := true }

/-- The FIRST segment: the preamble alone. -/
def seg0 : RqSegment := { key := key0, hdr := rqpBits ptRq true false 48 5 0 0 0 0 0, payload := pre0.bytes }

/-- A record of that connection without landing-zone space. -/
def conn0 : Conn := { Conn.start key0 pre0 0 0 with got := [(0, true)], ackNext := 1, unackedRq := 1 }

/-- Key 9 in slot 0. -/
def rkey : RecipientKey :=
  { slot := 0, payload := { keyid := 9, pki := 1, hybrid := false, reservedOk := true, x25519 := 5, mlkem := 0 } }

/-- Port 0 up, and the connection's record in place 3 as given. -/
def connected (x : Conn) : State := { (port0 true false).setConn 0 3 (some x) with keys := [rkey] }

/-- A segment that has been sent this often. -/
def sent (tries : Nat) : RsSeg := { seq := 4, msg := 0, kind := 0, first := true, last := true, offset := 0, body := [1], tries := tries }

/-- The acknowledgement of segment 0 of that connection. -/
def rqack0 : Emit :=
  .rqack ((port0 true false).netTo 0 1 5000 0) (rqpBits ptRqack false false 0 5 0 0 1 0 64)

/-- The answer to a FIRST segment that cannot be taken. -/
def away0 : Emit := .rqack ((port0 true false).netTo 0 1 5000 0) (rqpBits ptRqack false false 0 5 0 0 0 0 0)

theorem witness_RequestsAreReceivedOpenedAndAnswered :
    let s := port0 true false
    let p := { s with pwr := { s.pwr with park := true, entering := true } }
    let t := after (exec (.rqSegment seg0) s)
    let x := connected conn0
    s.ethUp 0 = true ∧ pdOf seg0.key.port = 0 ∧ s.findConn 0 key0 = none ∧ seg0.fits = true ∧ seg0.first = true
    ∧ seg0.offset = 0 ∧ preambleOf seg0.payload = some pre0 ∧ preGood pre0 = true ∧ seg0.payload.length ≤ preTotal pre0 ∧ pre0.fwd = false ∧ s.parking = false ∧ s.freeConn 0 = some 0
    ∧ lzAlloc s (ceilDiv pre0.clen 4096) = some 0
    ∧ (t.conn 0 0).map (fun y => (y.key, y.lzBase, y.lzLen)) = some (key0, 0, 1) ∧ t.lz = [(0, 1)]
    ∧ p.parking = true ∧ p.findConn 0 key0 = none ∧ (after (exec (.rqSegment seg0) p)).out = [away0]
    ∧ x.ethUp 0 = true ∧ x.findConn 0 key0 = some (3, conn0) ∧ Sparse.get false conn0.got seg0.seq = true
    ∧ (after (exec (.rqSegment seg0) x)).out = [rqack0] := by decide +kernel

theorem witness_RequestsAreReceivedOpenedAndAnswered_open :
    let w := connected { conn0 with phase := .whole, lzBase := 2 }
    let u := { w with keys := [] }
    let b := toBytes 64 (innerWord 7 0 4).toNat
    let t := after (exec (.requestOpen 0 3 (.plain b)) w)
    let device := { pre0 with hybrid := true, keyid := 0 }
    let l := connected { conn0 with phase := .whole, lzBase := 2, pre := device }
    w.conn 0 3 = some { conn0 with phase := .whole, lzBase := 2 } ∧ openKey u pre0 = none ∧ openKey w pre0 = some 1
    ∧ ((after (exec (.requestOpen 0 3 .authFail) u)).conn 0 3).map (·.statusSent) = some (some (codeValue .refusedKey))
    ∧ ((after (exec (.requestOpen 0 3 .authFail) w)).conn 0 3).map (·.statusSent) = some (some (codeValue .refusedAuth))
    ∧ openKey l device = some 0
    ∧ ((after (exec (.requestOpen 0 3 (.plain (toBytes 64 (7 + 3 * 2 ^ 400)))) l)).conn 0 3).map (·.load)
        = some (some { phash := 7, part := 0, npart := 3, seg := 0, offset := 0 })
    ∧ b.length = conn0.plainLen ∧ 3 ≤ ((w.pd 0).ingress.get (ingressHelm w)).credits ∧ pre0.keyid ≠ 0
    ∧ ((t.pd 0).ingress.get 0).items.map (·.inner) = [{ pattern := 7, plen := 0, limit := 4, sclass := 0 }]
    ∧ ((t.pd 0).ingress.get 0).credits = 1029 := by decide +kernel

theorem witness_RequestsAreReceivedOpenedAndAnswered_end :
    let c := connected { conn0 with phase := .closing, unacked := [sent 0] }
    let o := connected { conn0 with phase := .opened, unacked := [sent 0] }
    let r := connected { conn0 with unacked := [sent 12] }
    let f := connected { conn0 with phase := .forwarded, unackedRq := 0 }
    let k := connected { conn0 with phase := .kept }
    (∀ g ∈ [sent 0], g.seq < 5) ∧ ((after (exec (.rsack 0 3 5 0) c)).conn 0 3).map (·.phase) = some .kept
    ∧ ((after (exec (.rsack 0 3 5 0) o)).conn 0 3).map (·.phase) = some .opened
    ∧ ((after (exec (.rqpCancel 0 3) r)).conn 0 3).map (·.phase) = some .closing
    ∧ ends (exec (.rqackTimer 0 3) f) f = true ∧ (after (exec (.rqackTimer 0 3) r)).out = [rqack0]
    ∧ (after (exec (.rsRetransmit 0 3 4) o)).out = [rsPacket o { conn0 with phase := .opened } (sent 1)]
    ∧ ((after (exec (.rsRetransmit 0 3 4) r)).conn 0 3).map (·.phase) = some .kept
    ∧ (after (exec (.requestTimeout 0 3) r)).out.length = 1 ∧ ends (exec (.requestTimeout 0 3) f) f = true
    ∧ ends (exec (.connRecordExpiry 0 3) f) f = true ∧ (after (exec (.connRecordExpiry 0 3) k)).conn 0 3 = none := by decide +kernel

/-- Link 1 as given, on a device whose Chart gives slot 0, and a request that slot 1 serves. -/
def linked (x : Link) : State :=
  charted { (connected { conn0 with phase := .forwarded, pre := { pre0 with dslot := 1, fwd := true } }) with links := base.links.set 1 x }

/-- A link that is up, with two frames to acknowledge. -/
def link0 : Link :=
  { Link.init with st := .up, txSeq := 5, rxSeq := 7, txcnt := 9,
                   replay := [(3, { vc := 0, len := 64, msg := none }), (4, { vc := 0, len := 64, msg := none })] }

theorem witness_RequestsAreReceivedOpenedAndAnswered_forwarded :
    let s := linked link0
    let t := after (exec (.rqpCancel 0 3) s)
    (s.conn 0 3).map (·.phase) = some .forwarded ∧ s.linkTo 1 = some 1
    ∧ t.out = [.nzFrame (.direct 1) (nzBits 5 7 1 ftData 64 0 0 9) (nzNonce true 9) none, .forwardCancel 1 key0] := by decide +kernel

/-- The Pattern with a further part of two bytes, still loading. -/
def loading (done : List Nat) : Pattern :=
  { pattern with
    manifest := { manifest with parts := [{ seg := 0, offset := 64, length := 2, hash := 5 }, { seg := 0, offset := 66, length := 2, hash := 6 }] },
    resident := false, partsDone := done }

theorem witness_ForwardedRequestsAndPatternLoads :
    let s := linked link0
    let k1 : ConnKey := { key0 with port := 2 }
    let body := List.replicate 80 (0 : Byte)
    let t := after (exec (.forwardedRequest 1 1 k1 pre0 body) s)
    let l := charted { base with helm := { base.helm with pats := [(0, some (loading []))], load := some 0 } }
    let u := base.setPat 0 { pattern with unloading := true }
    s.linkUp 1 = true ∧ slotOn s.slotNo 1 = 1 ∧ body.length = pre0.clen ∧ s.parking = false ∧ s.freeConn (pdOf 1) = some 0
    ∧ lzAlloc s (ceilDiv pre0.clen 4096) = some 0 ∧ (t.conn 0 0).map (·.via) = some (some 1)
    ∧ s.findConn (pdOf key0.port) key0 = some (3, { conn0 with phase := .forwarded, pre := { pre0 with dslot := 1, fwd := true } })
    ∧ ((after (exec (.forwardedResponse 1 key0 [2, 0]) s)).conn 0 3).map (·.phase) = some .closing
    ∧ ((after (exec (.forwardedResponse 1 key0 [1, 0]) s)).conn 0 3).map (·.phase) = some .forwarded
    ∧ listed s 8 = false ∧ (after (exec (.loadPart0 manifest { phash := 8, part := 0, npart := 1, seg := 0, offset := 0 }) s)).helm.pats = []
    ∧ listed l 7 = true ∧ l.pat 0 = some (loading []) ∧ (loading []).manifest.parts[1]? = some { seg := 0, offset := 66, length := 2, hash := 6 }
    ∧ (loading []).segs[0]? = some segment ∧ base.helm.load = none ∧ ends (exec .loadAbandoned base) base = true
    ∧ Sparse.wf none l.helm.pats = true ∧ Sparse.wf Core.init l.cores = true
    ∧ ends (exec (.unloadComplete 0) resident) resident = true ∧ u.pat 0 = some { pattern with unloading := true }
    ∧ (∀ x ∈ u.helm.steps, x.pat ≠ 0) := by decide +kernel

/-- The declaration of a tensor of one row of `n` bytes. -/
def tensor (o n : Nat) : BitVec 512 :=
  BitVec.ofNat 512 (2 ^ 24 + o * 2 ^ 64 + (n + 2 ^ 32) * 2 ^ 128 + (n + 2 ^ 32) * 2 ^ 256 + (n + 2 ^ 16) * 2 ^ 384 + 4096 * 2 ^ 448)

/-- The Chart in force with PLACE clear. -/
def unplaced : State := { base with chart := some { chart with config := { config with place := false } } }

/-- A manifest that passes R256, with these further parts. -/
def loadable (parts : List PartEnt) : Manifest :=
  { manifest with
    params := { params with waitLog2 := 20, stepmask := 1, dispatchAddr := 4096 }, tensorWords := [tensor 0 128, tensor 32768 256], parts := parts }

/-- What is reserved. -/
def reserved (parts : List PartEnt) : Option Pattern :=
  match reserve unplaced unplaced.freePat (newPattern unplaced (loadable parts)) with
  | .ok (_, p) => some p
  | .error _ => none

/-- The header of part `n` of `of`. -/
def loadHead (n of seg ofs : Nat) : LoadHeader := { phash := 7, part := n, npart := of, seg := seg, offset := ofs }

/-- A further part of two bytes. -/
def part (ofs : Nat) (h : BitVec 384) : PartEnt := { seg := 0, offset := ofs, length := 2, hash := h }

theorem witness_ForwardedRequestsAndPatternLoads_reserve :
    let t := after (exec (.loadPart0 (loadable []) (loadHead 0 1 0 0)) unplaced)
    let u := after (exec (.loadPart0 (loadable [part 64 5]) (loadHead 0 2 0 0)) unplaced)
    listed unplaced 7 = true ∧ unplaced.patOfHash 7 = none ∧ unplaced.helm.load = none ∧ unplaced.freePat = 0
    ∧ (reserved []).map (fun p => (p.partsDone, p.manifest.parts, p.coresOf)) = some ([], [], [97, 98])
    ∧ (reserved [part 64 5]).map (fun p => (p.partsDone, p.manifest.parts)) = some ([], [part 64 5])
    ∧ (t.pat 0).map (·.resident) = some true ∧ t.helm.load = none ∧ (t.core 97).st = .idle
    ∧ (u.pat 0).map (·.resident) = some false ∧ u.helm.load = some 0 ∧ (u.core 97).st = .reset := by decide +kernel

/-- The Pattern in loading with these parts to come. -/
def halfPat (parts : List PartEnt) : Pattern := { pattern with manifest := { manifest with parts := parts }, resident := false }

/-- The state with it in loading. -/
def halfLoaded (parts : List PartEnt) : State :=
  charted { base with helm := { base.helm with pats := [(0, some (halfPat parts))], load := some 0 } }

theorem witness_ForwardedRequestsAndPatternLoads_part (h : BitVec 384) (rest : List PartEnt) :
    let l := part 64 h :: rest
    let s := halfLoaded l
    listed s 7 = true ∧ s.helm.load = some 0 ∧ s.pat 0 = some (halfPat l) ∧ (halfPat l).manifest.hash = 7
    ∧ (halfPat l).manifest.parts[(loadHead 1 (rest.length + 2) 0 64).part - 1]? = some (part 64 h)
    ∧ (loadHead 1 (rest.length + 2) 0 64).npart = (halfPat l).manifest.parts.length + 1
    ∧ ([1, 2] : List Byte).length = (part 64 h).length ∧ (halfPat l).segs[(part 64 h).seg]? = some segment
    ∧ (loadHead 1 (rest.length + 2) 0 64).part ∉ (halfPat l).partsDone
    ∧ (rest = [] → (halfPat l).partsDone.length + 1 = (halfPat l).manifest.parts.length)
    ∧ (rest = [part 66 0] → (halfPat l).partsDone.length + 1 ≠ (halfPat l).manifest.parts.length) := by
  refine ⟨rfl, rfl, rfl, rfl, rfl, rfl, rfl, rfl, fun h => (by cases h), ?_, ?_⟩
  · rintro rfl; rfl
  · rintro rfl; exact (by decide : (0 : Nat) + 1 ≠ 2)

/-- The part's hash may agree or differ, whatever SHA-384 gives. -/
theorem witness_ForwardedRequestsAndPatternLoads_hash (h : BitVec 384) : h ≠ h + 1 := by bv_omega

/-- A frame of that link. -/
def header (seq ack : BitVec 16) (ft len cvc ccnt : Nat) : NzHeader := { bits := nzBits seq ack 0 ft len cvc ccnt 0, tagOk := true }

/-- A frame without data that the link sends under TXCNT `n`. -/
def control (ft vc words : Nat) (rx : BitVec 16) (n : BitVec 40) : Emit :=
  .nzFrame (.direct 1) (nzBits 5 rx 0 ft 0 vc words n) (nzNonce true n) none

/-- A frame of its replay buffer. -/
def again (seq : BitVec 16) (n : BitVec 40) : Emit := .nzFrame (.direct 1) (nzBits seq 7 0 ftData 64 0 0 n) (nzNonce true n) none

theorem witness_LinkFramesAreSequencedAndReplayed :
    let i : LinkId := .direct 1
    let s := linked link0
    let c := linked { link0 with credits := [(0, 3)] }
    let w := linked { link0 with nakSeq := 4, nakRun := 15 }
    let o := linked { link0 with owed := [(2, 5000)] }
    s.link i = some link0 ∧ link0.waiting = [] ∧ link0.owed = []
    ∧ (after (exec (.nzDataFrame i (header 8 4 ftData 64 0 0)) s)).out = [control ftNak 0 0 7 9]
    ∧ (after (exec (.nzDataFrame i (header 7 4 ftData 4097 0 0)) s)).out = [control ftNak 0 0 7 9]
    ∧ (after (exec (.nzAckFrame i { header 7 4 ftAck 0 0 0 with tagOk := false }) s)).out = [control ftNak 0 0 7 9]
    ∧ (after (exec (.nzDataFrame i (header 7 4 ftData 64 0 0)) s)).out = [.nzDeliver i 0 64, control ftCredit 0 1 8 9]
    ∧ ((after (exec (.nzAckFrame i (header 7 4 ftAck 0 0 0)) s)).link i).map (fun x => x.replay.map (·.1)) = some [4]
    ∧ ((after (exec (.nzCreditFrame i (header 7 3 ftCredit 0 0 2)) c)).link i).map (·.credits) = some [(0, 1)]
    ∧ (after (exec (.nzNakFrame i (header 7 3 ftNak 0 0 0)) s)).out = [again 3 9, again 4 10]
    ∧ isRouted i = false
    ∧ ((after (exec (.nzNakFrame i (header 7 4 ftNak 0 0 0)) w)).link i).map (·.st) = some .retraining
    ∧ (after (exec (.nzAckFrame i (header 7 3 ftAck 0 0 0)) o)).out = [control ftCredit 2 4095 7 9]
    ∧ ((after (exec (.nzAckFrame i (header 7 3 ftAck 0 0 0)) o)).link i).map (·.owed) = some [(2, 905)] := by decide +kernel

/-- A routed link of port die 0 to module 3 of slot 2, as given. -/
def routedTo (x : Link) : State := { linked link0 with routed := [(.routed 0 3 2, x)] }

theorem witness_LinkFramesAreSequencedAndReplayed_routed :
    let s := routedTo { link0 with nakSeq := 4, nakRun := 15 }
    let i : LinkId := .routed 0 3 2
    isRouted i = true ∧ s.config.isSome = true ∧ (s.link i).map (·.st) = some .up
    ∧ ((after (exec (.nzNakFrame i (header 7 4 ftNak 0 0 0)) s)).link i).map (·.replay.length) = some 1
    ∧ ((after (exec (.nzNakFrame i (header 7 4 ftNak 0 0 0)) s)).link i).map (·.st) = some .rekeying
    ∧ ((after (exec (.linkSilence10ms i) s)).link i).map (·.st) = some .rekeying := by decide +kernel

/-- A handshake of slot 1 of node `node`, of this revision, sent on link 1. -/
def shake (rev node : Nat) : Handshake := { payload := shakeBits rev false 1 node 1 1 false 0 5 6, reportOk := true }

theorem witness_LinksComeUpRetrainAndGoDown :
    let i : LinkId := .direct 1
    let at_ (x : LinkState) (held : Bool) := linked { link0 with st := x, heldDown := held }
    let st (t : State) := (t.link i).map (·.st)
    let h := at_ .handshaking false
    st (after (exec (.laneTrainingEnd i) (at_ .training false))) = some .handshaking
    ∧ (after (exec (.laneTrainingEnd i) (at_ .training false))).lode.rseq = 1
    ∧ st (after (exec (.linkBringupTimeout i) h)) = some .down
    ∧ ends (exec (.linkRetry i) (at_ .down true)) (at_ .down true) = true
    ∧ (at_ .down false).portsOpen (pdOfLink i) = true ∧ st (after (exec (.linkRetry i) (at_ .down false))) = some .training
    ∧ (after (exec (.linkSilence1ms i) (linked link0))).out = [control ftAck 0 0 7 9]
    ∧ st (after (exec (.linkSilence10ms i) (linked link0))) = some .retraining
    ∧ st (after (exec (.txcntWrapHandshake i) (linked link0))) = some .rekeying
    ∧ ((after (exec (.txcntWrapHandshake i) (linked link0))).link i).map (·.replay) = some link0.replay
    ∧ st (after (exec (.retrainEnd i) (at_ .retraining false))) = some .up
    ∧ (after (exec (.retrainEnd i) (at_ .retraining false))).out = [again 3 9, again 4 10]
    ∧ st (after (exec (.linkDown i) (at_ .retraining false))) = some .down
    ∧ st (after (exec (.linkDown i) (at_ .rekeying false))) = some .down := by decide +kernel

theorem witness_LinksComeUpRetrainAndGoDown_shaken :
    let i : LinkId := .direct 1
    let st (t : State) := (t.link i).map (·.st)
    let h := linked { link0 with st := .handshaking }
    let k := linked { link0 with st := .rekeying }
    h.config = some config ∧ (shake 1 3).sound = true ∧ (shake 1 3).reportOk = true ∧ wiringOk h i (shake 1 3) = true
    ∧ linkRev config (shake 1 3) = some 1 ∧ st (after (exec (.handshake i (shake 1 3)) h)) = some .up
    ∧ st (after (exec (.handshake i (shake 1 3)) k)) = some .up
    ∧ ((after (exec (.handshake i (shake 1 3)) k)).link i).map (·.replay) = some link0.replay
    ∧ wiringOk h i (shake 3 3) = true
    ∧ linkRev config (shake 3 3) = none ∧ ((after (exec (.handshake i (shake 3 3)) h)).link i).map (·.heldDown) = some true
    ∧ wiringOk h i (shake 1 2) = false ∧ st (after (exec (.handshake i (shake 1 2)) h)) = some .down
    ∧ st (after (exec (.handshake i { shake 1 3 with reportOk := false }) h)) = some .down
    ∧ (({ payload := 0, reportOk := true } : Handshake)).sound = false
    ∧ ((after (exec (.linkRetry (.routed 0 3 2)) (routedTo Link.init))).link (.routed 0 3 2)).map (·.st) = some .handshaking := by
  decide +kernel

end Sys2Proof.Tests
end

