-- ==== Sys2Proof/Tests/Witness7.lean ====
section
/-! SUPPORT. States that meet the premises of the statements about groups, resets, power, start-up and the management buses, each with
what its clause concludes there. -/

namespace Sys2Proof.Tests

set_option Elab.async false
set_option exponentiation.threshold 1000

open Sys2Proof Sys2Proof.Machine

/-- The payload of COLL_FORM for the group below, with this MC_CRED (R347). -/
def groupWords (mcCred : Nat) : GroupWords :=
  { head := BitVec.ofNat 256 (2 + 2 * 2 ^ 16 + 16 * 2 ^ 72 + 16 * 2 ^ 80 + mcCred * 2 ^ 88 + 2 ^ 112 + 2 * 2 ^ 128 + 2 ^ 136 + 32 * 2 ^ 144
      + 2 ^ 224),
    layers := [BitVec.ofNat 64 (2 ^ 20 + 2 ^ 40)], roster := [3, BitVec.ofNat 256 (3 + 2 ^ 32)] }

/-- A group of slots 0 and 1 of node 3, of one layer and one block of 32 elements. -/
def groupRec : GroupRec :=
  { gid := 2, pat := 0, rmode := false, rule := 0, beta := 0, lr := 0, lrsh := 0, dlLog2 := 16, mcLog2 := 16, mcCred := 1, ev := 0,
    ew := 0, tseg := 1, cseg := 0, sseg := 2, retype := 1, nelem := 32, tofs := 0, cofs := 0, sofs := 0,
    layers := [{ firstBlk := 0, nBlk := 1, nCore := 1 }],
    roster := [{ node := 3, slot := 0, addr := 0 }, { node := 3, slot := 1, addr := 0 }], reservedOk := true }

/-- That group, JOINING. -/
def joining : Group :=
  { cfg := groupRec, phase := .joining, hash := 9, joins := [], members := [], rank := 0, cstep := 0, layersDone := [], deadlines := [],
    contribs := [], partials := [], summed := [], updated := [], shards := [], incomplete := false,
    decided := false, layersDue := [], casts := [], written := [], pulling := [] }

/-- The Chart in force, link 1 up, and the group as given. -/
def grouped (g : Group) : State :=
  charted { base.setGroup 2 (some g) with links := base.links.set 1 { Link.init with st := .up } }

/-- A Pattern with the three segments of the group. -/
def trained : State :=
  { grouped joining with
    start := { base.start with stage := 6 },
    helm := { base.helm with
      pats := [(0, some { pattern with segs := [{ segment with length := 2 ^ 24 }, { segment with length := 2 ^ 24, wr := false },
        { segment with length := 2 ^ 24, wr := false }] })] } }

theorem witness_GroupsFormByTheirLeader :
    let s := grouped joining
    let j := grouped { joining with joins := [(0, true, true), (1, true, false)] }
    let f := grouped { joining with phase := .formed, members := [0, 1] }
    let t := after (exec (.formed 2 [0]) s)
    s.group 2 = some joining ∧ rosterIndex s groupRec = some 0 ∧ (1 : Nat) < groupRec.roster.length
    ∧ ((after (exec (.join 2 1 9 1) s)).group 2).map (·.joins) = some [(1, true, true)]
    ∧ .formed 2 0 [0] ∈ (after (exec (.joinWindowEnd 2) j)).out
    ∧ .formed 2 1 [0] ∈ (after (exec (.joinWindowEnd 2) j)).out
    ∧ (t.group 2).map (fun g => (g.phase, g.members, g.rank)) = some (.formed, [0], 0)
    ∧ ((after (exec (.formed 2 [1]) s)).group 2).map (·.phase) = some .excluded
    ∧ (after (exec (.groupNoleader 2) s)).groups = s.groups ∧ ends (exec (.groupNoleader 2) f) f = true
    ∧ (after (exec (.groupLost 2) f)).group 2 = none
    ∧ sealedCheck trained (good 6) 6 = none ∧ (after (exec (.collDissolve (good 6) 2) trained)).group 2 = none
    ∧ sealedCheck trained (good 5) 5 = none ∧ collBad trained (groupRecOf (groupWords 0)) = true
    ∧ (after (exec (.collForm (good 5) (groupWords 0)) trained)).groups = trained.groups
    ∧ groupRecOf (groupWords 1) = groupRec ∧ collBad trained groupRec = false
    ∧ ((after (exec (.collForm (good 5) (groupWords 1)) trained)).group 2).map (·.phase) = some .joining := by decide +kernel

/-- The group formed, this module its leader. -/
def formed0 : Group := { joining with phase := .formed, members := [0, 1], cstep := 4 }

/-- One of two members that does not lead, while a block is pulled. -/
def formed1 : Group := { formed0 with rank := 1 }

/-- The control message of a group, as a frame. -/
def ctl : NzFrame := { vc := 4, len := ctlBytes, msg := none }

/-- A chunk of block 0. -/
def chunk (cstep rank : Nat) : Chunk :=
  { gid := 2, cstep := cstep, blk := 0, rank := rank, ncount := 1, incomplete := false, groups := [{ v := List.replicate 32 1, x := 0 }] }

theorem witness_CollectiveStepsReduceCommitAndPublish :
    let s := grouped formed0
    let d := grouped { formed0 with layersDone := [0] }
    let p := { s with pwr := { s.pwr with park := true } }
    let c := after (exec (.contribChunk (chunk 4 1)) s)
    s.group 2 = some formed0 ∧ formed0.phase = .formed
    ∧ ((after (exec (.layerDoorbellComplete 2 0) s)).group 2).map (·.layersDone) = some [0]
    ∧ p.pwr.park = true ∧ p.group 2 = some formed0 ∧ ends (exec (.contribChunk (chunk 4 1)) p) p = true
    ∧ (chunk 3 1).cstep < formed0.cstep ∧ ends (exec (.contribChunk (chunk 3 1)) s) (chunkIn s 2) = true
    ∧ formed0.cstep + 1 < (chunk 6 1).cstep ∧ ends (exec (.contribChunk (chunk 6 1)) s) (chunkIn s 2) = true
    ∧ formed0.nodeOf 0 = s.node ∧ formed0.slotOf 0 = s.slotNo ∧ formed0.nodeOf 1 = s.node ∧ formed0.slotOf 1 ≠ s.slotNo
    ∧ s.linkTo (formed0.slotOf 1) = some 1 ∧ (s.link (.direct 1)).map (fun x => (x.st, x.waiting, x.canSend ctl)) = some (.up, [], true)
    ∧ .pull 2 1 0 ∈ (sendMember s 2 formed0 1 ctlBytes (.pull 2 1 0)).out
    ∧ chunkOk formed0 (chunk 4 1) = true ∧ formed0.sumServer 0 = formed0.rank ∧ formed0.nodeOf 1 = formed0.nodeOf 0
    ∧ (c.group 2).map (fun g => g.contribs.map (fun e => (e.1, e.2.1))) = some [(stepKey 4 0, 1)]
    ∧ formed0.owner 0 = formed0.rank ∧ 3 ∈ formed0.nodes
    ∧ ((after (exec (.collDeadline 2 0) d)).group 2).map (·.deadlines) = some [0] := by decide +kernel

/-- The group with a second block, which the other member owns. -/
def two : Group := { formed0 with cfg := { groupRec with nelem := 262176, layers := [{ firstBlk := 0, nBlk := 2, nCore := 1 }] } }

theorem witness_CollectiveStepsReduceCommitAndPublish_lead :
    let s := grouped formed0
    let d := grouped { formed0 with layersDone := [0] }
    let v := grouped { formed0 with casts := [{ blk := 0, cstep := 3, waiting := [1], sent := [1], groups := [] }] }
    let x := grouped { formed0 with decided := true, layersDone := [0] }
    formed0.leads = true ∧ 0 ∈ formed0.owners ∧ (∀ r ∈ formed0.owners, r = 0)
    ∧ .abort 2 0 ∈ (after (exec (.shardDone 2 0 true) s)).out ∧ .abort 2 1 ∈ (after (exec (.shardDone 2 0 true) s)).out
    ∧ .commit 2 0 ∈ (after (exec (.shardDone 2 0 false) s)).out ∧ .commit 2 1 ∈ (after (exec (.shardDone 2 0 false) s)).out
    ∧ formed0.decided = false ∧ two.owners = [0, 1] ∧ .commit 2 0 ∉ (after (exec (.shardDone 2 0 false) (grouped two))).out
    ∧ (x.group 2).map (·.decided) = some true ∧ (after (exec (.shardDone 2 0 false) x)).out = [] ∧ ends (exec (.leaderStepTimeout 2) x) x = true
    ∧ formed0.cfg.layers.length ≤ [0].length ∧ .abort 2 1 ∈ (after (exec (.leaderStepTimeout 2) d)).out
    ∧ ((after (exec (.collAbort 2) s)).group 2).map (·.cstep) = some 4
    ∧ ((after (exec (.updateAck 2 0 1) v)).group 2).map (·.casts) = some []
    ∧ 1 ∈ (Cast.mk 0 3 [1] [1] []).waiting ∧ .dropped 2 1 ∈ (after (exec (.mcDropped 2 1) v)).out
    ∧ 0 ∉ formed0.layersDone ∧ formed0.rank = formed0.owner 0
    ∧ formed0.cstep ≠ 0 ∧ (0 : Nat) < formed0.cfg.nBlk := by decide +kernel

theorem witness_CollectiveStepsReduceCommitAndPublish_member :
    let s := grouped formed1
    let w := grouped { formed1 with pulling := [(3, 0)] }
    let u := after (exec (.updateChunk (chunk 3 0)) s)
    let a := after (exec (.pullAnswer (chunk 3 0)) w)
    s.group 2 = some formed1 ∧ formed1.cstep ≤ (chunk 3 0).cstep + 1 ∧ (chunk 3 0).cstep ≤ formed1.cstep
    ∧ chunkOk formed1 (chunk 3 0) = true ∧ formed1.owner 0 ≠ formed1.rank
    ∧ (u.group 2).map (·.written) = some [(3, 0)] ∧ .updateAck 2 0 0 ∈ u.out
    ∧ w.group 2 = some { formed1 with pulling := [(3, 0)] } ∧ (a.group 2).map (·.pulling) = some []
    ∧ formed1.pulling = [] ∧ .pull 2 0 0 ∈ (after (exec (.dropped 2 0) s)).out
    ∧ (after (exec (.layerDoorbellComplete 2 0) w)).out = []
    ∧ ((after (exec (.layerDoorbellComplete 2 0) w)).group 2).map (·.layersDue) = some [0] := by decide +kernel

/-- The group as given, with its Pattern held for it. -/
def heldFor (g : Group) : State :=
  { grouped g with helm := { base.helm with pats := [(0, some { pattern with updateHold := [2] })] } }

/-- What still holds the Pattern. -/
def holds (t : State) : Option (List Nat) := (t.pat 0).map (·.updateHold)

theorem witness_CollectiveStepsReduceCommitAndPublish_abort :
    let h (g : Group) := holds (after (exec (.collAbort 2) (heldFor g)))
    let all := { formed1 with written := [(3, 0)] }
    let some_ := { formed1 with pulling := [(3, 0)] }
    (heldFor formed1).pat 0 = some { pattern with updateHold := [2] } ∧ (0 : Nat) < formed1.cfg.nBlk
    ∧ h { formed1 with cstep := 0 } = some [] ∧ h all = some [] ∧ some_.cstep ≠ 0 ∧ some_.pulling ≠ [] ∧ h some_ = some [2] := by
  decide +kernel

/-- The rails are off. -/
def dark : State := { base with power := { base.power with rails := false, pwrEn := false } }

/-- RST_IN_N is low. -/
def held : State := { base with start := { base.start with heldReset := true } }

theorem witness_ResetsKeepWhatTheyShould :
    let s := inService
    let p := { s with host := { s.host with perst := true, d3hot := true, linkUp := true, pba := 5 } }
    let q := { p with host := { p.host with perst := false, msixTable := [(3, 1)] } }
    let t := after (exec .d3hotExit q)
    (dark.power.rails = false ∧ dark.power.tripLatched = false ∧ (after (exec .powerUp dark)).power.rails = true)
    ∧ s.power.rails = true ∧ ends (exec .powerUp s) s = true ∧ (after (exec .coldReset s)).helm.pats = [] ∧ (after (exec .coldReset s)).keys = []
    ∧ ends (exec .coldReset dark) dark = true ∧ (after (exec .powerDown s)).power.rails = false
    ∧ (after (exec (.inputFaultShutdown true) s)).power.vinOvFault = true
    ∧ ends (exec (.rstInN 7) s) s = true ∧ s.power.pwrEn = true ∧ (after (exec (.rstInN 8) s)).start.heldReset = true
    ∧ held.start.heldReset = true ∧ (after (exec .rstInNRelease held)).out = [.pcieTrain] ∧ ends (exec .rstInNRelease s) s = true
    ∧ (after (exec .perstN s)).host.linkUp = false ∧ (after (exec .perstN s)).keys = s.keys ∧ (after (exec .flr s)).keys = s.keys
    ∧ p.host.perst = true ∧ (after (exec .perstNRelease p)).out = [.pcieTrain]
    ∧ q.host.pba.getLsbD 0 = true ∧ q.masked 0 = false ∧ q.host.linkUp = true ∧ q.host.perst = false
    ∧ .msix 0 ∈ t.out ∧ t.host.pba = 4
    ∧ s.lode.activeOk = true ∧ s.host.perst = false ∧ s.start.heldReset = false
    ∧ (after (exec (.pcieLinkUp 5 16 true) s)).host.width = 16 := by decide +kernel

/-- Power and sensors as given. -/
def power (vin : Nat) (win : List Nat) (sensors : Sparse Sensor) : State :=
  { base with power := { base.power with vin := vin, vinWin := win, sensors := sensors }, pwr := { base.pwr with pcap := 1000 } }

/-- A sensor that reads `v`, with this many readings at the trip level and discards in a row. -/
def sensor (v : Int) (hot discards : Nat) : Sensor := { last := some v, discards := discards, failed := false, hot := hot }

theorem witness_PowerAndTemperatureSetTheDuty :
    let w := power 0 (List.replicate 32 400 ++ List.replicate 32 420) []
    let v := power 480 [] []
    let j := sensorKey (.dieJunction 0 0)
    let l := sensorKey (.layer 0 0)
    let t (a b : Int) := power 480 [] [(j, sensor a 0 0), (l, sensor b 0 0)]
    let duty (x : State) (ms : Nat) := (after (exec (.dutyThermalUpdate 0 ms) x)).dTh 0
    w.power.vinWin.length = 64 ∧ v.power.vinWin.length < 63 ∧ (after (exec (.vinSample 400) v)).power.vinWin = [400]
    ∧ v.power.rails = true ∧ (after (exec .fastCurrentLimit v)).power.dPwr = 4
    ∧ (after (exec (.dutyPowerUpdate 1001) v)).power.dPwr = 14 ∧ (after (exec (.dutyPowerUpdate 970) v)).power.dPwr = 16
    ∧ hottest (readings (t 95 20) (junctionsOf 0)) = some 95 ∧ hottest (readings (t 95 20) (layersOf 0)) = some 20
    ∧ duty (t 95 20) 1 = 2 ∧ duty (t 90 20) 1 = 15 ∧ duty (t 20 93) 1 = 15 ∧ duty (t 89 92) 20 = 16 := by decide +kernel

theorem witness_PowerAndTemperatureSetTheDuty_sensors :
    let j := sensorKey (.dieJunction 0 0)
    let x (v : Int) (hot discards : Nat) := power 480 [] [(j, sensor v hot discards)]
    let failed := power 480 [] ((List.range 8).map (fun k => (k, { Sensor.init with failed := true })))
    let tr := after (exec (.sensorSample (.dieJunction 0 0) 105) (x 104 1 0))
    failed.allFailed (junctionsOf 0) = true ∧ (after (exec (.dutyThermalUpdate 0 1) failed)).dTh 0 = 4
    ∧ sensorExists (.dieJunction 0 0) = true ∧ ((x 50 0 15).sensor (.dieJunction 0 0)).failed = false
    ∧ ((x 50 0 15).sensor (.dieJunction 0 0)).discard 500 = true
    ∧ ((after (exec (.sensorSample (.dieJunction 0 0) 500) (x 50 0 15))).sensor (.dieJunction 0 0)).failed = true
    ∧ ((x 50 0 14).sensor (.dieJunction 0 0)).discard 51 = false ∧ sensorTripAt (.dieJunction 0 0) = some 105
    ∧ (after (exec (.sensorSample (.dieJunction 0 0) 51) (x 50 0 14))).sensor (.dieJunction 0 0) = sensor 51 0 0
    ∧ ((x 104 1 0).sensor (.dieJunction 0 0)).discard 105 = false ∧ tr.power.rails = false ∧ tr.power.tripLatched = true := by decide +kernel

/-- Bytes from an address of a flash device on. -/
def bytesAt (a : Nat) (l : List Byte) : Sparse Byte := l.zipIdx.map (fun e => (a + e.2, e.1))

/-- The header of a signature block with SLHPAR 1. -/
def sigHead : List Byte := toBytes 16 (0x53474C44 + 2 ^ 32)

/-- Offset and length of the sections, in the order of STYPE. -/
def layout : List (Nat × Nat) :=
  [(16384, 44160), (61440, 8320), (73728, 8320), (86016, 8320), (98304, 16416), (118784, 2168), (122880, 1536), (126976, 1168), (131072, 128)]

/-- The header and the directory, with the zeros behind it and the header of the signature block (R413, R414). -/
def flashHead (gen : Nat) : Sparse Byte :=
  bytesAt 0 (toBytes 64 (0x90154524843 + 0x4C4D * 2 ^ 64 + 0x9032 * 2 ^ 80 + gen * 2 ^ 96 + 131200 * 2 ^ 128)
    ++ layout.zipIdx.flatMap (fun e => toBytes 64 (e.2 + 1 + e.1.1 * 2 ^ 32 + e.1.2 * 2 ^ 64)) ++ List.replicate 3456 0 ++ sigHead)

/-- Certificate `i` of CERTS, of signer `role` and for Lodestar `lode` (R395). -/
def flashCert (i role lode : Nat) : Sparse Byte :=
  bytesAt (16384 + 8832 * i) (toBytes 64 (0x54524344 + 2 ^ 32 + role * 2 ^ 40 + (if role = 2 then 2 else 1) * 2 ^ 48 + lode * 2 ^ 56))
    ++ bytesAt (16384 + 8832 * i + 576) sigHead

/-- The firmware of a TARGET (R414). -/
def flashFirmware (a target : Nat) : Sparse Byte :=
  bytesAt a (toBytes 64 (0x57464C44 + target * 2 ^ 32)) ++ bytesAt (a + 64) sigHead

/-- The configuration record of 768 bytes: the device fields, and eight ports alike (R415). -/
def flashConfig : List Byte :=
  let dev := 3 + 3 * 2 ^ 36 + 2 ^ 40 + 2 ^ 48 + 2000 * 2 ^ 128 + 64 * 2 ^ 144 + 2 ^ 160 + 131 * 2 ^ 176 + 1518 * 2 ^ 192
  let port := 0x010000000002 + 0x0A000001 * 2 ^ 64 + 0x0A0000FE * 2 ^ 96 + 2 ^ 128 + 5 * (2 ^ 192 * 2 ^ 192)
    + (64 + 24 * 2 ^ 8) * (2 ^ 224 * 2 ^ 224)
  toBytes 256 dev ++ (List.replicate 8 (toBytes 64 port)).flatten

/-- A flash device with a Chart of generation `gen` (a byte that is not listed is 0xFF, the complement of zero). -/
def flashOf (gen : Nat) : Sparse Byte :=
  [flashHead gen, flashCert 0 1 0xFF, flashCert 1 2 0, flashCert 2 2 1, flashCert 3 3 0xFF, flashCert 4 4 0xFF,
    flashFirmware 61440 0, flashFirmware 73728 1, flashFirmware 86016 2,
    bytesAt 122880 flashConfig, bytesAt 123648 (flashConfig.map (fun b => ~~~b)),
    bytesAt 126976 (List.replicate 584 0), bytesAt 131072 (List.replicate 64 0)].flatten

/-- Every standard algorithm says yes. -/
def passed : ImageTests :=
  { certs := BitVec.allOnes 9, headRsa := true, headSlh := true, hashes := BitVec.allOnes 9, fwSigs := 7 }

/-- Start-up at this stage. -/
def stage (n : Nat) : State := { base with start := { base.start with stage := n, romLA := true, romLB := true } }

/-- A self-test in which everything passes but what is named. -/
def selfTest (helm port : Bool) : SelfTest := { badSites := [], badCompute := [], helmBad := helm, portBad := port }

theorem witness_StartUpGoesStageByStage :
    let s := stage 0
    let i := stage 1
    let j := { i with start := { i.start with triedB := true } }
    let t := after (exec (.romStageEnd false true true true) s)
    let f := after (exec (.selfTestEnd (selfTest true true)) (stage 2))
    s.start.heldReset = false ∧ s.power.rails = true ∧ s.lode.activeOk = true ∧ t.start.stage = 1 ∧ t.lode.active = 1
    ∧ (after (exec (.romStageEnd false false true true) s)).lode.activeOk = false
    ∧ (after (exec (.romStageEnd true true false true) s)).start.stage = 7
    ∧ i.start.kept = none ∧ turnOf i.start 0 (genOf []) (genOf []) = true ∧ imageCheck true true [] passed = some .chartFormat
    ∧ (after (exec (.chartImageCheck 0 passed (true, true)) i)).start.stage = 1 ∧ turnOf j.start 0 (genOf []) (genOf []) = true
    ∧ (after (exec (.chartImageCheck 0 passed (true, true)) j)).start.stage = 8
    ∧ turnOf i.start 1 (genOf []) (genOf []) = false ∧ ends (exec (.chartImageCheck 1 passed (true, true)) i) i = true
    ∧ i.start.tried 0 = false ∧ (after (exec (.flashReadTimeout 0) j)).start.stage = 8
    ∧ (after (exec (.selfTestEnd (selfTest false false)) (stage 2))).start.stage = 3 ∧ f.start.stage = 7
    ∧ f.start.failcode = codeValue .helmTest
    ∧ (after (exec (.selfTestEnd (selfTest false true)) (stage 2))).start.failcode = codeValue .portTest
    ∧ (after (exec .linkStageEnd (stage 5))).helm.admission = true ∧ ends (exec .linkStageEnd (stage 4)) (stage 4) = true
    ∧ (after (exec .startTimeout (stage 4))).start.stage = 7 ∧ ends (exec .startTimeout (stage 5)) (stage 5) = true := by decide +kernel

/-- That Chart passes its checks. -/
theorem test_imageCheck_passes : imageCheck true true (flashOf 1) passed = none := by decide +kernel

/-- Its generation, and none for a blank device. -/
theorem test_genOf : genOf (flashOf 1) = some 1 ∧ genOf [] = none := by decide +kernel

/-- A device whose flash B holds a Chart starts from it. -/
theorem witness_StartUpGoesStageByStage_image :
    let s := { stage 1 with flashB := flashOf 1 }
    s.start.stage = 1 ∧ s.start.kept = none ∧ s.flash 1 = flashOf 1
    ∧ turnOf s.start 1 (genOf (s.flash 1)) (genOf (s.flash (otherLode 1))) = true
    ∧ imageCheck (s.start.romLA && true) (s.start.romLB && true) (flashOf 1) passed = none := by
  refine ⟨rfl, rfl, rfl, ?_, test_imageCheck_passes⟩
  change turnOf (stage 1).start 1 (genOf (flashOf 1)) (genOf []) = true
  rw [test_genOf.1, test_genOf.2]
  decide

/-- The stack tests are to end, with a word in memory. -/
def stacking : State :=
  charted { stage 3 with start := { (stage 3).start with selfTest := some (selfTest false false) }, mem := [(64, 1)] }

theorem witness_StartUpGoesStageByStage_stacks :
    stacking.start.stage = 3 ∧ stacking.chart.isSome = true ∧ stacking.start.selfTest.isSome = true
    ∧ (∀ v ∈ [4607], v < Config.nSites) ∧ (∀ d ∈ [23], d < 24) := by decide +kernel

theorem witness_ManagementBusesAnswer :
    let s := stage 8
    let a := { s with power := { s.power with otFault := true } }
    s.start.stage ≠ 0 ∧ s.power.rails = true ∧ s.lode.activeOk = true ∧ (stage 0).start.stage = 0
    ∧ (after (exec .smbGlbIdent (stage 0))).out = [.smbus [0, 0, 0, 0]]
    ∧ (after (exec .smbGlbIdent s)).out = [.smbus [0x32, 0x90, 0x4D, 0x4C]]
    ∧ (after (exec .smbGlbStart s)).out = [.smbus [8, 0, 0, 0]]
    ∧ (after (exec .pmbusRevision s)).out = [.pmbus [0x33]] ∧ (after (exec .mfrReadDuty s)).out = [.pmbus [16, 16]]
    ∧ (after (exec .clearFaults a)).power.otFault = false
    ∧ a.alert = true ∧ base.alert = false ∧ ends (exec .alertResponse base) base = true
    ∧ (after (exec .idcode s)).out = [.tdo 0x190329CF] ∧ (after (exec .extest s)).tap.instr = .extest
    ∧ (after (exec .extest (stage 6))).tap.instr = .bypass ∧ (after (exec (.samplePreload (some 5)) s)).tap.cells = 5
    ∧ (after (exec .testLogicReset s)).tap.reset = true := by decide +kernel

theorem witness_DutyLevelsStayInRange :
    let s := { power 480 [] [] with pending := [.dutyPowerUpdate 5000] }
    2 ≤ s.power.dPwr ∧ s.power.dPwr ≤ 16 ∧ s.power.dTh = [] ∧ (after (step s)).power.dPwr = 14
    ∧ (after (exec (.dutyPowerUpdate 5000) { s with power := { s.power with dPwr := 3 } })).power.dPwr = 2 := by decide +kernel

theorem witness_WellFormedCommandsAreAnswered :
    (Instr.set 4223 15 (-1)).wf = true ∧ (Instr.set 4224 0 0).wf = false ∧ goesOn (exec (.set 4223 15 (-1)) base) = true
    ∧ Config.nCores ≤ 4224 ∧ goesOn (exec (.set 4224 0 0) base) = false ∧ Config.nSites ≤ 4608
    ∧ goesOn (exec (.refreshOperation 4608 0) base) = false ∧ Config.vaultBytes ≤ 1073741824
    ∧ goesOn (exec (.computePllLoss 24) base) = false := by decide +kernel

end Sys2Proof.Tests
end

