-- ==== Sys2Proof/Tests/Slice0.lean ====
section
/-! SUPPORT. Tests: the manual's worked examples and small cases worked out by hand from its rules, and a term that each check of
well-formedness refuses. Each test's comment names where its expected result comes from. -/

namespace Sys2Proof.Tests

set_option Elab.async false

open Sys2Proof Sys2Proof.Machine

/-! ### Numbering (the worked examples of R24 and of the register maps) -/

/-- Logical core (37, 30) is number 2,917 on C14, held by site 3,109, die-local index 133. -/
theorem test_core_and_site_numbers :
    30 * 96 + 37 = 2917 ∧ dieOfCore 2917 = 14 ∧ identSite 2917 = 3109 ∧ dieOfSite 3109 = 14 ∧ coreIndex 2917 = 133 ∧ siteIndex 3109 = 133 := by
  decide +kernel

/-- ME_MAC_LO of that core and VAULT_CE of that vault. -/
theorem test_counter_offsets :
    blockBase (dieBlock 14) = 0x02C00000 ∧ coreCtr 2917 8 = 0x02C09508 ∧ vaultCtr 3109 0x18 = 0x02C0E158 := by decide +kernel

/-- CD_L2S_133 in the identity map, and after the move to site 3,400. -/
theorem test_l2s_word :
    base.privReg 22 0x20214 = some 0x13DA0C25
    ∧ ({ base with helm := { base.helm with places := [(2917, .at 3400)] } } : State).privReg 22 0x20214 = some 0x12B70D48 := by
  decide +kernel

/-! ### Numbers and sparse forms (worked examples of R34, R43, R46, R51) -/

/-- I4 elements 3, −2, 7, −8 are the bytes E3 87. -/
theorem test_i4_packing :
    [3, -2, 7, -8].zipIdx.foldl (fun m e => wrElem m 0 4 (4 * e.2) e.1) ([] : Memory) = [(0, 0xE3), (1, 0x87)]
    ∧ rdElem [(0, 0xE3), (1, 0x87)] 0 4 4 = -2 := by decide +kernel

/-- The rounding steps of the I8 output group: ties go to even. -/
theorem test_rounding : rq 300 1 = 150 ∧ rq (-129) 2 = -32 ∧ rq 127 2 = 32 ∧ rq 10 2 = 2 ∧ rq 14 2 = 4 := by decide +kernel

/-- The whole group: e = 2, and the exponent byte is zero. -/
theorem test_requantised_group :
    (requant { etype := 1, form := 0, modular := false, nmsel := 0, uniform := false, mult := 0x8000, ebias := -4, scaleOfs := 0, indexOfs := 0 }
      (-6) ([300, -129, 127, 10, 14] ++ List.replicate 27 0)).map (fun o => (o.vals.take 5, o.g, o.sat))
    = some ([75, -32, 32, 2, 4], some 0, 0) := by decide +kernel

/-- An operand of one row tile at byte 0. -/
def operand (m : Memory) (form : Nat) (cols : Nat) : Opnd :=
  { mem := m, base := 0, rstr := 64, rows := 16, cols := cols,
    h := { etype := 1, form := form, modular := false, nmsel := 0, uniform := true, mult := 0x8000, ebias := 0, scaleOfs := 0, indexOfs := 4 } }

/-- The BMP64 segment with 12, −3 and 100 at positions 0, 5 and 63. -/
theorem test_bmp64_record :
    let o := operand (wrBytes [] 64 [0x21, 0, 0, 0, 0, 0, 0, 0x80, 0x0C, 0xFD, 0x64]) 1 64
    recLen 0x8000000000000021 8 = 16 ∧ recLen 0x8000000000000021 4 = 16
    ∧ (o.block 0 0).map (fun l => (l.getD 0 none, l.getD 5 none, l.getD 1 none)) = some (some 12, some (-3), none)
    ∧ o.block 0 1 = none ∧ (o.block 0 3).map (fun l => l.getD 15 none) = some (some 100) := by decide +kernel

/-- The 2:4 group 0, 5, 0, −1: values 05 FF, positions 1 and 3. -/
theorem test_nm_group :
    let o := operand [(64, 0x05), (65, 0xFF), (256, 0xD)] 3 64
    (o.block 0 0).map (fun l => l.take 4) = some [none, some 5, none, some (-1)] := by decide +kernel

/-! ### Command words (the worked example of the command sequencer) -/

/-- The TMUL of position 3 is the bytes 03 81 41 01 08 01 20 00 and eight zero bytes. -/
theorem test_tmul_word :
    let w : CmdWord := BitVec.ofNat 128 (ofBytes [0x03, 0x81, 0x41, 0x01, 0x08, 0x01, 0x20, 0x00])
    let i : Instr := .tmul 5 { wen := true, wsem := 0, sen := true, ssem := 1, xen := true, xreg := 2, xsh := 0 } 0x108 0 4 0 0 0 false
    commandOf 5 0 w = some i ∧ commandWord i = some w := by decide +kernel

/-- Words written from R69 and R70: SET S[3] of 7, and SHR S[1] of S[2] by 63. -/
theorem test_scalar_words :
    commandOf 0 0 (BitVec.ofNat 128 (3 * 2 ^ 32 + 7 * 2 ^ 64)) = some (.set 0 3 7)
    ∧ commandOf 0 0 (BitVec.ofNat 128 (5 * 2 ^ 4 + 1 * 2 ^ 32 + 2 * 2 ^ 36 + 63 * 2 ^ 64)) = some (.shr 0 1 2 63) := by decide +kernel

/-- A reserved class and a reserved operation spell no command (R66, R69). -/
theorem test_reserved_words : commandOf 0 0 8 = none ∧ commandOf 0 0 0x90 = none := by decide +kernel

/-- No row of the command table gives bits, so that a word of the table spells no command. -/
theorem test_no_table_words : decodeTableWord 128 3 = none ∧ State.reset.withFetchWord 128 3 = State.reset := ⟨rfl, rfl⟩

/-! ### A core (R58, R69, R73 to R75, worked out by hand) -/

/-- What S[1] holds after a command of core 0 with S[2] = `a` and S[3] = `b`. -/
def s1After (i : Instr) (a b : W64) : W64 := ((after (exec i (one ((run.setReg 2 a).setReg 3 b)))).core 0).reg 1

/-- ADD wraps at 64 bits and SUB below zero. -/
theorem test_add_wraps : s1After (.add 0 1 2 3) (BitVec.allOnes 64) 2 = 1 ∧ s1After (.sub 0 1 2 3) 1 2 = BitVec.allOnes 64 := by decide +kernel

/-- ADDI extends its immediate with its sign. -/
theorem test_addi_sign : s1After (.addi 0 1 2 0xFFFFFFFF) 5 0 = 4 := by decide +kernel

/-- SHR brings in zeros. -/
theorem test_shr_logical : s1After (.shr 0 1 2 63) (BitVec.allOnes 64) 0 = 1 ∧ s1After (.shl 0 1 2 63) 3 0 = 0x8000000000000000 := by
  decide +kernel

/-- A source that is also the destination. -/
theorem test_add_to_itself : ((after (exec (.add 0 2 2 2) (one (run.setReg 2 7)))).core 0).reg 2 = 14 := by decide +kernel

/-- A taken branch goes to its target, one that is not taken goes on. -/
theorem test_branches :
    ((after (exec (.brz 0 2 6) (one run))).core 0).pos = 6 ∧ ((after (exec (.brnz 0 2 6) (one run))).core 0).pos = 3 := by decide +kernel

/-- TRAP stops the core with PATTERN_TRAP (0x0106). -/
theorem test_trap : stopped (after (exec (.trap 0 0x1234) (one run))) 0 0 .faulted .patternTrap 2 = true ∧ codeValue .patternTrap = 0x0106 := by
  decide +kernel

/-- SEMSIG adds its count, and a sum above 65,535 overflows (R60, R61). -/
theorem test_semaphores :
    ((after (exec (.semsig 0 9 5) (one (run.setSem 9 3)))).core 0).sem 9 = 8
    ∧ stopped (after (exec (.semsig 0 9 5) (one (run.setSem 9 65531)))) 0 0 .faulted .semOverflow 2 = true := by decide +kernel

/-- A command of a core that the grid does not have faults. -/
theorem test_no_such_core : exec (.nop 4224) base = .fault .noSuchCore := rfl

/-! ### Near memory (the worked example of counters and locks across a fault) -/

/-- The lock and claim entries of that example, as they read. -/
theorem test_lock_and_claim_words :
    lockWord 101 7 1 false = 0x2000E065 ∧ lockWord 101 7 2 true = 0xC000E065 ∧ lockWord 101 8 1 true = 0xA0010065
    ∧ lockWord 101 8 0 false = 0x00010065 ∧ claimEntry 100 false 3 = 0xC064 ∧ claimEntry 101 true 2 = 0xA065 ∧ claimEntry 100 true 1 = 0x6064 := by
  decide +kernel

/-- The counter of that example at SEG offset 64 of segment 0, its claim entries at offset 256, and its lock at offset 512. -/
def crossed : State :=
  { resident with
    mem := wrNat (wrNat (wrNat [] (5 * 65536 + 64) 64 (ctrRecord 5 40 256 true)) (5 * 65536 + 256) 10
      (0xC064 + 0xA065 * 2 ^ 16 + 0xC066 * 2 ^ 32 + 0x6064 * 2 ^ 48 + 0x6066 * 2 ^ 64)) (5 * 65536 + 512) 16 (pair 64 0xC000E065) }

/-- The result word of a draw of a core. -/
def drawOf (s : State) (c : Nat) : Option (State × Nat) :=
  match ctrDraw s c 0 (s.pat 0) 64 1 with | .ok r => some r | .error _ => none

/-- Core 101 draws index 1 TORN, core 100 index 3 and core 102 index 4 REISSUED, and core 100's next draw is 5, NEW. -/
theorem test_counter_draws :
    (drawOf crossed 101).map (·.2) = some 0x0000000200000001 ∧ (drawOf crossed 100).map (·.2) = some 0x0000000100000003
    ∧ (drawOf crossed 102).map (·.2) = some 0x0000000100000004
    ∧ ((drawOf crossed 100).bind (fun r => drawOf r.1 100)).map (·.2) = some 5 := by decide +kernel

/-- Core 101's LOCK returns 0x0002_0008 and leaves 0xA001_0065. -/
theorem test_broken_lock :
    (match lockTry crossed 101 0 (crossed.pat 0) 512 with
     | .acquired s w => decide (w = 0x00020008) && decide (rdNat s.mem (5 * 65536 + 512) 8 = 0xA0010065)
     | .busy _ => false
     | .stop _ => false) = true := by decide +kernel

/-! ### Streams (the worked example of R304, and that of R237) -/

/-- LIMIT 2,097,152 at NLHG 96 and KVPITCH 1,024: 786,432 pages of 4 frames and a page table of 96 frames. -/
theorem test_kv_need :
    kvNeed { pattern with manifest := { manifest with params := { params with nlhg := 96, kvpitch := 1024 } } } 2097152 = 786432 * 4 + 96 := by
  decide +kernel

/-- The page-table entry of POS 1,000,003 in LHG 37, and the entry's bits for vault 1,234, frame 8,000 and PKI 0x42. -/
theorem test_page_table :
    ptAddr { stream0 with ptVault := 0, ptFrame := 0 } 96 37 3906 = 3000104 ∧ ptBits (1234 * 16384 + 8000) 0x42 = 0x0000000427D009A5 := by
  decide +kernel

/-- A step of 700 tokens takes bucket 1,024 where STEPMASK is 0b011_1100. -/
theorem test_bucket : bucketFor { pattern with manifest := { manifest with params := { params with stepmask := 0x3C } } } 700 = 1024 := by
  decide +kernel

/-! ### Placement (the worked example of R315) -/

/-- Stripe 1 of segment 5: pages 7 to 13 on C16 to C22, and the parity page on C23. -/
theorem test_stripe :
    (List.range 8).map (stripeDie (List.range 24) ((3 * 5 + 1) % 24)) = [16, 17, 18, 19, 20, 21, 22, 23] := by decide +kernel

/-! ### Collectives (the worked example of R358) -/

/-- The pairs of node 7, of node 9, and of both. -/
theorem test_pairs :
    pairGrp { v := [100], x := -10 } { v := [-60], x := -8 } = ({ v := [-140], x := -10 }, 0)
    ∧ pairGrp { v := [127], x := -12 } { v := [90], x := -9 } = ({ v := [847], x := -12 }, 0)
    ∧ pairGrp { v := [-140], x := -10 } { v := [847], x := -12 } = ({ v := [287], x := -12 }, 0) := by decide +kernel

/-- The momentum becomes 1,193,882 and the master falls by 73. -/
theorem test_optimiser :
    optElem { groupRec with rule := 0, beta := 58982, lr := 32768, lrsh := 25, ev := -24, ew := -20 } (2 ^ 30) (-12) 287 1000000 0
    = (-73, 1193882, 0) := by decide +kernel

/-! ### The host side (the worked example of R455) -/

/-- HOST_IRQ_STATUS reads 0x002A_0001. -/
def irqState : State := { base with host := { base.host with irqSeq := 0x2A, irqBits := 1 } }

/-- A record is logged; the stale write is ignored, and the next one clears MBX_DONE alone. -/
theorem test_irq_status :
    let s := raiseIrq irqState 3
    let t := after (exec (.irqStatusClear 0x002A0001) s)
    let u := after (exec (.irqStatusClear 0x002B0001) t)
    (readWord s .host 0x100000).2 = 0x002B0009 ∧ (readWord t .host 0x100000).2 = 0x002B0009 ∧ (readWord u .host 0x100000).2 = 0x002B0008 := by
  decide +kernel

/-- TEL_SIZE reads 0x0C after reset (R456). -/
theorem test_tel_size : (readWord base .host (BitVec.ofNat 32 0x100018)).2 = 0x0C := by decide +kernel

/-! ### Power and start-up (the worked examples of R437 and of start-up) -/

/-- 0x320A_6BB8 sets PARK and leaves the other fields at reset with a PCAP of 3,000 W. -/
theorem test_park_write :
    let t := after (exec (.parkSet (BitVec.ofNat 32 0x320A6BB8)) (powered base { PowerRegs.init with pcap := 3000 }))
    t.pwr = { PowerRegs.init with pcap := 3000, park := true, entering := true } := by decide +kernel

/-- GLB_PWR_STATE with 5,000 streams parked in L3. -/
theorem test_pwr_state : (powered base { PowerRegs.init with state := 2, l3parked := 5000 }).glbPwrState = 0x00138802 := by decide +kernel

/-- GLB_START in SERVICE with image A in force as the fallback and CODE_B = SECT_HASH. -/
theorem test_glb_start :
    ({ base with start := { base.start with stage := 6, image := 0, fallback := true, codeB := codeValue .sectHash } } : State).glbStart = 0x00070026 := by
  decide +kernel

/-! ### Well-formedness: each check refuses a term -/

/-- Commands that no check refuses. -/
theorem test_wf_accepts :
    (Instr.nop 4223).wf = true ∧ (Instr.refreshOperation 4607 63).wf = true ∧ (Instr.computePllLoss 23).wf = true
    ∧ (Instr.blkSnap 31).wf = true ∧ (Instr.contribChunk (chunk 0 1)).wf = true ∧ (Instr.chartImageCheck 0 passed (true, false)).wf = true := by
  decide +kernel

/-- Cores, vaults, dies and blocks that the device does not have. -/
theorem test_wf_numbers :
    (Instr.nop 4224).wf = false ∧ (Instr.barrierArrival 4224 0 false).wf = false ∧ (Instr.refreshOperation 4608 0).wf = false
    ∧ (Instr.siteTestEnd 4608 true).wf = false ∧ (Instr.computePllLoss 24).wf = false ∧ (Instr.blkSnap 32).wf = false
    ∧ (Instr.foldWindowEnd 0 256).wf = false ∧ (Instr.stepForm 64).wf = false := by decide +kernel

/-- Vault accesses beyond a vault, or for an issuer that is no core's. -/
theorem test_wf_vault :
    (Instr.patrolRead 0 Config.vaultBytes .clean .clean).wf = false ∧ (Instr.vaultReadRequest 0 0 (some (4224, 0)) .clean .clean).wf = false
    ∧ (Instr.migrationStart 64 0 0 0 0).wf = false ∧ (Instr.migrationStart 0 256 0 0 0).wf = false
    ∧ (Instr.migrationStart 0 0 0 4608 0).wf = false ∧ (Instr.migrationEnd 0 0 (2 ^ 27)).wf = false := by decide +kernel

/-- Items, connections and orphan notices. -/
theorem test_wf_messages :
    (Instr.itemArrival 0 { src := 4224, dq := 0, epoch := 0, tag := 0, len := 0, data := [] } true).wf = false
    ∧ (Instr.itemArrival 0 { src := 0, dq := 8, epoch := 0, tag := 0, len := 0, data := [] } true).wf = false
    ∧ (Instr.itemArrival 0 { src := 0, dq := 0, epoch := 0, tag := 0, len := 4097, data := List.replicate 4097 0 } true).wf = false
    ∧ (Instr.itemArrival 0 { src := 0, dq := 0, epoch := 0, tag := 0, len := 1, data := [] } true).wf = false
    ∧ (Instr.connect 0 0 4224 none).wf = false ∧ (Instr.connectReply 0 4224 0 none 0).wf = false ∧ (Instr.stale 4224 0 0).wf = false
    ∧ (Instr.orphanNotice 4608 0).wf = false ∧ (Instr.lockRelease 0 (2 ^ 43) 0).wf = false := by decide +kernel

/-- Dispatch records, resources and holders. -/
theorem test_wf_resources :
    (Instr.dispatch 0 { stepSeq := 0, bucket := 8192, ntoken := 0, nbatch := 0, lclass := 0 }).wf = false
    ∧ (Instr.dispatch 0 { stepSeq := 0, bucket := 0, ntoken := 0, nbatch := 0, lclass := 16 }).wf = false
    ∧ (Instr.resourceHang (.scratchBank 0 32) .darning).wf = false ∧ (Instr.resourceHang (.accBank 0 2) .darning).wf = false
    ∧ (Instr.resourceHang (.nmuPath 0) (.vaultTask 4608)).wf = false ∧ (Instr.resourceHang (.nmuPath 0) (.reduction 0 16 0)).wf = false
    ∧ (Instr.preemption (.injection 4224) 0 0 0).wf = false := by decide +kernel

/-- Sealed commands' payloads and group records. -/
theorem test_wf_sealed :
    (Instr.keyRemove (good 2) 65536).wf = false
    ∧ (Instr.collForm (good 5) { groupWords 1 with layers := [] }).wf = false
    ∧ (Instr.collForm (good 5) { groupWords 1 with roster := [3] }).wf = false ∧ (Instr.collForm (good 5) (groupWords 1)).wf = true
    ∧ (Instr.join 0 4096 0 0).wf = false ∧ (Instr.join 0 0 0 256).wf = false ∧ (Instr.shardDone 0 4096 false).wf = false
    ∧ (Instr.updateAck 0 (2 ^ 20) 0).wf = false ∧ (Instr.dropped 0 4096).wf = false
    ∧ (Instr.contribChunk { chunk 0 1 with gid := 16 }).wf = false ∧ (Instr.partialChunk (chunk 0 1) (2 ^ 32)).wf = false
    ∧ (Instr.updateChunk { chunk 0 1 with groups := [{ v := [], x := 0 }] }).wf = false := by decide +kernel

/-- Frames, segments, loads and links. -/
theorem test_wf_ports :
    (Instr.ethFrameRx 0 { frame0 with tags := [4096] }).wf = false ∧ (Instr.ethFrameRx 0 { frame0 with ihl := 16 }).wf = false
    ∧ (Instr.ethFrameRx 0 { frame0 with proto := 256 }).wf = false ∧ (Instr.ethFrameRx 0 { frame0 with udpLen := 65536 }).wf = false
    ∧ (Instr.rqSegment { seg0 with key := { key0 with udp := 65536 } }).wf = false
    ∧ (Instr.forwardedRequest 0 0 key0 { pre0 with dslot := 8 } []).wf = false
    ∧ (Instr.forwardedRequest 0 (2 ^ 35) key0 pre0 []).wf = false ∧ (Instr.forwardedResponse 0 { key0 with udp := 65536 } []).wf = false
    ∧ (Instr.loadPart (loadHead 65536 1 0 0) []).wf = false ∧ (Instr.loadPart (loadHead 1 1 256 0) []).wf = false
    ∧ (Instr.nzAckFrame (.routed 0 0 8) (header 0 0 ftAck 0 0 0)).wf = false ∧ (Instr.linkRetry (.routed 0 (2 ^ 32) 0)).wf = false := by
  decide +kernel

/-- Sensors, images and test outcomes. -/
theorem test_wf_management :
    (Instr.sensorSample (.dieJunction 24 0) 0).wf = false ∧ (Instr.sensorSample (.layer 24 0) 0).wf = false
    ∧ (Instr.sensorSample (.other 8 0) 0).wf = false
    ∧ (Instr.selfTestEnd { badSites := [4608], badCompute := [], helmBad := false, portBad := false }).wf = false
    ∧ (Instr.selfTestEnd { badSites := [], badCompute := [24], helmBad := false, portBad := false }).wf = false
    ∧ (Instr.stackTestEnd [4608] []).wf = false ∧ (Instr.stackTestEnd [] [24]).wf = false := by decide +kernel

end Sys2Proof.Tests
end

