-- ==== Sys2Proof/Tests/Witness1.lean ====
section
/-! SUPPORT. States that meet the premises of the statements about a core's commands, each with what its clause concludes there. -/

namespace Sys2Proof.Tests

set_option Elab.async false

open Sys2Proof Sys2Proof.Machine

theorem witness_StepRunsTheFrontCommand : base.pending = [] ∧ ends (step base) base = true := by decide +kernel

/-- A core whose S2 is 24 and S3 is 5. -/
def scal : Core := (runP.setReg 2 24).setReg 3 5

theorem witness_ScalarCommandsWriteTheirRegister :
    let s := oneP scal
    let k := s.core 0
    let p := k.pos + 1
    k.lands p = true ∧ k.takes [1] = true ∧ k.takes [2, 1] = true ∧ k.takes [2, 3, 1] = true ∧ s.coreRegion k = some region
    ∧ ends (exec (.set 0 1 77) s) (s.setCore 0 ((k.setReg 1 77).goes p)) = true
    ∧ ends (exec (.getid 0 1 0) s) (s.setCore 0 ((k.setReg 1 97).goes p)) = true
    ∧ goesOn (exec (.getid 0 1 5) s) = true
    ∧ ends (exec (.addi 0 1 2 (-25)) s) (s.setCore 0 ((k.setReg 1 (BitVec.allOnes 64)).goes p)) = true
    ∧ ends (exec (.shl 0 1 2 63) s) (s.setCore 0 ((k.setReg 1 0).goes p)) = true
    ∧ ends (exec (.shr 0 1 2 3) s) (s.setCore 0 ((k.setReg 1 3).goes p)) = true
    ∧ (k.reg 2 + (8 : BitVec 32).signExtend 64).toNat = 32
    ∧ ends (exec (.ld 0 1 2 8) s) (s.setCore 0 (({ k with pend := [(1, some 0)] }).goes p)) = true
    ∧ ends (exec (.st 0 3 2 8) s) (s.setCore 0 (({ k with scratch := [(32, 5)] }).goes p)) = true
    ∧ ends (exec (.add 0 1 2 3) s) (s.setCore 0 ((k.setReg 1 29).goes p)) = true
    ∧ ends (exec (.sub 0 1 3 2) s) (s.setCore 0 ((k.setReg 1 (-19)).goes p)) = true := by decide +kernel

theorem witness_BadLoadAndStoreAddressesAreRejected :
    let s := oneP ((run.setReg 2 0x2EFFF0).setReg 4 3)
    let k := s.core 0
    k.takes [2, 1] = true ∧ k.takes [4, 1] = true
    ∧ (k.reg 2 + (16 : BitVec 32).signExtend 64).toNat = 3 * 1048576 - 65536
    ∧ stopped (after (exec (.ld 0 1 4 (-2)) s)) 0 0 .rejected .misalign 2 = true
    ∧ stopped (after (exec (.st 0 1 4 (-2)) s)) 0 0 .rejected .misalign 2 = true
    ∧ stopped (after (exec (.ld 0 1 2 16) s)) 0 0 .rejected .scratchRange 2 = true
    ∧ stopped (after (exec (.st 0 1 2 16) s)) 0 0 .rejected .scratchRange 2 = true
    ∧ ends (exec (.st 0 1 2 8) s) (s.setCore 0 (({ k with scratch := [] }).goes 3)) = true := by decide +kernel

/-- An open loop over words 1 to 5 of which two iterations of three are done, with S4 its index register. -/
def loop1 : LoopEnt := { start := 1, last := 5, count := 3, iter := 1, ireg := some 4 }

theorem witness_FlowCommandsMoveThePosition :
    let s := one ({ run with loops := [loop1] }.setReg 3 (BitVec.allOnes 64))
    let k := s.core 0
    k.takes [3, 4] = true ∧ loopCount k 0 3 true = 2 ^ 32 - 1 ∧ k.pos + 1 < k.progLen
    ∧ ends (exec (.loop 0 0 3 true 4 true 4) s) (s.setCore 0 (({ k.setReg 4 0 with
        loops := [{ start := 3, last := 4, count := 2 ^ 32 - 1, iter := 0, ireg := some 4 }, loop1] }).goes 3)) = true
    ∧ k.takes [] = true ∧ landsIn [] k.progLen 6 = true ∧ ends (exec (.lexit 0) s) (s.setCore 0 (({ k with loops := [] }).goes 6)) = true
    ∧ k.lands 7 = true ∧ ends (exec (.jmp 0 7) s) (s.setCore 0 (k.goes 7)) = true
    ∧ k.lands 3 = true ∧ ends (exec (.nop 0) s) (s.setCore 0 (k.goes 3)) = true
    ∧ k.reg 2 = 0 ∧ k.reg 3 ≠ 0 ∧ ends (exec (.brz 0 2 7) s) (s.setCore 0 (k.goes 7)) = true
    ∧ ends (exec (.brz 0 3 7) s) (s.setCore 0 (k.goes 3)) = true ∧ ends (exec (.brnz 0 3 7) s) (s.setCore 0 (k.goes 7)) = true
    ∧ ends (exec (.brnz 0 2 7) s) (s.setCore 0 (k.goes 3)) = true
    ∧ (k.reg 3).toInt < (k.reg 2).toInt ∧ ends (exec (.brlt 0 3 2 7) s) (s.setCore 0 (k.goes 7)) = true
    ∧ ends (exec (.brlt 0 2 3 7) s) (s.setCore 0 (k.goes 3)) = true := by decide +kernel

theorem witness_LoopEndReturnsOrLeaves :
    let s := one { run with loops := [loop1], pos := 5 }
    let k := s.core 0
    let s2 := one { run with loops := [{ loop1 with iter := 2 }], pos := 3 }
    let k2 := s2.core 0
    k.takes [] = true ∧ k.loops = [loop1] ∧ k.pos = loop1.last
    ∧ ends (exec (.nop 0) s) (s.setCore 0 { k.setReg 4 1 with loops := [{ loop1 with iter := 2 }], pos := 1, wait := .none }) = true
    ∧ k2.takes [] = true ∧ landsIn [] k2.progLen 6 = true
    ∧ ends (exec (.jmp 0 6) s2) (s2.setCore 0 (({ k2 with loops := [] }).goes 6)) = true
    ∧ k2.pending 4 = false ∧ (k2.reg 4).toNat % 2 ^ 32 = 0
    ∧ stopped (after (exec (.loop 0 5 4 true 0 false 7) s2)) 0 0 .rejected .zeroExtent 3 = true := by decide +kernel

theorem witness_RunningPastTheProgramTraps :
    let s := one { run with pos := 7 }
    let k := s.core 0
    k.takes [] = true ∧ k.loops = [] ∧ k.pos + 1 = k.progLen
    ∧ stopped (after (exec (.nop 0) s)) 0 0 .faulted .patternTrap 8 = true
    ∧ ((after (exec (.nop 0) s)).core 0).fault.map (·.word) = some 0
    ∧ stopped (after (exec (.trap 0 0xFFFF) s)) 0 0 .faulted .patternTrap 7 = true
    ∧ ((after (exec (.trap 0 0xFFFF) s)).core 0).fault.map (fun f => bitsOf f.extra.toNat 192 16) = some 0xFFFF := by decide +kernel

/-- A queued SEND that waits for nothing. -/
def sendEntry : QEntry :=
  { word := 0, pos := 1, wait := none, granted := false, signal := none, stalled := none, op := .send 97 1 4 70 0x1234 }

/-- A command in progress. -/
def flight (q : QEntry) : InFlight :=
  { entry := q, reads := [], writes := [], held := false, tries := 0, output := none, link := none, done := false, result := none, chain := none }

/-- A core with a command queued at its Message Unit. -/
def busy : Core := run.setQueue 4 { issue := [sendEntry], prog := [] }

theorem witness_HaltDrainsThenIdles :
    let s := one { run with loops := [loop1] }
    let k := s.core 0
    let h := one { run with loops := [loop1], wait := .halt }
    let b := one { busy with wait := .halt }
    k.takes [] = true ∧ ends (exec (.halt 0) s) (s.setCore 0 { k with wait := .halt }) = true
    ∧ (h.core 0).st = .running ∧ (h.core 0).wait = .halt ∧ (h.core 0).drained 31 = true ∧ (h.core 0).latch = none
    ∧ ends (exec (.haltDrainEnd 0) h)
        ((h.emit (.halted 0)).setCore 0 { h.core 0 with st := .idle, wait := .none, loops := [], bhold := none }) = true
    ∧ (b.core 0).drained 31 = false ∧ ends (exec (.haltDrainEnd 0) b) b = true := by decide +kernel

theorem witness_FencesAndBarriersWait :
    let s := one run
    let k := s.core 0
    let b := one busy
    let f := one { run with wait := .fence 16 }
    let fb := one { busy with wait := .fence 16 }
    let bf := one { run with wait := .barrierFence 3 }
    let r := one { run with wait := .barrier 3 true }
    k.takes [] = true ∧ k.lands 3 = true ∧ k.drained 31 = true ∧ (b.core 0).takes [] = true ∧ (b.core 0).drained 16 = false
    ∧ ends (exec (.fence 0 31) s) (s.setCore 0 (k.goes 3)) = true
    ∧ (b.core 0).drained 15 = true ∧ ends (exec (.fence 0 15) b) (b.setCore 0 ((b.core 0).goes 3)) = true
    ∧ ends (exec (.fence 0 16) b) (b.setCore 0 { b.core 0 with wait := .fence 16 }) = true
    ∧ ends (exec (.barrier 0 3 true) s)
        ((s.setCore 0 { k with phase := k.phase.set 3 true, wait := .barrier 3 false }).emit (.barrierArrival 0 3 false)) = true
    ∧ ends (exec (.barrier 0 3 false) b)
        ((b.setCore 0 { b.core 0 with phase := k.phase.set 3 true, wait := .barrier 3 false }).emit (.barrierArrival 0 3 false)) = true
    ∧ ends (exec (.barrier 0 3 true) b) (b.setCore 0 { b.core 0 with wait := .barrierFence 3 }) = true
    ∧ (f.core 0).wait = .fence 16 ∧ ends (exec (.fenceEnd 0) f) (f.setCore 0 ((f.core 0).goes 3)) = true
    ∧ (fb.core 0).drained 16 = false ∧ ends (exec (.fenceEnd 0) fb) fb = true
    ∧ (bf.core 0).wait = .barrierFence 3 ∧ ((after (exec (.fenceEnd 0) bf)).core 0).wait = .barrier 3 false
    ∧ (r.core 0).wait = .barrier 3 true ∧ ends (exec (.barrierRelease 0 3 true) r) (r.setCore 0 ((r.core 0).goes 3)) = true
    ∧ ends (exec (.barrierRelease 0 3 false) r) r = true := by decide +kernel

theorem witness_BarrierRootReleasesWhenAllHaveArrived :
    let half := base.setPat 0 { pattern with regions := [{ region with arrived := [(7, [1])] }] }
    let s := half.setCore 0 runP
    let n := oneP runP
    (s.core 0).pat = some 0 ∧ (s.coreRegion (s.core 0)).map (·.cores) = some [0, 1] ∧ (∀ x ∈ region.cores, (s.core x).st ≠ .stopped)
    ∧ 0 ∉ Sparse.get [] [(7, [1])] (2 * 3 + b2n true)
    ∧ (after (exec (.barrierArrival 0 3 true) s)).out = [.barrierRelease 0 3 true, .barrierRelease 1 3 true]
    ∧ ((after (exec (.barrierArrival 0 3 true) s)).coreRegion runP).map (·.arrived) = some []
    ∧ (after (exec (.barrierArrival 0 3 true) n)).out = []
    ∧ ((after (exec (.barrierArrival 0 3 true) n)).coreRegion runP).map (·.arrived) = some [(7, [0])] := by decide +kernel

/-- The head of an engine's queue that waits for semaphore 63. -/
def waitHead (p : Nat) : QEntry :=
  { word := 0, pos := p, wait := some 63, granted := false, signal := none, stalled := none, op := .credit 0 1 }

theorem witness_SemaphoresCountAndSaturateNowhere :
    let s := one (run.setSem 63 65535)
    let k := s.core 0
    let w := one { run.setSem 63 2 with wait := .sem 63 2 }
    let v := one { run.setSem 63 1 with wait := .sem 63 2 }
    let x := ((run.setQueue 1 { issue := [waitHead 5], prog := [] }).setQueue 4 { issue := [waitHead 4], prog := [] }).setSem 63 1
    k.takes [] = true ∧ k.lands 3 = true ∧ (∀ e, (k.queue e).issue = [])
    ∧ ends (exec (.semset 0 63 0) s) (s.setCore 0 ((k.setSem 63 0).goes 3)) = true
    ∧ ends (exec (.semsig 0 62 0xFFFF) s) (s.setCore 0 ((k.setSem 62 65535).goes 3)) = true
    ∧ stopped (after (exec (.semsig 0 63 1) s)) 0 0 .faulted .semOverflow 2 = true
    ∧ ends (exec (.semwait 0 63 0xFFFF) s) (s.setCore 0 ((k.setSem 63 0).goes 3)) = true
    ∧ ends (exec (.semwait 0 62 1) s) (s.setCore 0 { k with wait := .sem 62 1 }) = true
    ∧ (w.core 0).wait = .sem 63 2 ∧ ends (exec (.semWaitGrant 0) w) (w.setCore 0 (((w.core 0).setSem 63 0).goes 3)) = true
    ∧ (v.core 0).wait = .sem 63 2 ∧ ends (exec (.semWaitGrant 0) v) v = true
    ∧ (∀ y : Fin 5, y ≠ 1 → y ≠ 4 → (x.queue y).issue = []) ∧ x.room 1 = true ∧ x.room 4 = true ∧ x.sem 63 = 1
    ∧ (x.grantEngines.queue 1).issue = [{ waitHead 5 with granted := true }] ∧ (x.grantEngines.queue 4).issue = [waitHead 4]
    ∧ x.grantEngines.sem 63 = 0 := by decide +kernel

/-- A dispatch record. -/
def record : DispatchRec := { stepSeq := 0xFFFFFFFF, bucket := 2, ntoken := 1, nbatch := 1, lclass := 3 }

theorem witness_DispatchEntersTheLatchOrStartsTheCore :
    let s := oneP runP
    let f := oneP { runP with latch := some record }
    let i := oneP ({ runP with st := .idle, restart := 7, useRestart := true }.setReg 12 99)
    let j := oneP { runP with st := .idle, entry := 1 }
    (s.core 0).latch = none ∧ ends (exec (.dispatch 0 record) s) (s.setCore 0 { s.core 0 with latch := some record }) = true
    ∧ (f.core 0).latch ≠ none ∧ ends (exec (.dispatch 0 record) f) f = true ∧ ends (exec (.dispatch 0 record) (one Core.init)) (one Core.init) = true
    ∧ (i.core 0).st = .idle ∧ i.corePat (i.core 0) = some pattern ∧ (i.core 0).restart < (i.core 0).progLen
    ∧ (let k := (after (exec (.dispatch 0 record) i)).core 0
       k.st = .running ∧ k.pos = 7 ∧ k.reg 15 = 0xFFFFFFFF ∧ k.reg 14 = 2 ∧ k.reg 13 = 0 ∧ k.reg 12 = 99 ∧ k.useRestart = false)
    ∧ ((after (exec (.dispatch 0 record) j)).core 0).pos = 1 := by decide +kernel

/-- The head of a queue stalled at slot 9 of ring 200. -/
def stalledHead : QEntry := { sendEntry with stalled := some (200, 9), pos := 6 }

theorem witness_TimeoutsStopTheCore :
    let s := one { run with wait := .sem 5 1 }
    let f := one { run with wait := .fence 1 }
    let h := one { run with wait := .halt }
    let e := one (run.setQueue 4 { issue := [waitHead 4], prog := [] })
    let l := one (run.setQueue 2 { issue := [stalledHead], prog := [] })
    (s.core 0).st = .running ∧ stopped (after (exec (.stepTimeout 0) s)) 0 0 .faulted .stepTimeout 2 = true
    ∧ stopped (after (exec (.waitTimeout 0 0) s)) 0 0 .faulted .waitTimeout 2 = true
    ∧ stopped (after (exec (.waitTimeout 0 0) f)) 0 0 .faulted .waitTimeout 2 = true
    ∧ (h.core 0).wait = .halt ∧ ends (exec (.waitTimeout 0 0) h) h = true
    ∧ ((e.core 0).queue 4).issue = [waitHead 4] ∧ (e.core 0).room 4 = true
    ∧ stopped (after (exec (.waitTimeout 0 5) e)) 0 5 .faulted .waitTimeout 4 = true
    ∧ stalledHead.stalled = some (200, 9) ∧ ((l.core 0).queue 2).prog = []
    ∧ stopped (after (exec (.slotStall 0 2) l)) 0 3 .faulted .slotStall 6 = true
    ∧ ((after (exec (.slotStall 0 2) l)).core 0).fault.map (fun f => (bitsOf f.extra.toNat 144 8, bitsOf f.extra.toNat 152 8))
        = some (200, 9) := by decide +kernel

theorem witness_PendingRegistersStallAndArrive :
    let s := one { run with pend := [(3, some 70), (4, none)], wait := .reg 3 }
    let k := s.core 0
    k.atBoundary = true ∧ [1, 3, 2].find? (fun x => k.pending x) = some 3
    ∧ ends (exec (.add 0 2 1 3) s) (s.setCore 0 { k with wait := .reg 3 }) = true
    ∧ k.pend.find? (fun p => decide (p.1 = 3)) = some (3, some 70)
    ∧ (let t := (after (exec (.registerResult 0 3) s)).core 0
       t.reg 3 = 70 ∧ t.pending 3 = false ∧ t.pending 4 = true ∧ t.wait = .none)
    ∧ k.pend.find? (fun p => decide (p.1 = 4)) = some (4, none) ∧ ends (exec (.registerResult 0 4) s) s = true
    ∧ (let u := one { k with st := .stopped }
       ends (exec (.registerResult 0 3) u) u = true) := by decide +kernel

end Sys2Proof.Tests
end

