-- ==== Sys2Proof/Tests/Witness2.lean ====
section
/-! SUPPORT. States that meet the premises of the statements about a core's engines, each with what its clause concludes there. -/

namespace Sys2Proof.Tests

set_option Elab.async false

open Sys2Proof Sys2Proof.Machine

/-- A command waits for semaphore 5, signals semaphore 63, and has no index. -/
def plain : Common := { wen := true, wsem := 5, sen := true, ssem := 63, xen := false, xreg := 0, xsh := 0 }

/-- The same with S2, shifted by three, as its index. -/
def indexed : Common := { plain with xen := true, xreg := 2, xsh := 3 }

/-- A core whose S2 is 4. -/
def idx : Core := run.setReg 2 4

/-- An engine command is taken, and queued as its statement says. -/
def queued (k : Common) (i : Instr) (e : Fin 5) (w : CmdWord) (fld : BitVec 16) (dest : Option Reg) (op : EngineOp) : Bool :=
  idx.mayIssue e k w fld.toNat dest
    && ends (exec i (one idx)) (tryStart ((one idx).setCore 0 (idx.placed e (entryOf idx k w op) dest)) 0 e)

/-- A row command's fields: two rows of scratch. -/
def rowF : RowFields := { src := 3, dst := 4, param := 0, sub := 0, bank := 1 }

/-- A row command's fields with the bank as its source. -/
def bankF : RowFields := { src := 0xFFFF, dst := 0xFFFF, param := 32, sub := 0, bank := 1 }

theorem witness_CoreEngineCommandsAreQueued :
    queued indexed (.tmul 0 indexed 48095 4 4 1 2 2 true) 0 (tmulWord indexed 48095 4 4 1 2 2 true) 48095 none (.tmul 48127 4 .only 1 2 2 true) = true
    ∧ queued plain (.fchain 0 plain 48127 true 1) 0 (fchainWord plain 48127 true 1) 48127 none (.fchain 48127 true 1) = true
    ∧ queued indexed (.accrd 0 indexed 1 1) 0 (accrdWord indexed 1 1) 1 none (.accrd 33 1) = true
    ∧ queued plain (.rfunc 0 plain rowF) 1 (rowWord 0 plain rowF) 3 none (.row .rfunc 3 false rowF) = true
    ∧ queued plain (.rred 0 plain rowF) 1 (rowWord 1 plain rowF) 3 none (.row .rred 3 false rowF) = true
    ∧ queued indexed (.ralu 0 indexed rowF) 1 (rowWord 2 indexed rowF) 3 none (.row .ralu 35 false rowF) = true
    ∧ queued plain (.rrescale 0 plain bankF) 1 (rowWord 3 plain bankF) 0xFFFF none (.row .rrescale 0xFFFF true bankF) = true
    ∧ queued plain (.rtload 0 plain { rowF with dst := 0, bank := 0 }) 1 (rowWord 4 plain { rowF with dst := 0, bank := 0 }) 3 none
        (.row .rtload 3 false { rowF with dst := 0, bank := 0 }) = true
    ∧ queued plain (.rquant 0 plain { rowF with param := 1 }) 1 (rowWord 5 plain { rowF with param := 1 }) 3 none
        (.row .rquant 3 false { rowF with param := 1 }) = true
    ∧ queued indexed (.copy 0 indexed 1 0) 2 (streamWord 0 indexed 1 0) 1 none (.stream .copy 33 0) = true
    ∧ queued plain (.streamGather 0 plain 1 48127) 2 (streamWord 1 plain 1 48127) 1 none (.stream .gather 1 48127) = true
    ∧ queued plain (.scatter 0 plain 1 2) 2 (streamWord 2 plain 1 2) 1 none (.stream .scatter 1 2) = true
    ∧ queued plain (.tcopy 0 plain 1 0) 2 (streamWord 3 plain 1 0) 1 none (.stream .tcopy 1 0) = true
    ∧ queued plain (.send 0 plain 4223 7 0 4096 0xFFFF) 4 (sendWord plain 4223 7 0 4096 0xFFFF) 0 none (.send 4223 7 0 4096 0xFFFF) = true
    ∧ queued plain (.recv 0 plain 7 true 9 0 15 true) 4 (recvWord plain 7 true 9 0 15 true) 9 (some 15) (.recv 7 true 9 0 (some 15)) = true
    ∧ queued plain (.recv 0 plain 7 false 9 0 0 false) 4 (recvWord plain 7 false 9 0 0 false) 9 none (.recv 7 false 9 0 none) = true
    ∧ queued plain (.credit 0 plain 7 0xFFFF) 4 (creditWord plain 7 0xFFFF) 0 none (.credit 7 0xFFFF) = true := by decide +kernel

theorem witness_VaultCommandsAreQueued :
    queued plain (.vaultGather 0 plain ⟨48127, 5⟩) 3 (vaultWord 0 plain 48127 5 false) 48127 none (.vault .gather 48127 none) = true
    ∧ queued indexed (.scadd 0 indexed ⟨2, 5⟩) 3 (vaultWord 1 indexed 2 5 false) 2 none (.vault .scadd 34 none) = true
    ∧ queued plain (.merge 0 plain ⟨2, 5⟩) 3 (vaultWord 2 plain 2 5 false) 2 none (.vault .merge 2 none) = true
    ∧ queued plain (.topk 0 plain ⟨2, 5⟩) 3 (vaultWord 3 plain 2 5 false) 2 none (.vault .topk 2 none) = true
    ∧ queued plain (.vaultRred 0 plain ⟨2, 5⟩) 3 (vaultWord 4 plain 2 5 false) 2 none (.vault .rred 2 none) = true
    ∧ queued plain (.fill 0 plain ⟨2, 5⟩) 3 (vaultWord 5 plain 2 5 false) 2 none (.vault .fill 2 none) = true
    ∧ queued plain (.decomp 0 plain ⟨2, 5⟩) 3 (vaultWord 6 plain 2 5 false) 2 none (.vault .decomp 2 none) = true
    ∧ queued plain (.ctrsetInit 0 plain ⟨2, 5⟩) 3 (vaultWord 8 plain 2 5 false) 2 none (.vault .ctrset 2 none) = true
    ∧ queued plain (.ctrsetDone 0 plain ⟨2, 5⟩) 3 (vaultWord 8 plain 2 5 false) 2 none (.vault .ctrset 2 none) = true
    ∧ queued plain (.ctrsetRelease 0 plain ⟨2, 5⟩) 3 (vaultWord 8 plain 2 5 false) 2 none (.vault .ctrset 2 none) = true
    ∧ queued plain (.unlock 0 plain ⟨2, 5⟩) 3 (vaultWord 10 plain 2 5 false) 2 none (.vault .unlock 2 none) = true
    ∧ queued plain (.ctradd 0 plain 2 15) 3 (vaultWord 7 plain 2 15 true) 2 (some 15) (.vault .ctradd 2 (some 15)) = true
    ∧ queued plain (.lock 0 plain 2 0) 3 (vaultWord 9 plain 2 0 true) 2 (some 0) (.vault .lock 2 (some 0)) = true := by decide +kernel

/-- A queued command of the Stream Engine that waits. -/
def copyHead : QEntry :=
  { word := 0, pos := 1, wait := some 7, granted := false, signal := none, stalled := none, op := .stream .copy 1 0 }

theorem witness_IssueStallsOrRejects :
    let full := run.setQueue 2 { issue := List.replicate 16 copyHead, prog := [] }
    let s := one full
    let n := one (run.setReg 2 4)
    let u := { plain with xen := true, xreg := 2, xsh := 3 }
    full.takes [] = true ∧ staticCheck (streamWord 0 plain 1 0) = none ∧ 16 ≤ (full.queue 2).issue.length
    ∧ ends (exec (.copy 0 plain 1 0) s) (s.setCore 0 { full with wait := .queue 2 }) = true
    ∧ (n.core 0).takes [2] = true ∧ staticCheck (streamWord 0 u 48096 0) = none
    ∧ (48096 : BitVec 16).toNat + ((n.core 0).reg 2).toNat * 2 ^ 3 = 48128
    ∧ stopped (after (exec (.copy 0 u 48096 0) n)) 0 0 .rejected .indexRange 2 = true
    ∧ staticCheck (streamWord 0 plain 1 1) = some .badCommand
    ∧ stopped (after (exec (.copy 0 plain 1 1) n)) 0 0 .rejected .badCommand 2 = true := by decide +kernel

theorem witness_CommandWordsRoundTrip :
    commandWord (.send 7 indexed 0x1FFF 7 0xFFFF 0x1FFF 0xFFFF) = some (sendWord indexed 0x1FFF 7 0xFFFF 0x1FFF 0xFFFF)
    ∧ commandOf 7 0 (sendWord indexed 0x1FFF 7 0xFFFF 0x1FFF 0xFFFF) = some (.send 7 indexed 0x1FFF 7 0xFFFF 0x1FFF 0xFFFF)
    ∧ commandWord (.loop 7 0xFFFF 15 true 15 true 2047) = some (loopWord 0xFFFF 15 true 15 true 2047)
    ∧ commandOf 7 0 (loopWord 0xFFFF 15 true 15 true 2047) = some (.loop 7 0xFFFF 15 true 15 true 2047) := by decide +kernel

/-- A SEND to core 1 of the Pattern, from unit 4, 70 bytes. -/
def sendHead : QEntry :=
  { word := 0, pos := 1, wait := none, granted := false, signal := none, stalled := none, op := .send 98 1 4 70 0x1234 }

theorem witness_EnginesStartTheirHeadInOrder :
    let i := one { run with st := .idle }
    let s := one run
    let w := one (run.setQueue 4 { issue := [{ sendHead with wait := some 3 }], prog := [] })
    let g := oneP (runP.setQueue 4 { issue := [sendHead], prog := [] })
    let st := one (run.setQueue 4 { issue := [sendHead], prog := [] })
    let ring : Ring := Ring.ofDecl { base := 4, slotsz := 2, nslot := 1, prod := 3, cons := 5, uses := 1, reservedOk := true }
    let sl := oneP ({ runP with rings := [ring] }.setQueue 4 { issue := [sendHead], prog := [] })
    (i.core 0).st ≠ .running ∧ ends (exec (.engineCommandStart 0 4) i) i = true
    ∧ chainOpen (s.core 0) = none ∧ ((s.core 0).grantEngines.queue 0).issue = [] ∧ ends (exec (.engineCommandStart 0 0) s) s = true
    ∧ ((w.core 0).grantEngines.queue 4).issue = [{ sendHead with wait := some 3 }] ∧ ends (exec (.engineCommandStart 0 4) w) w = true
    ∧ (match startEntry g 0 (g.core 0) sendHead with
       | .go t fl => ends (exec (.engineCommandStart 0 4) g) (headStarted t 0 4 fl)
       | _ => false) = true
    ∧ (match startEntry st 0 (st.core 0) sendHead with
       | .stop t x => ends (exec (.engineCommandStart 0 4) st) (stopCore t 0 4 sendHead x)
       | _ => false) = true
    ∧ (match startEntry sl 0 (sl.core 0) sendHead with
       | .stall r n => ends (exec (.engineCommandStart 0 4) sl) (headStalls sl 0 4 r n)
       | _ => false) = true := by decide +kernel

/-- A command in progress that signals. -/
def flightOf (q : QEntry) : InFlight :=
  { entry := q, reads := [], writes := [], held := false, tries := 0, output := none, link := none, done := false, result := none, chain := none }

theorem witness_SignalsRiseInQueueOrder :
    let f := flightOf { sendHead with signal := some 4 }
    let g := flightOf { sendHead with signal := some 9 }
    let s := one ((run.setSem 4 65534).setQueue 2 { issue := [], prog := [f, g] })
    let k := s.core 0
    let t := after (exec (.engineCommandComplete 0 2 1) s)
    let u := after (exec (.engineCommandComplete 0 2 0) t)
    k.st = .running ∧ (k.queue 2).prog = [f, g] ∧ k.sem 4 < 65535 ∧ k.sem 9 < 65535
    ∧ (t.core 0).sems = k.sems ∧ ((t.core 0).queue 2).prog = [f, { g with done := true }]
    ∧ ((u.core 0).queue 2).prog = [] ∧ (u.core 0).sem 4 = 65535 ∧ (u.core 0).sem 9 = 1 := by decide +kernel

/-- A producer's entry for queue 1 of core 1. -/
def entry (credits grant : Nat) : ProdEnt := { dest := 1, q := 1, epoch := 6, credits := credits, grant := grant }

theorem witness_SendSpendsCreditsAndInjectsItsItem :
    let k (c g : Nat) : Core := { runP with prod := [entry c g], scratch := [(256, 0x11), (325, 0x22)] }.setQueue 4 { issue := [sendHead], prog := [] }
    let s := oneP (k 3 3)
    let small := oneP (k 3 2)
    let held := oneP (k 2 3)
    let t := after (exec (.engineCommandStart 0 4) s)
    (k 3 3).onlyHead 4 sendHead = true ∧ (s.corePat (s.core 0)).bind (fun p => p.placed 98) = some 1
    ∧ (s.core 0).prodEnt 1 1 = some (entry 3 3) ∧ 1 + (70 + 63) / 64 = 3
    ∧ t.out = [.item 1 { src := 0, dq := 1, epoch := 6, tag := 0x1234, len := 70, data := rdBytes (k 3 3).scratch 256 70 }]
    ∧ (t.core 0).prodEnt 1 1 = some (entry 0 3)
    ∧ stopped (after (exec (.engineCommandStart 0 4) small)) 0 5 .rejected .msgLength 1 = true
    ∧ (let d (n : Nat) : State := oneP (runP.setQueue 4 { issue := [{ sendHead with op := .send n 1 4 70 0 }], prog := [] })
       stopped (after (exec (.engineCommandStart 0 4) (d 4224))) 0 5 .rejected .msgDest 1
         && stopped (after (exec (.engineCommandStart 0 4) (d 4223))) 0 5 .rejected .msgDest 1) = true
    ∧ (after (exec (.engineCommandStart 0 4) held)).out = []
    ∧ (((after (exec (.engineCommandStart 0 4) held)).core 0).queue 4).prog.map (·.held) = [true]
    ∧ ((after (exec (.engineCommandStart 0 4) held)).core 0).prodEnt 1 1 = some (entry 2 3) := by decide +kernel

/-- A RECV of queue 2 to the last units below the reserved top. -/
def recvHead (blk : Bool) (maxlen : Nat) : QEntry :=
  { word := 0, pos := 1, wait := none, granted := false, signal := none, stalled := none, op := .recv 2 blk 48125 maxlen (some 6) }

/-- An item of three words. -/
def item : Item := { src := 1, dq := 2, epoch := 0, tag := 5, len := 65, data := List.replicate 65 0xAB }

/-- A receive queue of eight words that holds items. -/
def recvq (l : List Item) : RecvQ := { RecvQ.reset with depth := 8, pool := 5, items := l }

theorem witness_RecvTakesTheOldestItem :
    let s (blk : Bool) (maxlen : Nat) (l : List Item) : State :=
      oneP ((runP.setRecvq 2 (recvq l)).setQueue 4 { issue := [recvHead blk maxlen], prog := [] })
    let t := after (exec (.engineCommandStart 0 4) (s false 128 [item, item]))
    let e := after (exec (.engineCommandStart 0 4) (s false 128 []))
    let w := after (exec (.engineCommandStart 0 4) (s true 128 []))
    ((s false 128 [item]).core 0).onlyHead 4 (recvHead false 128) = true ∧ 48125 * 64 + (64 + (128 + 63) / 64 * 64) = 0x2F0000
    ∧ ((t.core 0).recvq 2).items = [item] ∧ (t.core 0).scratch = wrBytes [] (48125 * 64) (itemBytes 98 item)
    ∧ (itemBytes 98 item).length = 192 ∧ ((t.core 0).queue 4).prog.map (·.result) = [some (6, 65)]
    ∧ t.out = [.creditReturn 1 0 2 0 3]
    ∧ stopped (after (exec (.engineCommandStart 0 4) (s false 64 [item]))) 0 5 .faulted .msgTrunc 1 = true
    ∧ (e.core 0).scratch = wrBytes [] (48125 * 64) (List.replicate 64 0xFF)
    ∧ ((e.core 0).queue 4).prog.map (·.result) = [some (6, BitVec.allOnes 64)]
    ∧ (w.core 0).scratch = [] ∧ ((w.core 0).queue 4).prog.map (·.held) = [true]
    ∧ spillLost (s false 128 [item]) 0 2 (min 3 (spillWords (recvq [item]).words)) = none
    ∧ (let b := oneP ((runP.setRecvq 2 { recvq [item] with ptr := (3, 6), ptr2 := (3, 7) }).setQueue 4 { issue := [recvHead false 128], prog := [] })
       let u := after (exec (.engineCommandStart 0 4) b)
       stopped u 0 5 .faulted .queuePtr 1 && decide (((u.core 0).recvq 2).epoch = 1 ∧ ((u.core 0).recvq 2).items = []
         ∧ ((u.core 0).recvq 2).pool = 8)) = true := by decide +kernel

theorem witness_ItemsArriveOrAreTurnedAway :
    let s := oneP (runP.setRecvq 2 (recvq [item]))
    let i : Item := { item with dq := 10, len := 0, data := [] }
    (s.core 0).st = .running ∧ ((s.core 0).queue 4).prog = [] ∧ ((s.core 0).recvq 2).depth ≠ 0 ∧ ((s.core 0).recvq 2).epoch = i.epoch
    ∧ (after (exec (.itemArrival 0 i true) s)).core 0 = (s.core 0).setRecvq 2 { recvq [item, i] with ptr := (0, 1), ptr2 := (0, 1) }
    ∧ spillOf s 0 2 = none
    ∧ (let b := oneP (runP.setRecvq 2 { recvq [item] with ptr := (3, 6), ptr2 := (3, 7) })
       stopped (after (exec (.itemArrival 0 i true) b)) 0 5 .faulted .queuePtr 2) = true
    ∧ (after (exec (.itemArrival 0 { i with epoch := 1 } true) s)).out = [.stale 1 0 2]
    ∧ (after (exec (.itemArrival 0 { i with dq := 3 } true) s)).out = [.stale 1 0 3]
    ∧ stopped (after (exec (.itemArrival 0 i false) s)) 0 5 .faulted .queuePtr 2 = true
    ∧ ((after (exec (.itemArrival 0 i false) s)).core 0).recvq 2 = { recvq [] with pool := 8, epoch := 1 } := by decide +kernel

theorem witness_ThresholdRaisesItsSemaphoreOnce :
    let s := oneP (runP.setRecvq 2 { recvq [item] with thresh := 4, tsem := 63 })
    let i : Item := { item with len := 0, data := [] }
    let t := after (exec (.itemArrival 0 i true) s)
    let u := after (exec (.itemArrival 0 i true) t)
    ((s.core 0).recvq 2).armed = true ∧ ({ recvq [item] with items := [item, i] }).words = 4 ∧ (s.core 0).sem 63 < 65535
    ∧ (t.core 0).sem 63 = 1 ∧ (u.core 0).sems = (t.core 0).sems ∧ ((u.core 0).recvq 2).items = [item, i, i] := by decide +kernel

theorem witness_ConnectionsGrantCreditsOnce :
    let s := oneP ({ runP with prod := [entry 2 3], connWait := some (5, 6) }.setRecvq 2 (recvq []))
    let k := s.core 0
    let low := oneP (runP.setRecvq 2 { recvq [] with grant := 6 })
    let fit := oneP (runP.setRecvq 2 { recvq [] with grant := 5 })
    (k.recvq 3).depth = 0 ∧ ends (exec (.connect 0 3 1 none) s) (s.emit (.connectReply 1 0 3 (some 0) 0)) = true
    ∧ ((fit.core 0).recvq 2).effGrant = 5 ∧ ((fit.core 0).recvq 2).pool = 5
    ∧ ends (exec (.connect 0 2 1 none) fit) ((fit.setCore 0 ((fit.core 0).setRecvq 2 { recvq [] with grant := 5, pool := 0 })).emit
        (.connectReply 1 0 2 (some 5) 0)) = true
    ∧ ((low.core 0).recvq 2).pool < ((low.core 0).recvq 2).effGrant
    ∧ ends (exec (.connect 0 2 1 none) low) (low.emit (.connectReply 1 0 2 none 0)) = true
    ∧ (after (exec (.connect 0 2 1 (some 1)) s)).out = [.stale 1 0 2]
    ∧ ends (exec (.disconnect 0 2 1 0 3) s) (s.setCore 0 (k.setRecvq 2 { recvq [] with pool := 8 })) = true
    ∧ (after (exec (.disconnect 0 2 1 1 3) s)).cores = s.cores ∧ (after (exec (.disconnect 0 2 1 1 3) s)).out = [.stale 1 0 2]
    ∧ k.st = .running ∧ (k.queue 4).prog = []
    ∧ ((after (exec (.connectReply 0 5 6 (some 4) 7) s)).core 0).prodEnt 5 6 = some { dest := 5, q := 6, epoch := 7, credits := 4, grant := 4 }
    ∧ ends (exec (.connectReply 0 5 6 none 7) s) (s.setCore 0 { k with connWait := some (5, 6) }) = true
    ∧ k.connWait = some (5, 6) ∧ ends (exec (.connectRetry 0) s) (s.setCore 0 { k with connWait := none }) = true
    ∧ k.prodEnt 1 1 = some (entry 2 3) ∧ ((after (exec (.creditReturn 0 1 1 6 1) s)).core 0).prodEnt 1 1 = some (entry 3 3)
    ∧ k.prodEnt 1 2 = none ∧ ends (exec (.creditReturn 0 1 2 6 1) s) (s.emit (.disconnect 1 2 0 6 1)) = true
    ∧ ((after (exec (.stale 0 1 1) s)).core 0).prodEnt 1 1 = none := by decide +kernel

end Sys2Proof.Tests
end

