-- ==== Sys2Proof/Tests/Witness3.lean ====
section
/-! SUPPORT. States that meet the premises of the statements about the NMU, number formats, vaults and migration, each with what its clause
concludes there. -/

namespace Sys2Proof.Tests

set_option Elab.async false

open Sys2Proof Sys2Proof.Machine

/-- A vault command at the head of the NMU's queue, its descriptor at unit 4. -/
def vaultHead (op : VaultOp) (dreg : Option Reg) : QEntry :=
  { word := 0, pos := 1, wait := none, granted := false, signal := none, stalled := none, op := .vault op 4 dreg }

/-- A command in progress that is held for its lock at SEG address 64. -/
def lockFlight (tries : Nat) : InFlight :=
  { entry := vaultHead .lock (some 7), reads := [], writes := [], held := true, tries := tries, output := none, link := some 64, done := false,
    result := none, chain := none }

theorem witness_LocksAreAcquiredOrRetried :
    let at_ (w tries : Nat) : State :=
      { oneP (runP.setQueue 3 { issue := [], prog := [lockFlight tries] }) with mem := wrNat [] (5 * 65536 + 64) 16 (pair 64 w) }
    let own := at_ (lockWord 0 5 1 false) 2
    let full := oneP ({ runP with locks := List.replicate 16 (128, 1) }.setQueue 3 { issue := [], prog := [lockFlight 2] })
    let last := at_ (lockWord 9 7 1 false) 1
    let br := after (exec (.lockRetry 0) (at_ (lockWord 9 7 2 false) 2))
    let s := at_ (lockWord 9 65535 0 true) 2
    let h := at_ (lockWord 9 65535 1 false) 2
    let t := after (exec (.lockRetry 0) s)
    (s.core 0).st = .running ∧ lockGet s (s.corePat (s.core 0)) 64 = .ok (lockWord 9 65535 0 true) ∧ lockState (lockWord 9 65535 0 true) = 0
    ∧ (t.core 0).locks = [(64, 0)] ∧ ((t.core 0).queue 3).prog.map (fun f => (f.held, f.result)) = [(false, some (7, 2 * 2 ^ 16))]
    ∧ lockGet t (t.corePat (t.core 0)) 64 = .ok (lockWord 0 0 1 true)
    ∧ lockGet h (h.corePat (h.core 0)) 64 = .ok (lockWord 9 65535 1 false) ∧ lockState (lockWord 9 65535 1 false) = 1
    ∧ lockOwner (lockWord 9 65535 1 false) = 9
    ∧ (after (exec (.lockRetry 0) h)).core 0 = (h.core 0).setQueue 3 { issue := [], prog := [lockFlight 1] }
    ∧ (after (exec (.lockRetry 0) h)).mem = h.mem
    ∧ ((after (exec (.lockRetry 0) last)).core 0).queue 3
        = { issue := [], prog := [{ lockFlight 0 with held := false, link := none, result := some (7, 7 + 2 ^ 16) }] }
    ∧ (br.core 0).locks = [(64, 8)] ∧ lockGet br (br.corePat (br.core 0)) 64 = .ok (lockWord 0 8 1 false)
    ∧ stopped (after (exec (.lockRetry 0) own)) 0 4 .rejected .lockOwner 1 = true
    ∧ stopped (after (exec (.lockRetry 0) full)) 0 4 .rejected .lockLimit 1 = true := by decide +kernel

/-- A FILL of two words from offset 0 of segment 0 with the byte 0x5A. -/
def fillDesc : Nat := nmuDesc (1 * 2 ^ 4 + 2 * 2 ^ 32 + 0x5A5A5A5A * 2 ^ 64 + 0x5A5A5A5A * 2 ^ 96) (128 * 2 ^ 64)

theorem witness_SegmentStoresTouchOnlyTheirBytes :
    let s := oneP ({ runP with scratch := wrNat [] 256 128 fillDesc }.setQueue 3 { issue := [vaultHead .fill none], prog := [] })
    let t := after (exec (.engineCommandStart 0 3) s)
    let m := { s with helm := { s.helm with migs := [{ pat := 0, seg := 0, page := 0, oldF := 5, newF := 9, copied := false, waitSeq := 0, halted := false }] } }
    (s.core 0).onlyHead 3 (vaultHead .fill none) = true ∧ firstStop (nmuChecks (s.corePat (s.core 0)) .fill fillDesc 4) = none
    ∧ descAt (s.core 0).scratch 4 = fillDesc ∧ NDesc.count fillDesc = 2
    ∧ (∀ i < 2, xlateSeg (s.corePat (s.core 0)) (segOf (NDesc.vbase fillDesc)) (ofsOf (NDesc.vbase fillDesc) + 64 * i) false true = .ok segment)
    ∧ t.mem = wrBytes [] (5 * 65536) (List.replicate 128 0x5A)
    ∧ (dualFrame m 0 0 0).map frameAddr = some (9 * 65536) ∧ (segPut m 0 0 segment 3 7).mem = [(5 * 65536 + 3, 7), (9 * 65536 + 3, 7)]
    ∧ (segPut s 0 0 { segment with wr := false, parity := [9] } 3 7).mem = [(5 * 65536 + 3, 7), (9 * 65536 + 3, 7)] := by decide +kernel

/-- A CTRADD of the counter at offset 64 of segment 0 with increment 5. -/
def ctrDesc : Nat := nmuDesc (1 * 2 ^ 4 + 5 * 2 ^ 64) (64 + 64 * 2 ^ 64)

/-- A counter record: its NEXT and LIMIT with their complements, and no claims. -/
def counter (next limit : Nat) : Nat := pair 32 next + pair 32 limit * 2 ^ 64 + pair 64 0 * 2 ^ 128

theorem witness_CounterDrawsAreConsecutive :
    let at_ (next : Nat) : State :=
      { oneP ({ runP with scratch := wrNat [] 256 128 ctrDesc }.setQueue 3 { issue := [vaultHead .ctradd (some 2)], prog := [] }) with
        mem := wrNat [] (5 * 65536 + 64) 64 (counter next 10) }
    let s := at_ 7
    let e := at_ 10
    let p := s.corePat (s.core 0)
    let t := after (exec (.engineCommandStart 0 3) s)
    (s.core 0).onlyHead 3 (vaultHead .ctradd (some 2)) = true ∧ firstStop (nmuChecks p .ctradd ctrDesc 4) = none
    ∧ ctrGet s p 64 = .ok (counter 7 10) ∧ ctrClaim (counter 7 10) = false ∧ ctrNotify s 0 (recVault p 64) 64 = none
    ∧ ctrNext (counter 7 10) = 7 ∧ ctrLimit (counter 7 10) = 10
    ∧ ((t.core 0).queue 3).prog.map (·.result) = [some (2, 7)]
    ∧ t.mem = (recPut (s.setCore 0 (s.core 0)) 0 p 64 8 (pair 32 10)).mem ∧ ctrGet t p 64 = .ok (counter 10 10)
    ∧ ctrGet e p 64 = .ok (counter 10 10)
    ∧ (((after (exec (.engineCommandStart 0 3) e)).core 0).queue 3).prog.map (·.result) = [some (2, 0x3FFFFFFFF)]
    ∧ (after (exec (.engineCommandStart 0 3) e)).mem = e.mem := by decide +kernel

theorem witness_RequantisationRoundsHalfToEven :
    |2 * (rq 5 1 * 2 ^ 1 - 5)| = 2 ^ 1 ∧ rq 5 1 = 2 ∧ rq 7 1 = 4 ∧ rq (-5) 1 = -2 ∧ rq 5 (-3) = 40 := by decide +kernel

/-- A PLANE header of I8 output. -/
def planeHdr : Hdr := hdrOf 1

/-- A group of 32 whose greatest element is 2^31 − 1. -/
def bigGroup : List Int := 2147483647 :: List.replicate 31 (-1)

/-- A first pass that overflows below the exponent 2. -/
def fussy (_ : List Int) (x : Int) : Option Nat := if x < 2 then none else some 5

theorem witness_ShiftsAreOnlyAsLargeAsNeeded :
    planeHdr.uniform = false ∧ planeHdr.etype = 1 ∧ bigGroup.length = 32 ∧ (∀ v ∈ bigGroup, fitsS 32 v = true)
    ∧ fitsS 8 (rq 2147483647 25) = true ∧ fitsS 8 (rq 2147483647 24) = false
    ∧ requant planeHdr (-153) bigGroup = some { vals := 64 :: List.replicate 31 0, g := some (-128), sat := 0 }
    ∧ requant planeHdr (-154) bigGroup = none ∧ requant planeHdr 102 bigGroup = some { vals := 64 :: List.replicate 31 0, g := some 127, sat := 0 }
    ∧ requant { planeHdr with etype := 3 } 0 bigGroup = some { vals := bigGroup, g := some 0, sat := 0 }
    ∧ requant planeHdr 0 (List.replicate 32 0) = some { vals := List.replicate 32 0, g := some 0, sat := 0 } := by decide +kernel

theorem witness_ShiftsAreOnlyAsLargeAsNeeded_guarded :
    (match guarded [[none]] [[none]] fussy 3 0 [2147483647] 0 with
     | .done acc x n out => decide (acc = [536870912] ∧ x = 2 ∧ n = 1 ∧ out = 5)
     | .fail _ _ => false) = true := by decide +kernel

theorem witness_TopkAndMergeOrderTheirEntries :
    let as : List (List Nat) := [[0, 3], [1, 2]]
    let bs : List (List Nat) := [[0, 3], [4294967295, 0]]
    (∀ a ∈ as, a.length = 2) ∧ (∀ b ∈ bs, b.length = 2) ∧ strictly as = true ∧ strictly bs = true
    ∧ mergeLists 5 as bs = [([0, 3], 3), ([1, 2], 1), ([4294967295, 0], 2)]
    ∧ topkPick 2 [5, -2147483648, 9, 5] = [0, 2] ∧ topkPick 3 [-2147483648, 1] = [1] := by decide +kernel

/-- The last codeword of the last vault. -/
def lastWord : Nat := 4608 * 1073741824 - 32

theorem witness_VaultReadsReturnOrStop :
    let s := { one run with mem := [(lastWord, 0x77)] }
    let v := 4607
    let ofs := 1073741823
    let t := after (exec (.vaultReadRequest v ofs (some (0, 0)) .clean .clean) s)
    let u := after (exec (.vaultReadRequest v ofs none (.corrected 0x99) .clean) s)
    let x := after (exec (.vaultReadRequest v ofs (some (0, 0)) .uncorrectable .uncorrectable) s)
    v < Config.nSites ∧ ofs < Config.vaultBytes ∧ issuerOk (some (0, 0)) = true ∧ v * Config.vaultBytes + ofs / 32 * 32 = lastWord
    ∧ s.lostAt lastWord = false ∧ t.out = [.readData 0x77] ∧ Sparse.get none (t.vault v).openRows 63 = some 8191 ∧ t.mem = s.mem
    ∧ Sparse.get 0 (s.vault v).ceRows (physBank lastWord * 8192 + physRow lastWord) ≠ 15
    ∧ u.out = [.readData 0x99] ∧ u.mem = [(lastWord, 0x99)]
    ∧ u.helm.reports = [{ num := 0, addr := lastWord, decoded := 0x99, resolved := false, steps := [] }]
    ∧ (s.core 0).st = .running ∧ s.helm.migs = [] ∧ ownerOf s (lastWord / 65536) = .none
    ∧ stopped x 0 0 .faulted .vaultUe 2 = true ∧ x.mem = s.mem
    ∧ ends (exec (.patrolRead v 31 .clean .clean) s)
        (openRow (s.setVault v { s.vault v with ceRows := [] }) (4607 * 1073741824)) = true
    ∧ ends (exec (.patrolRead v 32 .clean .clean) s) (openRow s (4607 * 1073741824 + 32)) = true
    ∧ ends (exec (.refreshOperation v 63) t) t = true
    ∧ ends (exec (.refreshOperation v 63) (t.setVault v { t.vault v with refreshed := 63 }))
        (t.setVault v { t.vault v with openRows := Sparse.set none (t.vault v).openRows 63 none, refreshed := 0 }) = true := by decide +kernel

theorem witness_VaultWritesTouchOnlyTheirCodeword :
    let s := { one run with mem := [(lastWord, 0x77), (lastWord + 31, 0x66)] }
    let d : BitVec 256 := 0x1122
    s.lostAt lastWord = false ∧ s.helm.migs = []
    ∧ (after (exec (.vaultWriteRequest 4607 1073741800 d (BitVec.allOnes 32) (some (0, 1)) .clean .clean) s)).mem
        = [(lastWord, 0x22), (lastWord + 1, 0x11)]
    ∧ (after (exec (.vaultWriteRequest 4607 1073741800 d 2 (some (0, 1)) .clean .clean) s)).mem
        = [(lastWord, 0x77), (lastWord + 1, 0x11), (lastWord + 31, 0x66)]
    ∧ ownerOf s (lastWord / 65536) = .none
    ∧ (after (exec (.vaultWriteRequest 4607 1073741800 d 2 none .uncorrectable .uncorrectable) s)).mem = s.mem := by decide +kernel

/-- The Pattern with its segment read-only, of two pages in vaults 0 and 16, with parity in vault 32. -/
def shared : Segment :=
  Segment.seal { segment with length := 131072, wr := false, frames := [5, 16 * 16384 + 5], parity := [32 * 16384 + 5] }

/-- The state with that Pattern, under PLACE and MEND. -/
def sharedState : State := charted (base.setPat 0 { pattern with segs := [shared] })

theorem witness_LostWordsAreRebuilt :
    let m : Memory := [(16 * 1073741824 + 5 * 65536, 3), (32 * 1073741824 + 5 * 65536, 5)]
    let w : DarnWait := { addr := 5 * 65536, issuer := none, reply := true, write := none }
    let s := { sharedState with mem := m, helm := { sharedState.helm with darn := [w] } }
    let rep (b : BitVec 256) : Report := { num := 4, addr := 5 * 65536, decoded := b, resolved := false, steps := [(0, 8)] }
    let fly (taint : Bool) : Step := { Step.new 0 [] with seq := 8, phase := .committed, taintAll := taint }
    let r (b : BitVec 256) : State :=
      { sharedState with mem := m, helm := { sharedState.helm with reports := [rep b], steps := [fly false] } }
    s.helm.darn.find? (fun d => decide (d.addr / 64 = 5 * 65536 / 64)) = some w
    ∧ stripeMates s 5 = some [16 * 16384 + 5, 32 * 16384 + 5] ∧ s.lostAt (5 * 65536) = false ∧ Sparse.get 0 s.helm.ueWords 5 = 0
    ∧ (after (exec (.darnRebuild 0 (5 * 65536) true) s)).mem = (5 * 65536, 6) :: m
    ∧ (after (exec (.darnRebuild 0 (5 * 65536) true) s)).helm.darn = []
    ∧ (after (exec (.darnRebuild 0 (5 * 65536) true) s)).out = [.readData 6]
    ∧ ends (exec (.miscorrectionResolve 3) (r 6)) (r 6) = true ∧ (r 6).mend = true ∧ ownerOf (r 6) 5 = .seg 0 0 0
    ∧ rebuilt (r 6) [16 * 16384 + 5, 32 * 16384 + 5] 0 32 = cwBytes 6
    ∧ ends (exec (.miscorrectionResolve 4) (r 6)) { r 6 with helm := { sharedState.helm with steps := [fly false] } } = true
    ∧ (after (exec (.miscorrectionResolve 4) (r 7))).helm.steps = [fly true]
    ∧ (after (exec (.miscorrectionResolve 4) (r 7))).mem = (5 * 65536, 6) :: m := by decide +kernel

theorem witness_MigrationsCopyAndSwapAPage :
    let s := sharedState
    let mig : Migration := { pat := 0, seg := 0, page := 0, oldF := 5, newF := 4 * 16384, copied := false, waitSeq := 0, halted := false }
    let c := { s with helm := { s.helm with migs := [{ mig with copied := true, waitSeq := 8, halted := true }] }, mem := [(5 * 65536, 1), (6 * 65536, 2)] }
    let mk := { base with helm := { base.helm with marks := [(4607, { suspect := true, retired := false, strike := false })] } }
    let t := after (exec (.migrationStart 0 0 0 4 (2 ^ 21 + 1)) s)
    s.segment 0 0 = some shared ∧ shared.frames[0]? = some 5 ∧ s.runIn 4 1 = some (4 * 16384) ∧ s.place = true ∧ shared.protected' = true
    ∧ countersIn s 0 0 0 = false ∧ (∀ x ∈ shared.stripeOthers 0, dieOfSite (x / 16384) ≠ dieOfSite 4) ∧ s.dieIn (dieOfSite 4) = true
    ∧ t.helm.migs = [mig] ∧ t.mem = s.mem ∧ t.helm.frames = [(4 * 16384, true)]
    ∧ ends (exec (.migrationStart 0 0 0 4 (2 ^ 21)) s) s = true
    ∧ t.migOf 0 0 0 = some mig ∧ t.pat 0 = s.pat 0 ∧ t.segment 0 0 = some shared
    ∧ c.migOf 0 0 0 = some { mig with copied := true, waitSeq := 8, halted := true } ∧ ends (exec (.migrationEnd 0 0 0) t) t = true
    ∧ (after (exec (.migrationEnd 0 0 0) c)).helm.migs = [] ∧ (after (exec (.migrationEnd 0 0 0) c)).mem = [(6 * 65536, 2)]
    ∧ ends (exec (.siteTestEnd 0 false) mk) mk = true ∧ (mk.mark 4607).suspect = true
    ∧ (after (exec (.siteTestEnd 4607 false) mk)).mark 4607 = { suspect := false, retired := true, strike := false }
    ∧ (after (exec (.siteTestEnd 4607 true) mk)).mark 4607 = { suspect := false, retired := false, strike := true } := by decide +kernel

/-- Core 0 RUNNING, with die 23 out of service. -/
def lostDie : State := { one run with helm := { base.helm with diesOut := [(23, true)] } }

/-- Core 0 RUNNING, after the reference is lost. -/
def lostRef : State := after (exec (.refclkLoss .reference) (one run))

theorem witness_ClockLossesAndHangs :
    (one run).dieIn 0 = true ∧ (one run).helm.pats = [] ∧ (one run).helm.streams = [] ∧ Sparse.wf Core.init (one run).cores = true
    ∧ lostDie.dieIn 23 = false ∧ ends (exec (.computePllLoss 23) lostDie) lostDie = true
    ∧ (one run).refLost = false ∧ lostRef.refLost = true ∧ lostRef.start.stage = 7 ∧ (lostRef.core 0).st = .reset
    ∧ lostRef.start.failcode = codeValue .refclkLoss
    ∧ ends (exec (.refclkLoss (.port 3)) lostRef) lostRef = true := by decide +kernel

theorem witness_ClockLossesAndHangs_held :
    let s := one run
    stopped (after (exec (.resourceHang (.accBank 0 1) (.engine 0 0)) s)) 0 0 .faulted .resourceHang 2 = true
    ∧ ends (exec (.preemption (.vaultPort 4607) 64 127 5) s) s = true
    ∧ ends (exec (.preemption (.vaultPort 4607) 63 128 5) s) s = true
    ∧ (after (exec (.preemption (.vaultPort 4607) 64 128 5) s)).preempted = [(.vaultPort 4607, 5)] := by decide +kernel

end Sys2Proof.Tests
end

/-! ### Rounding half to even (R42) -/

namespace Sys2Proof.Machine

/-- With `k` at most zero the shift is an exact left shift. -/
theorem rq_of_nonpos {a k : Int} (hk : k ≤ 0) : rq a k = a * 2 ^ (-k).toNat := by
  simp [rq, hk]

/-- A shift above zero keeps the quotient only where the remainder is at most one half, and raises it only where the remainder
is at least one half; at exactly one half it gives the even one of the two. -/
theorem rq_cases_of_pos {a k : Int} (hk : 0 < k) :
    ((rq a k = a / 2 ^ k.toNat ∧ 2 * (a % 2 ^ k.toNat) ≤ 2 ^ k.toNat)
      ∨ (rq a k = a / 2 ^ k.toNat + 1 ∧ 2 ^ k.toNat ≤ 2 * (a % 2 ^ k.toNat)))
    ∧ (2 * (a % 2 ^ k.toNat) = 2 ^ k.toNat → rq a k % 2 = 0) := by
  have hrq : rq a k = if 2 * (a % 2 ^ k.toNat) > 2 ^ k.toNat
        ∨ (2 * (a % 2 ^ k.toNat) = 2 ^ k.toNat ∧ a / 2 ^ k.toNat % 2 = 1)
      then a / 2 ^ k.toNat + 1 else a / 2 ^ k.toNat := by
    simp [rq, Int.not_le.mpr hk]
  split at hrq <;> omega

/-- A shift above zero rounds to within one half of `a / 2 ^ k`, and to an even result at exactly one half (both sides times
`2 * 2 ^ k`): the error is the remainder below the kept quotient, and the rest of `2 ^ k` above it for the raised one. -/
theorem rq_error_of_pos {a k : Int} (hk : 0 < k) :
    |2 * (rq a k * 2 ^ k.toNat - a)| ≤ 2 ^ k.toNat
    ∧ (|2 * (rq a k * 2 ^ k.toNat - a)| = 2 ^ k.toNat → rq a k % 2 = 0) := by
  have hpos : (0 : Int) < 2 ^ k.toNat := by positivity
  have hnonneg : 0 ≤ a % 2 ^ k.toNat := Int.emod_nonneg a hpos.ne'
  have hlt : a % 2 ^ k.toNat < 2 ^ k.toNat := Int.emod_lt_of_pos a hpos
  have hdiv : a / 2 ^ k.toNat * 2 ^ k.toNat + a % 2 ^ k.toNat = a := Int.ediv_mul_add_emod a _
  obtain ⟨⟨hq, hhalf⟩ | ⟨hq, hhalf⟩, heven⟩ := rq_cases_of_pos (a := a) hk
  · have herr : 2 * (rq a k * 2 ^ k.toNat - a) = -(2 * (a % 2 ^ k.toNat)) := by
      rw [hq]; linarith
    rw [herr, abs_neg, abs_of_nonneg (by omega)]
    exact ⟨hhalf, heven⟩
  · have herr : 2 * (rq a k * 2 ^ k.toNat - a) = 2 * (2 ^ k.toNat - a % 2 ^ k.toNat) := by
      rw [hq]; linarith
    rw [herr, abs_of_nonneg (by omega)]
    exact ⟨by omega, fun htie => heven (by omega)⟩

/-- Settles O28, by the two results a shift above zero can have and the error of each. -/
theorem requantisationRoundsHalfToEven : Obligations.RequantisationRoundsHalfToEven :=
  fun _ _ => ⟨rq_of_nonpos, rq_error_of_pos⟩

end Sys2Proof.Machine

/-! ### HALT and its drain (R74) -/

namespace Sys2Proof.Machine

theorem exec_halt (c : Nat) (s : State) : exec (.halt c) s = execHalt c s := rfl

theorem exec_haltDrainEnd (c : Nat) (s : State) : exec (.haltDrainEnd c) s = execHaltDrainEnd c s := rfl

/-- A sequencer that waits for its HALT to drain stands at no command boundary. -/
theorem atBoundary_of_wait_halt {k : Core} (h : k.wait = .halt) : k.atBoundary = false := by
  simp [Core.atBoundary, h]

/-- A word that is taken is taken at a command boundary, whatever registers it names. -/
theorem takes_of_not_atBoundary {k : Core} (h : k.atBoundary = false) (regs : List Reg) : k.takes regs = false := by
  simp [Core.takes, h]

/-- A HALT that is taken only sets the sequencer waiting for its drain. -/
theorem execHalt_ok {s : State} {c : Nat} (hc : c < Config.nCores) (h : (s.core c).takes [] = true) :
    execHalt c s = .next (s.setCore c { s.core c with wait := .halt }) := by
  rw [execHalt, seqTake_ok c [] s _ hc h]

/-- With an empty latch a core that enters IDLE stays there. -/
theorem enterIdle_of_latch_none (s : State) (c : Nat) {k : Core} (h : k.latch = none) :
    enterIdle s c k = s.setCore c { k with st := .idle, wait := .none } := by
  simp [enterIdle, h]

/-- The end of a drain has no effect on a core with a command still queued or in progress. -/
theorem execHaltDrainEnd_of_not_drained {s : State} {c : Nat} (hc : c < Config.nCores) (h : (s.core c).drained 31 = false) :
    execHaltDrainEnd c s = .next s := by
  rw [execHaltDrainEnd, onCore_ok _ _ _ hc,
    if_neg fun ⟨_, _, hdrained⟩ => Bool.false_ne_true (h.symm.trans hdrained)]

/-- Once every engine has drained, the halted core reports to the Helm and enters IDLE with its loop stack and its
weight-stationary hold gone. -/
theorem execHaltDrainEnd_of_drained {s : State} {c : Nat} (hc : c < Config.nCores) (hst : (s.core c).st = .running)
    (hwait : (s.core c).wait = .halt) (h : (s.core c).drained 31 = true) :
    execHaltDrainEnd c s = .next (enterIdle (s.emit (.halted c)) c { s.core c with loops := [], bhold := none }) := by
  rw [execHaltDrainEnd, onCore_ok _ _ _ hc, if_pos ⟨hst, hwait, h⟩]

/-- Settles O7, by the wait for the drain being no command boundary, and by the two outcomes of the end of the drain. -/
theorem haltDrainsThenIdles : Obligations.HaltDrainsThenIdles := by
  intro s c hc
  refine ⟨fun htakes => ⟨?_, ?_⟩, fun hst hwait => ⟨fun hbusy => ?_, fun hdrained hlatch => ?_⟩⟩
  · rw [exec_halt, execHalt_ok hc htakes]
  · exact takes_of_not_atBoundary (atBoundary_of_wait_halt rfl)
  · rw [exec_haltDrainEnd, execHaltDrainEnd_of_not_drained hc hbusy]
  · rw [exec_haltDrainEnd, execHaltDrainEnd_of_drained hc hst hwait hdrained]
    exact congrArg Host.Outcome.next (enterIdle_of_latch_none _ _ hlatch)

end Sys2Proof.Machine

/-! ### HOST_IRQ_STATUS (R447) -/

namespace Sys2Proof.Machine

theorem exec_irqStatusClear (v : W32) (s : State) : exec (.irqStatusClear v) s = .next (irqStatusWrite s v) := rfl

/-- Whether the event's bit was already set, is signalled or is left pending: SEQ rises by one and the bit is set, and beside
them only the pending bits can change. -/
theorem raiseIrq_host (s : State) (n : Nat) : ∃ p, (raiseIrq s n).host =
    { s.host with irqSeq := s.host.irqSeq + 1, irqBits := s.host.irqBits ||| BitVec.ofNat 16 (2 ^ n), pba := p } := by
  unfold raiseIrq
  dsimp only
  split
  · exact ⟨_, rfl⟩
  · split <;> exact ⟨_, rfl⟩

@[simp] theorem raiseIrq_irqSeq (s : State) (n : Nat) : (raiseIrq s n).host.irqSeq = s.host.irqSeq + 1 := by
  obtain ⟨_, h⟩ := raiseIrq_host s n
  rw [h]

@[simp] theorem raiseIrq_irqBits (s : State) (n : Nat) :
    (raiseIrq s n).host.irqBits = s.host.irqBits ||| BitVec.ofNat 16 (2 ^ n) := by
  obtain ⟨_, h⟩ := raiseIrq_host s n
  rw [h]

/-- The mask that an event ORs into the status bits has the event's bit alone. -/
theorem getLsbD_ofNat_two_pow {n : Nat} (hn : n < 16) (i : Nat) :
    (BitVec.ofNat 16 (2 ^ n)).getLsbD i = decide (i = n) := by
  rw [BitVec.getLsbD_ofNat, Nat.testBit_two_pow, Bool.eq_iff_iff]
  simp only [Bool.and_eq_true, decide_eq_true_eq]
  omega

/-- SEQ counts events: a run of them raises it by their number, whichever bits they set. -/
theorem foldl_raiseIrq_irqSeq (ns : List Nat) (s : State) :
    (ns.foldl raiseIrq s).host.irqSeq = s.host.irqSeq + BitVec.ofNat 16 ns.length := by
  induction ns generalizing s with
  | nil => simp
  | cons n ns ih =>
    rw [List.foldl_cons, ih, raiseIrq_irqSeq, List.length_cons, Nat.add_comm ns.length, BitVec.ofNat_add, BitVec.add_assoc]
    rfl

/-- HOST_IRQ_STATUS is no counter's word and follows none, so a read takes SEQ and the bits of the one state and latches
nothing. -/
theorem readWord_hostIrqStatus (s : State) :
    readWord s .host 0x100000 = (s, s.host.irqSeq.toNat * 2 ^ 16 + s.host.irqBits.toNat) := rfl

theorem irqStatusWrite_of_eq_seq {s : State} {v : W32} (h : v.toNat / 2 ^ 16 = s.host.irqSeq.toNat) :
    irqStatusWrite s v =
      { s with host := { s.host with irqBits := s.host.irqBits &&& ~~~(BitVec.ofNat 16 (v.toNat % 2 ^ 16)) } } :=
  if_pos h

theorem irqStatusWrite_of_ne_seq {s : State} {v : W32} (h : v.toNat / 2 ^ 16 ≠ s.host.irqSeq.toNat) :
    irqStatusWrite s v = s :=
  if_neg h

/-- Clearing the bits named in the low half of a written word leaves every other bit. -/
theorem getLsbD_and_not_low_half (x : BitVec 16) (v : W32) {i : Nat} (hi : i < 16) :
    (x &&& ~~~(BitVec.ofNat 16 (v.toNat % 2 ^ 16))).getLsbD i = (x.getLsbD i && !v.getLsbD i) := by
  have hmask : (BitVec.ofNat 16 (v.toNat % 2 ^ 16)).getLsbD i = v.getLsbD i := by
    rw [BitVec.getLsbD_ofNat, Nat.testBit_mod_two_pow, BitVec.testBit_toNat]
    simp only [hi, decide_true, Bool.true_and]
  rw [BitVec.getLsbD_and, BitVec.getLsbD_not, hmask]
  simp only [hi, decide_true, Bool.true_and]

/-- Settles O43, by what an event adds to SEQ and to the bits, by the two outcomes of the write, and by SEQ counting a run
of events modulo 2^16. -/
theorem interruptStatusIsClearedBySeq : Obligations.InterruptStatusIsClearedBySeq := by
  intro s v
  refine ⟨fun n hn => ⟨raiseIrq_irqSeq s n, fun i => ?_⟩, readWord_hostIrqStatus s, fun hmatch => ?_, fun hother => ?_,
    fun m n _ => ?_⟩
  · rw [raiseIrq_irqBits, BitVec.getLsbD_or, getLsbD_ofNat_two_pow hn]
  · refine ⟨_, (exec_irqStatusClear v s).trans (congrArg _ (irqStatusWrite_of_eq_seq hmatch)), rfl, fun i hi => ?_, rfl, rfl⟩
    exact getLsbD_and_not_low_half s.host.irqBits v hi
  · rw [exec_irqStatusClear, irqStatusWrite_of_ne_seq hother]
  · have hwrap : BitVec.ofNat 16 (65536 * m) = 0#16 := BitVec.eq_of_toNat_eq (by simp)
    rw [foldl_raiseIrq_irqSeq, List.length_replicate, hwrap, BitVec.add_zero]

end Sys2Proof.Machine

/-! ### Command words and their fields (R66 to R80) -/

namespace Sys2Proof.Machine

theorem b2n_lt (b : Bool) : b2n b < 2 := by cases b <;> decide

theorem bitOf_eq_decide (w i : Nat) : bitOf w i = decide (bitsOf w i 1 = 1) := rfl

@[simp] theorem decide_b2n_eq_one (b : Bool) : decide (b2n b = 1) = b := by cases b <;> rfl

/-- Fields below bit 128 are the same after the number is cut to a word. -/
theorem bitsOf_ofNat_toNat (x lo n : Nat) (h : lo + n ≤ 128) :
    bitsOf (BitVec.ofNat 128 x).toNat lo n = bitsOf x lo n := by
  rw [BitVec.toNat_ofNat, bitsOf, bitsOf, ← Nat.shiftRight_eq_div_pow, ← Nat.shiftRight_eq_div_pow]
  apply Nat.eq_of_testBit_eq
  intro i
  simp only [Nat.testBit_mod_two_pow, Nat.testBit_shiftRight]
  by_cases hi : i < n
  · simp [hi]; intro; omega
  · simp [hi]

/-- A part that lies above a field does not show in it. -/
theorem bitsOf_add_of_dvd {y lo n : Nat} (x : Nat) (h : 2 ^ (lo + n) ∣ y) : bitsOf (x + y) lo n = bitsOf x lo n := by
  obtain ⟨q, rfl⟩ := h
  rw [bitsOf, bitsOf, Nat.pow_add, Nat.mul_assoc, Nat.add_mul_div_left _ _ (by positivity), Nat.add_mul_mod_self_left]

/-- A part that lies below a field does not show in it. -/
theorem bitsOf_add_of_lt {x y m lo : Nat} (n : Nat) (hx : x < 2 ^ m) (hy : 2 ^ m ∣ y) (hlo : m ≤ lo) :
    bitsOf (x + y) lo n = bitsOf y lo n := by
  obtain ⟨q, rfl⟩ := hy
  obtain ⟨d, rfl⟩ := Nat.exists_eq_add_of_le hlo
  rw [bitsOf, bitsOf, Nat.pow_add, ← Nat.div_div_eq_div_mul, ← Nat.div_div_eq_div_mul,
    Nat.add_mul_div_left _ _ (by positivity), Nat.div_eq_of_lt hx, Nat.zero_add, Nat.mul_div_cancel_left _ (by positivity)]

/-- A one-bit field that holds a flag's bit reads as the flag. -/
theorem flagOf_eq {w : CmdWord} {i : Nat} {b : Bool} (h : bitsOf w.toNat i 1 = b2n b) : flagOf w i = b := by
  rw [flagOf, bitOf_eq_decide, h, decide_b2n_eq_one]

/-- A field that holds a number below `n` reads as it. -/
theorem finOf_eq {w : CmdWord} {n lo bits : Nat} {hn : 0 < n} {x : Fin n} (h : bitsOf w.toNat lo bits = x.val) :
    finOf n hn w lo bits = x := 
  Fin.ext ((congrArg (· % n) h).trans (Nat.mod_eq_of_lt x.isLt))

/-- A field that holds a value's bits reads as the value. -/
theorem fieldOf_eq {w : CmdWord} {lo n : Nat} {x : BitVec n} (h : bitsOf w.toNat lo n = x.toNat) : fieldOf w lo n = x := by
  rw [fieldOf, h, BitVec.ofNat_toNat, BitVec.setWidth_eq]

theorem dvd_at_ {m lo : Nat} (v : Nat) (h : m ≤ lo) : 2 ^ m ∣ at_ v lo := (Nat.pow_dvd_pow 2 h).mul_left v

theorem at_zero (lo : Nat) : at_ 0 lo = 0 := Nat.zero_mul _

theorem commonBits_lt (k : Common) : 15 + at_ 15 4 + commonBits k < 2 ^ 32 := by
  have h1 := b2n_lt k.wen
  have h2 := b2n_lt k.sen
  have h3 := b2n_lt k.xen
  simp only [commonBits, at_]
  omega

section
variable {cls op rest : Nat} (hcls : cls < 16) (hop : op < 16) (hrest : 2 ^ 32 ∣ rest)
include hcls hop hrest

/-- A word's class and operation, where the rest of it lies at bit 32 and above. -/
theorem classOp_seqWord : bitsOf (seqWord cls op rest).toNat 0 4 = cls ∧ bitsOf (seqWord cls op rest).toNat 4 4 = op := by
  obtain ⟨q, rfl⟩ := hrest
  rw [seqWord, bitsOf_ofNat_toNat _ _ _ (by decide), bitsOf_ofNat_toNat _ _ _ (by decide)]
  simp only [bitsOf, at_]
  omega

theorem classOp_engWord (k : Common) :
    bitsOf (engWord cls op k rest).toNat 0 4 = cls ∧ bitsOf (engWord cls op k rest).toNat 4 4 = op := by
  obtain ⟨q, rfl⟩ := hrest
  rw [engWord, bitsOf_ofNat_toNat _ _ _ (by decide), bitsOf_ofNat_toNat _ _ _ (by decide)]
  simp only [bitsOf, at_, commonBits]
  omega

/-- The fields of an operation at bit 32 and above are those of the part that carries them. -/
theorem bitsOf_seqWord {lo n : Nat} (hlo : 32 ≤ lo) (hn : lo + n ≤ 128) :
    bitsOf (seqWord cls op rest).toNat lo n = bitsOf rest lo n := by
  rw [seqWord, bitsOf_ofNat_toNat _ _ _ hn, bitsOf_add_of_lt n _ hrest hlo]
  simp only [at_]
  omega

theorem bitsOf_engWord (k : Common) {lo n : Nat} (hlo : 32 ≤ lo) (hn : lo + n ≤ 128) :
    bitsOf (engWord cls op k rest).toNat lo n = bitsOf rest lo n := by
  have hk := commonBits_lt k
  rw [engWord, bitsOf_ofNat_toNat _ _ _ hn, bitsOf_add_of_lt n _ hrest hlo]
  simp only [at_] at hk ⊢
  omega

/-- The common fields of an engine word are those it was made of. -/
theorem commonOf_engWord (k : Common) : commonOf (engWord cls op k rest) = k := by
  obtain ⟨q, rfl⟩ := hrest
  have hw := b2n_lt k.wen
  have hs := b2n_lt k.sen
  have hx := b2n_lt k.xen
  have hbits (lo n : Nat) (h : lo + n ≤ 128) : bitsOf (engWord cls op k (2 ^ 32 * q)).toNat lo n
      = (cls + at_ op 4 + commonBits k + 2 ^ 32 * q) / 2 ^ lo % 2 ^ n := bitsOf_ofNat_toNat _ _ _ h
  simp only [commonBits, at_] at hbits
  simp only [commonOf]
  congr 1
  · exact flagOf_eq (by rw [hbits _ _ (by decide)]; omega)
  · exact finOf_eq (by rw [hbits _ _ (by decide)]; omega)
  · exact flagOf_eq (by rw [hbits _ _ (by decide)]; omega)
  · exact finOf_eq (by rw [hbits _ _ (by decide)]; omega)
  · exact flagOf_eq (by rw [hbits _ _ (by decide)]; omega)
  · exact finOf_eq (by rw [hbits _ _ (by decide)]; omega)
  · exact finOf_eq (by rw [hbits _ _ (by decide)]; omega)

end

/-! #### What each form of word reads as -/

/-- The operands of a scalar word, and the value above them. -/
theorem scalarWord_reads {op d a b v rest : Nat} (hop : op < 16) (hd : d < 16) (ha : a < 16) (hb : b < 16)
    (hv : rest = at_ v 64) :
    let w := scalarWord op d a b rest
    (bitsOf w.toNat 0 4 = 0 ∧ bitsOf w.toNat 4 4 = op) ∧ regOf w 32 = ⟨d, hd⟩ ∧ regOf w 36 = ⟨a, ha⟩ ∧ regOf w 40 = ⟨b, hb⟩
      ∧ ∀ n, n ≤ 64 → bitsOf w.toNat 64 n = v % 2 ^ n := by
  subst hv
  have hrest : 2 ^ 32 ∣ at_ d 32 + at_ a 36 + at_ b 40 + at_ v 64 := by simp only [at_]; omega
  have hbits {lo n : Nat} (hlo : 32 ≤ lo) (hn : lo + n ≤ 128) := bitsOf_seqWord (by decide : 0 < 16) hop hrest hlo hn
  refine ⟨classOp_seqWord (by decide) hop hrest, finOf_eq ?_, finOf_eq ?_, finOf_eq ?_, fun n hn => ?_⟩
  all_goals rw [scalarWord, hbits (by decide) (by omega)]
  iterate 3 simp only [bitsOf, at_]; omega
  · rw [bitsOf, show (at_ d 32 + at_ a 36 + at_ b 40 + at_ v 64) / 2 ^ 64 = v by simp only [at_]; omega]

theorem loopWord_reads (count : BitVec 16) (creg : Reg) (csrc : Bool) (ireg : Reg) (ien : Bool) (last : Fin 2048) :
    let w := loopWord count creg csrc ireg ien last
    (bitsOf w.toNat 0 4 = 1 ∧ bitsOf w.toNat 4 4 = 0) ∧ fieldOf w 32 16 = count ∧ regOf w 48 = creg ∧ flagOf w 52 = csrc
      ∧ regOf w 53 = ireg ∧ flagOf w 57 = ien ∧ finOf 2048 (by decide) w 64 11 = last := by
  have hrest : 2 ^ 32 ∣ at_ count.toNat 32 + at_ creg 48 + at_ (b2n csrc) 52 + at_ ireg 53 + at_ (b2n ien) 57 + at_ last 64 := by
    simp only [at_]; omega
  have hbits {lo n : Nat} (hlo : 32 ≤ lo) (hn : lo + n ≤ 128) :=
    bitsOf_seqWord (by decide : 1 < 16) (by decide : 0 < 16) hrest hlo hn
  have hc := b2n_lt csrc
  have hi := b2n_lt ien
  refine ⟨classOp_seqWord (by decide) (by decide) hrest, fieldOf_eq ?_, finOf_eq ?_, flagOf_eq ?_, finOf_eq ?_, flagOf_eq ?_,
    finOf_eq ?_⟩
  all_goals
    rw [loopWord, hbits (by decide) (by decide)]
    simp only [bitsOf, at_]
    omega

theorem branchWord_reads {op a b : Nat} (hop : op < 16) (ha : a < 16) (hb : b < 16) (target : Fin 2048) :
    let w := branchWord op a b target
    (bitsOf w.toNat 0 4 = 1 ∧ bitsOf w.toNat 4 4 = op) ∧ regOf w 32 = ⟨a, ha⟩ ∧ regOf w 36 = ⟨b, hb⟩
      ∧ finOf 2048 (by decide) w 64 11 = target := by
  have hrest : 2 ^ 32 ∣ at_ a 32 + at_ b 36 + at_ target 64 := by simp only [at_]; omega
  have hbits {lo n : Nat} (hlo : 32 ≤ lo) (hn : lo + n ≤ 128) := bitsOf_seqWord (by decide : 1 < 16) hop hrest hlo hn
  refine ⟨classOp_seqWord (by decide) hop hrest, finOf_eq ?_, finOf_eq ?_, finOf_eq ?_⟩
  all_goals
    rw [branchWord, hbits (by decide) (by decide)]
    simp only [bitsOf, at_]
    omega

/-- A sequencer word with one operand at bit 32: TRAP's CODE, FENCE's MASK. -/
theorem seqWord_reads {cls op n : Nat} (hcls : cls < 16) (hop : op < 16) (hn : n ≤ 96) (x : BitVec n) :
    let w := seqWord cls op (at_ x.toNat 32)
    (bitsOf w.toNat 0 4 = cls ∧ bitsOf w.toNat 4 4 = op) ∧ fieldOf w 32 n = x := by
  have hrest : 2 ^ 32 ∣ at_ x.toNat 32 := dvd_at_ _ (Nat.le_refl _)
  refine ⟨classOp_seqWord hcls hop hrest, fieldOf_eq ?_⟩
  rw [bitsOf_seqWord hcls hop hrest (Nat.le_refl _) (by omega), bitsOf, at_, Nat.mul_div_cancel _ (by decide),
    Nat.mod_eq_of_lt x.isLt]

theorem semWord_reads {op : Nat} (hop : op < 16) (sem : Fin 64) (n : BitVec 16) :
    let w := semWord op sem n
    (bitsOf w.toNat 0 4 = 2 ∧ bitsOf w.toNat 4 4 = op) ∧ finOf 64 (by decide) w 32 6 = sem ∧ fieldOf w 48 16 = n := by
  have hrest : 2 ^ 32 ∣ at_ sem 32 + at_ n.toNat 48 := by simp only [at_]; omega
  have hbits {lo n : Nat} (hlo : 32 ≤ lo) (hn : lo + n ≤ 128) := bitsOf_seqWord (by decide : 2 < 16) hop hrest hlo hn
  refine ⟨classOp_seqWord (by decide) hop hrest, finOf_eq ?_, fieldOf_eq ?_⟩
  all_goals
    rw [semWord, hbits (by decide) (by decide)]
    simp only [bitsOf, at_]
    omega

theorem barrierWord_reads (bid : Fin 4) (fen : Bool) :
    let w := seqWord 2 4 (at_ bid 32 + at_ (b2n fen) 34)
    (bitsOf w.toNat 0 4 = 2 ∧ bitsOf w.toNat 4 4 = 4) ∧ finOf 4 (by decide) w 32 2 = bid ∧ flagOf w 34 = fen := by
  have hf := b2n_lt fen
  have hrest : 2 ^ 32 ∣ at_ bid 32 + at_ (b2n fen) 34 := by simp only [at_]; omega
  have hbits {lo n : Nat} (hlo : 32 ≤ lo) (hn : lo + n ≤ 128) :=
    bitsOf_seqWord (by decide : 2 < 16) (by decide : 4 < 16) hrest hlo hn
  refine ⟨classOp_seqWord (by decide) (by decide) hrest, finOf_eq ?_, flagOf_eq ?_⟩
  all_goals
    rw [hbits (by decide) (by decide)]
    simp only [bitsOf, at_]
    omega

theorem tmulWord_reads (k : Common) (opset : BitVec 16) (shape acc : Fin 8) (bank : Fin 2) (eop red : Fin 4) (mod : Bool) :
    let w := tmulWord k opset shape acc bank eop red mod
    (bitsOf w.toNat 0 4 = 3 ∧ bitsOf w.toNat 4 4 = 0) ∧ commonOf w = k ∧ fieldOf w 32 16 = opset
      ∧ finOf 8 (by decide) w 48 3 = shape ∧ finOf 8 (by decide) w 51 3 = acc ∧ finOf 2 (by decide) w 54 1 = bank
      ∧ finOf 4 (by decide) w 55 2 = eop ∧ finOf 4 (by decide) w 57 2 = red ∧ flagOf w 59 = mod := by
  have hm := b2n_lt mod
  have hrest : 2 ^ 32 ∣ at_ opset.toNat 32 + at_ shape 48 + at_ acc 51 + at_ bank 54 + at_ eop 55 + at_ red 57
      + at_ (b2n mod) 59 := by simp only [at_]; omega
  have hbits {lo n : Nat} (hlo : 32 ≤ lo) (hn : lo + n ≤ 128) :=
    bitsOf_engWord (by decide : 3 < 16) (by decide : 0 < 16) hrest k hlo hn
  refine ⟨classOp_engWord (by decide) (by decide) hrest k, commonOf_engWord (by decide) (by decide) hrest k, fieldOf_eq ?_,
    finOf_eq ?_, finOf_eq ?_, finOf_eq ?_, finOf_eq ?_, finOf_eq ?_, flagOf_eq ?_⟩
  all_goals
    rw [tmulWord, hbits (by decide) (by decide)]
    simp only [bitsOf, at_]
    omega

theorem fchainWord_reads (k : Common) (chain : BitVec 16) (run : Bool) (bank : Fin 2) :
    let w := fchainWord k chain run bank
    (bitsOf w.toNat 0 4 = 3 ∧ bitsOf w.toNat 4 4 = 1) ∧ commonOf w = k ∧ fieldOf w 32 16 = chain ∧ flagOf w 48 = run
      ∧ finOf 2 (by decide) w 49 1 = bank := by
  have hr := b2n_lt run
  have hrest : 2 ^ 32 ∣ at_ chain.toNat 32 + at_ (b2n run) 48 + at_ bank 49 := by simp only [at_]; omega
  have hbits {lo n : Nat} (hlo : 32 ≤ lo) (hn : lo + n ≤ 128) :=
    bitsOf_engWord (by decide : 3 < 16) (by decide : 1 < 16) hrest k hlo hn
  refine ⟨classOp_engWord (by decide) (by decide) hrest k, commonOf_engWord (by decide) (by decide) hrest k, fieldOf_eq ?_,
    flagOf_eq ?_, finOf_eq ?_⟩
  all_goals
    rw [fchainWord, hbits (by decide) (by decide)]
    simp only [bitsOf, at_]
    omega

theorem accrdWord_reads (k : Common) (dst : BitVec 16) (bank : Fin 2) :
    let w := accrdWord k dst bank
    (bitsOf w.toNat 0 4 = 3 ∧ bitsOf w.toNat 4 4 = 2) ∧ commonOf w = k ∧ fieldOf w 32 16 = dst
      ∧ finOf 2 (by decide) w 48 1 = bank := by
  have hrest : 2 ^ 32 ∣ at_ dst.toNat 32 + at_ bank 48 := by simp only [at_]; omega
  have hbits {lo n : Nat} (hlo : 32 ≤ lo) (hn : lo + n ≤ 128) :=
    bitsOf_engWord (by decide : 3 < 16) (by decide : 2 < 16) hrest k hlo hn
  refine ⟨classOp_engWord (by decide) (by decide) hrest k, commonOf_engWord (by decide) (by decide) hrest k, fieldOf_eq ?_,
    finOf_eq ?_⟩
  all_goals
    rw [accrdWord, hbits (by decide) (by decide)]
    simp only [bitsOf, at_]
    omega

theorem rowWord_reads {op : Nat} (hop : op < 16) (k : Common) (f : RowFields) :
    let w := rowWord op k f
    (bitsOf w.toNat 0 4 = 4 ∧ bitsOf w.toNat 4 4 = op) ∧ commonOf w = k ∧ rowOf w = f := by
  have hrest : 2 ^ 32 ∣ at_ f.src.toNat 32 + at_ f.dst.toNat 48 + at_ f.param.toNat 64 + at_ f.sub.toNat 80 + at_ f.bank 88 := by
    simp only [at_]; omega
  have hbits {lo n : Nat} (hlo : 32 ≤ lo) (hn : lo + n ≤ 128) := bitsOf_engWord (by decide : 4 < 16) hop hrest k hlo hn
  refine ⟨classOp_engWord (by decide) hop hrest k, commonOf_engWord (by decide) hop hrest k, ?_⟩
  rw [rowOf]
  congr 1
  iterate 4
    refine fieldOf_eq ?_
    rw [rowWord, hbits (by decide) (by decide)]
    simp only [bitsOf, at_]
    omega
  · refine finOf_eq ?_
    rw [rowWord, hbits (by decide) (by decide)]
    simp only [bitsOf, at_]
    omega

theorem streamWord_reads {op : Nat} (hop : op < 16) (k : Common) (desc list : BitVec 16) :
    let w := streamWord op k desc list
    (bitsOf w.toNat 0 4 = 5 ∧ bitsOf w.toNat 4 4 = op) ∧ commonOf w = k ∧ fieldOf w 32 16 = desc ∧ fieldOf w 48 16 = list := by
  have hrest : 2 ^ 32 ∣ at_ desc.toNat 32 + at_ list.toNat 48 := by simp only [at_]; omega
  have hbits {lo n : Nat} (hlo : 32 ≤ lo) (hn : lo + n ≤ 128) := bitsOf_engWord (by decide : 5 < 16) hop hrest k hlo hn
  refine ⟨classOp_engWord (by decide) hop hrest k, commonOf_engWord (by decide) hop hrest k, fieldOf_eq ?_, fieldOf_eq ?_⟩
  all_goals
    rw [streamWord, hbits (by decide) (by decide)]
    simp only [bitsOf, at_]
    omega

theorem vaultWord_reads {op : Nat} (hop : op < 16) (k : Common) (desc : BitVec 16) (dreg : Reg) (den : Bool) :
    let w := vaultWord op k desc dreg den
    (bitsOf w.toNat 0 4 = 6 ∧ bitsOf w.toNat 4 4 = op) ∧ commonOf w = k ∧ fieldOf w 32 16 = desc ∧ regOf w 48 = dreg := by
  have hd := b2n_lt den
  have hrest : 2 ^ 32 ∣ at_ desc.toNat 32 + at_ dreg 48 + at_ (b2n den) 52 := by simp only [at_]; omega
  have hbits {lo n : Nat} (hlo : 32 ≤ lo) (hn : lo + n ≤ 128) := bitsOf_engWord (by decide : 6 < 16) hop hrest k hlo hn
  refine ⟨classOp_engWord (by decide) hop hrest k, commonOf_engWord (by decide) hop hrest k, fieldOf_eq ?_, finOf_eq ?_⟩
  all_goals
    rw [vaultWord, hbits (by decide) (by decide)]
    simp only [bitsOf, at_]
    omega

theorem sendWord_reads (k : Common) (dest : BitVec 13) (dq : Fin 8) (src : BitVec 16) (len : BitVec 13) (tag : BitVec 16) :
    let w := sendWord k dest dq src len tag
    (bitsOf w.toNat 0 4 = 7 ∧ bitsOf w.toNat 4 4 = 0) ∧ commonOf w = k ∧ fieldOf w 32 13 = dest
      ∧ finOf 8 (by decide) w 45 3 = dq ∧ fieldOf w 48 16 = src ∧ fieldOf w 64 13 = len ∧ fieldOf w 80 16 = tag := by
  have hrest : 2 ^ 32 ∣ at_ dest.toNat 32 + at_ dq 45 + at_ src.toNat 48 + at_ len.toNat 64 + at_ tag.toNat 80 := by
    simp only [at_]; omega
  have hbits {lo n : Nat} (hlo : 32 ≤ lo) (hn : lo + n ≤ 128) :=
    bitsOf_engWord (by decide : 7 < 16) (by decide : 0 < 16) hrest k hlo hn
  refine ⟨classOp_engWord (by decide) (by decide) hrest k, commonOf_engWord (by decide) (by decide) hrest k, fieldOf_eq ?_,
    finOf_eq ?_, fieldOf_eq ?_, fieldOf_eq ?_, fieldOf_eq ?_⟩
  all_goals
    rw [sendWord, hbits (by decide) (by decide)]
    simp only [bitsOf, at_]
    omega

theorem recvWord_reads (k : Common) (q : Fin 8) (blk : Bool) (dsts : BitVec 16) (maxlen : BitVec 13) (lreg : Reg)
    (lenEn : Bool) :
    let w := recvWord k q blk dsts maxlen lreg lenEn
    (bitsOf w.toNat 0 4 = 7 ∧ bitsOf w.toNat 4 4 = 1) ∧ commonOf w = k ∧ finOf 8 (by decide) w 32 3 = q ∧ flagOf w 35 = blk
      ∧ fieldOf w 48 16 = dsts ∧ fieldOf w 64 13 = maxlen ∧ regOf w 80 = lreg ∧ flagOf w 84 = lenEn := by
  have hb := b2n_lt blk
  have hl := b2n_lt lenEn
  have hrest : 2 ^ 32 ∣ at_ q 32 + at_ (b2n blk) 35 + at_ dsts.toNat 48 + at_ maxlen.toNat 64 + at_ lreg 80
      + at_ (b2n lenEn) 84 := by simp only [at_]; omega
  have hbits {lo n : Nat} (hlo : 32 ≤ lo) (hn : lo + n ≤ 128) :=
    bitsOf_engWord (by decide : 7 < 16) (by decide : 1 < 16) hrest k hlo hn
  refine ⟨classOp_engWord (by decide) (by decide) hrest k, commonOf_engWord (by decide) (by decide) hrest k, finOf_eq ?_,
    flagOf_eq ?_, fieldOf_eq ?_, fieldOf_eq ?_, finOf_eq ?_, flagOf_eq ?_⟩
  all_goals
    rw [recvWord, hbits (by decide) (by decide)]
    simp only [bitsOf, at_]
    omega

theorem creditWord_reads (k : Common) (q : Fin 8) (n : BitVec 16) :
    let w := creditWord k q n
    (bitsOf w.toNat 0 4 = 7 ∧ bitsOf w.toNat 4 4 = 2) ∧ commonOf w = k ∧ finOf 8 (by decide) w 32 3 = q ∧ fieldOf w 48 16 = n := by
  have hrest : 2 ^ 32 ∣ at_ q 32 + at_ n.toNat 48 := by simp only [at_]; omega
  have hbits {lo n : Nat} (hlo : 32 ≤ lo) (hn : lo + n ≤ 128) :=
    bitsOf_engWord (by decide : 7 < 16) (by decide : 2 < 16) hrest k hlo hn
  refine ⟨classOp_engWord (by decide) (by decide) hrest k, commonOf_engWord (by decide) (by decide) hrest k, finOf_eq ?_,
    fieldOf_eq ?_⟩
  all_goals
    rw [creditWord, hbits (by decide) (by decide)]
    simp only [bitsOf, at_]
    omega

/-! #### Reading a word back -/

/-- A word's class and operation choose what its fields are read as. -/
theorem commandOf_scalar {c sub op : Nat} {w : CmdWord} (h : bitsOf w.toNat 0 4 = 0 ∧ bitsOf w.toNat 4 4 = op) :
    commandOf c sub w = scalarOf c op w := by simp [commandOf, h.1, h.2]

theorem commandOf_flow {c sub op : Nat} {w : CmdWord} (h : bitsOf w.toNat 0 4 = 1 ∧ bitsOf w.toNat 4 4 = op) :
    commandOf c sub w = flowOf c op w := by simp [commandOf, h.1, h.2]

theorem commandOf_sync {c sub op : Nat} {w : CmdWord} (h : bitsOf w.toNat 0 4 = 2 ∧ bitsOf w.toNat 4 4 = op) :
    commandOf c sub w = syncOf c op w := by simp [commandOf, h.1, h.2]

theorem commandOf_matrix {c sub op : Nat} {w : CmdWord} (h : bitsOf w.toNat 0 4 = 3 ∧ bitsOf w.toNat 4 4 = op) :
    commandOf c sub w = matrixOf c op w := by simp [commandOf, h.1, h.2]

theorem commandOf_row {c sub op : Nat} {w : CmdWord} (h : bitsOf w.toNat 0 4 = 4 ∧ bitsOf w.toNat 4 4 = op) :
    commandOf c sub w = rowCmdOf c op w := by simp [commandOf, h.1, h.2]

theorem commandOf_stream {c sub op : Nat} {w : CmdWord} (h : bitsOf w.toNat 0 4 = 5 ∧ bitsOf w.toNat 4 4 = op) :
    commandOf c sub w = streamCmdOf c op w := by simp [commandOf, h.1, h.2]

theorem commandOf_vault {c sub op : Nat} {w : CmdWord} (h : bitsOf w.toNat 0 4 = 6 ∧ bitsOf w.toNat 4 4 = op) :
    commandOf c sub w = vaultCmdOf c sub op w := by simp [commandOf, h.1, h.2]

theorem commandOf_message {c sub op : Nat} {w : CmdWord} (h : bitsOf w.toNat 0 4 = 7 ∧ bitsOf w.toNat 4 4 = op) :
    commandOf c sub w = messageOf c op w := by simp [commandOf, h.1, h.2]


/-- Settles O17, class by class: a word's class and operation choose the command, and each field reads as the operand that
stands in it. -/
theorem commandWordsRoundTrip : Obligations.CommandWordsRoundTrip := by
  intro i w h
  cases i <;> simp only [commandWord, Option.some.injEq, reduceCtorEq] at h <;> subst h
  case set c d imm =>
    obtain ⟨hop, hd, -, -, hv⟩ := scalarWord_reads (by decide : 0 < 16) d.isLt (by decide : 0 < 16) (by decide : 0 < 16)
      (rfl : at_ imm.toNat 64 = _)
    have himm := fieldOf_eq ((hv 64 le_rfl).trans (Nat.mod_eq_of_lt imm.isLt))
    simp [coreAndSub, commandOf_scalar hop, scalarOf, hd, himm]
  case getid c d sel =>
    obtain ⟨hop, hd, -, -, hv⟩ := scalarWord_reads (by decide : 8 < 16) d.isLt (by decide : 0 < 16) (by decide : 0 < 16)
      (rfl : at_ sel 64 = _)
    simp [coreAndSub, commandOf_scalar hop, scalarOf, hd, finOf, hv, Nat.mod_eq_of_lt sel.isLt]
  case add c d a b | sub c d a b =>
    have hreads {op : Nat} (hop : op < 16) := scalarWord_reads hop d.isLt a.isLt b.isLt (at_zero 64).symm
    simp [coreAndSub, commandOf_scalar (hreads _).1, scalarOf, hreads]
  case addi c d a imm | ld c d a imm | st c d a imm =>
    have hreads {op : Nat} (hop : op < 16) := scalarWord_reads hop d.isLt a.isLt (by decide : 0 < 16)
      (rfl : at_ imm.toNat 64 = _)
    have himm {op : Nat} (hop : op < 16) :=
      fieldOf_eq (((hreads hop).2.2.2.2 32 (by decide)).trans (Nat.mod_eq_of_lt imm.isLt))
    simp [coreAndSub, commandOf_scalar (hreads _).1, scalarOf, hreads, himm]
  case shl c d a sh | shr c d a sh =>
    have hreads {op : Nat} (hop : op < 16) := scalarWord_reads hop d.isLt a.isLt (by decide : 0 < 16) (rfl : at_ sh 64 = _)
    simp [coreAndSub, commandOf_scalar (hreads _).1, scalarOf, hreads, finOf, Nat.mod_eq_of_lt sh.isLt]
  case loop c count creg csrc ireg ien last =>
    obtain ⟨hop, hcount, hcreg, hcsrc, hireg, hien, hlast⟩ := loopWord_reads count creg csrc ireg ien last
    simp [coreAndSub, commandOf_flow hop, flowOf, hcount, hcreg, hcsrc, hireg, hien, hlast]
  case jmp c t =>
    simp [coreAndSub, commandOf_flow (branchWord_reads _ _ _ t).1, flowOf, branchWord_reads]
  case brz c a t | brnz c a t =>
    simp [coreAndSub, commandOf_flow (branchWord_reads _ a.isLt _ t).1, flowOf, branchWord_reads]
  case brlt c a b t =>
    simp [coreAndSub, commandOf_flow (branchWord_reads _ a.isLt b.isLt t).1, flowOf, branchWord_reads]
  case lexit c | halt c | nop c =>
    exact commandOf_flow (classOp_seqWord (by decide) (by decide) (dvd_zero _))
  case trap c code => 
    obtain ⟨hop, hx⟩ := seqWord_reads (by decide : 1 < 16) (by decide : 7 < 16) (by decide) code
    simp [coreAndSub, commandOf_flow hop, flowOf, hx]
  case fence c mask => 
    obtain ⟨hop, hx⟩ := seqWord_reads (by decide : 2 < 16) (by decide : 3 < 16) (by decide) mask
    simp [coreAndSub, commandOf_sync hop, syncOf, hx]
  case barrier c bid fen =>
    obtain ⟨hop, hb, hf⟩ := barrierWord_reads bid fen
    simp [coreAndSub, commandOf_sync hop, syncOf, hb, hf]
  case semwait c i n | semsig c i n | semset c i n =>
    simp [coreAndSub, commandOf_sync (semWord_reads _ i n).1, syncOf, semWord_reads]
  case tmul c k opset shape acc bank eop red mod =>
    obtain ⟨hop, hk, hopset, hshape, hacc, hbank, heop, hred, hmod⟩ := tmulWord_reads k opset shape acc bank eop red mod
    simp [coreAndSub, commandOf_matrix hop, matrixOf, hk, hopset, hshape, hacc, hbank, heop, hred, hmod]
  case fchain c k chain run bank =>
    simp [coreAndSub, commandOf_matrix (fchainWord_reads k chain run bank).1, matrixOf, fchainWord_reads]
  case accrd c k dst bank =>
    simp [coreAndSub, commandOf_matrix (accrdWord_reads k dst bank).1, matrixOf, accrdWord_reads]
  case rfunc c k f | rred c k f | ralu c k f | rrescale c k f | rtload c k f | rquant c k f =>
    simp [coreAndSub, commandOf_row (rowWord_reads _ k f).1, rowCmdOf, rowWord_reads]
  case copy c k d l | streamGather c k d l | scatter c k d l | tcopy c k d l =>
    simp [coreAndSub, commandOf_stream (streamWord_reads _ k d l).1, streamCmdOf, streamWord_reads]
  case vaultGather c k f | scadd c k f | merge c k f | topk c k f | vaultRred c k f | fill c k f | decomp c k f | ctrsetInit c k f
      | ctrsetDone c k f | ctrsetRelease c k f | unlock c k f =>
    simp [coreAndSub, commandOf_vault (vaultWord_reads _ k f.desc f.dreg false).1, vaultCmdOf, vaultWord_reads]
  case ctradd c k d r | lock c k d r =>
    simp [coreAndSub, commandOf_vault (vaultWord_reads _ k d r true).1, vaultCmdOf, vaultWord_reads]
  case send c k dest dq src len tag =>
    simp [coreAndSub, commandOf_message (sendWord_reads k dest dq src len tag).1, messageOf, sendWord_reads]
  case recv c k q blk dsts maxlen lreg lenEn =>
    simp [coreAndSub, commandOf_message (recvWord_reads k q blk dsts maxlen lreg lenEn).1, messageOf, recvWord_reads]
  case credit c k q n =>
    simp [coreAndSub, commandOf_message (creditWord_reads k q n).1, messageOf, creditWord_reads]
end Sys2Proof.Machine

/-! ### Every command is answered, and what it leaves of the power state and the waiting commands -/

namespace Sys2Proof.Machine

/-! #### Operations of the model without a lemma among its laws -/

@[simp] theorem sendCredit_kept (i : LinkId) (n : Nat) (s : State) : (sendCredit i n s).kept = s.kept := by
  induction n generalizing s with
  | zero => rfl
  | succ n ih =>
    unfold sendCredit
    split
    · rfl
    · split
      · rw [ih, sendControl_kept]
      · rfl

@[simp] theorem creditAll_kept (s : State) (i : LinkId) : (creditAll s i).kept = s.kept := by
  unfold creditAll
  split <;> simp

@[simp] theorem flushPort_kept (s : State) (p : Fin 8) : (flushPort s p).kept = s.kept := by
  unfold flushPort
  dsimp only
  split <;> simp

@[simp] theorem noteHalt_kept (s : State) (pi : Nat) (seq : BitVec 32) : (noteHalt s pi seq).kept = s.kept := rfl

@[simp] theorem gateStep_kept (s : State) (t : Step) (mine : Step → Bool) : (gateStep s t mine).kept = s.kept := by
  unfold gateStep
  dsimp only
  repeat' split
  all_goals simp

@[simp] theorem replyRead_kept (s : State) (w : DarnWait) (word : List Byte) : (replyRead s w word).kept = s.kept := by
  unfold replyRead
  split <;> simp

@[simp] theorem forwardCancel_kept (s : State) (x : Conn) : (forwardCancel s x).kept = s.kept := by
  unfold forwardCancel
  split <;> simp

@[simp] theorem contributeDue_kept (gid : Nat) (a : State × Group) : (contributeDue gid a).1.kept = a.1.kept := by
  simp [contributeDue]

@[simp] theorem abandonCopy_kept (s : State) (v : Nat) : (abandonCopy s v).kept = s.kept := by
  simp [abandonCopy]

/-! #### The shapes that commands have -/

/-- A command is answered: with a next state in which `P` holds or, where its numbers are not all ones the device has, with a
fault; never with a refusal. -/
def Answered (ok : Bool) (P : State → Prop) : Host.Outcome State Fault Refusal → Prop
  | .next t => P t
  | .fault _ => ok = false
  | .refused _ => False

theorem Answered.mono {ok : Bool} {P Q : State → Prop} {o : Host.Outcome State Fault Refusal} (h : Answered ok P o)
    (hPQ : ∀ t, P t → Q t) : Answered ok Q o := by
  cases o with
  | next t => exact hPQ t h
  | fault r => exact h
  | refused r => exact h

/-- A command is answered, and a next state has the power state and the waiting commands of `s`. -/
abbrev Keeps (ok : Bool) (s : State) (o : Host.Outcome State Fault Refusal) : Prop := Answered ok (fun t => t.kept = s.kept) o

theorem fault_answered {ok : Bool} {P : State → Prop} {r : Fault} (h : ok ≠ true) : Answered ok P (.fault r) :=
  Bool.eq_false_iff.2 h

theorem onCore_keeps {ok : Bool} {s : State} {c : Nat} {f : Core → State} (hok : ok = true → coreOk c = true)
    (hf : ∀ k, (f k).kept = s.kept) : Keeps ok s (onCore s c f) := by
  unfold onCore
  split
  · exact hf _
  next hc => exact fault_answered fun h => hc (of_decide_eq_true (hok h))

theorem seqTake_keeps {ok : Bool} {s : State} {c : Nat} {regs : List Reg} {f : Core → State}
    (hok : ok = true → coreOk c = true) (hf : ∀ k, (f k).kept = s.kept) : Keeps ok s (seqTake c regs s f) := by
  refine onCore_keeps hok fun k => ?_
  split
  · rfl
  split
  · simp
  · exact hf _

theorem issueEng_keeps {ok : Bool} {s : State} {c : Nat} {e : Fin 5} {kc : Common} {word : CmdWord} {fld : Nat}
    {dest : Option Reg} {mk : Core → Nat → EngineOp} (hok : ok = true → coreOk c = true) :
    Keeps ok s (issueEng c e kc word fld dest mk s) := by
  refine seqTake_keeps hok fun k => ?_
  split
  · simp
  · split
    · simp
    · split
      · simp
      · rw [tryStart_kept, seqGoto_kept]

theorem noted_keeps {ok : Bool} {s : State} {o : Host.Outcome State Fault Refusal} (h : Keeps ok s o) :
    Keeps ok s (noted s o) := by
  cases o with
  | next t => exact (note_kept s t).trans h
  | fault r => exact h
  | refused r => exact h

theorem onByte_keeps {ok : Bool} {s : State} {v ofs : Nat} {issuer : Option (Nat × Fin 6)} {f : Nat → State}
    (hok : ok = true → (v < Config.nSites ∧ ofs < Config.vaultBytes) ∧ issuerOk issuer = true) (hf : ∀ a, (f a).kept = s.kept) :
    Keeps ok s (onByte v ofs issuer f) := by
  unfold onByte
  split
  next h => exact fault_answered fun hwf => by have := (hok hwf).1; omega
  split
  next h => exact fault_answered fun hwf => by simp [(hok hwf).2] at h
  · exact hf _

theorem onBlock_keeps {ok : Bool} {b : Nat} {s t : State} (hok : ok = true → blockOk b = true) (ht : t.kept = s.kept) :
    Keeps ok s (onBlock b t) := by
  unfold onBlock
  split
  · exact ht
  next hb => exact fault_answered fun h => hb (of_decide_eq_true (hok h))

theorem onGroup_keeps {ok : Bool} {s t : State} {gid : Nat} {f : Group → State} (ht : t.kept = s.kept)
    (hf : ∀ g, (f g).kept = s.kept) : Keeps ok s (onGroup t gid f) := by
  unfold onGroup
  change State.kept _ = _
  split
  · exact ht
  · split
    · exact hf _
    · exact ht

theorem onChunk_keeps {ok : Bool} {s : State} {gid : Nat} {f : State → Group → State}
    (hf : ∀ t g, t.kept = s.kept → (f t g).kept = s.kept) : Keeps ok s (onChunk s gid f) := by
  unfold onChunk
  split
  · rfl
  · exact onGroup_keeps (chunkIn_kept s gid) fun g => hf _ g (chunkIn_kept s gid)

theorem onFrame_keeps {ok : Bool} {s : State} {i : LinkId} {ft : Nat} {h : NzHeader} {f : State → Link → State}
    (hf : ∀ t x, t.kept = s.kept → (f t x).kept = s.kept) : Keeps ok s (onFrame i ft h s f) := by
  unfold onFrame
  change State.kept _ = _
  split
  · rfl
  split
  · rfl
  split
  · simp
  · simp only [creditAll_kept, afterAck_kept]
    exact hf _ _ (setLink_kept ..)

theorem sealedRun_keeps {ok : Bool} {s : State} {c : Sealed} {op : Nat} {f : SealedEffect}
    (hf : KeptOk (·.1) s.kept (f s)) : Keeps ok s (.next (sealedRun s c op f)) := sealedRun_kept s c op f hf

/-! #### The commands of one core -/

section
variable {ok : Bool} {s : State} {c : Nat} (hok : ok = true → coreOk c = true)
include hok

theorem issueRow_keeps {op n k f} : Keeps ok s (issueRow c op n k f s) := by
  unfold issueRow
  exact issueEng_keeps hok

theorem issueStream_keeps {op n k desc list} : Keeps ok s (issueStream c op n k desc list s) := by
  unfold issueStream
  exact issueEng_keeps hok

theorem issueVault_keeps {op n k desc dreg den} : Keeps ok s (issueVault c op n k desc dreg den s) := by
  unfold issueVault
  exact issueEng_keeps hok

theorem execRegisterResult_keeps {r} : Keeps ok s (execRegisterResult c r s) := by
  unfold execRegisterResult
  refine onCore_keeps hok fun k => ?_
  repeat' split
  all_goals simp

theorem execSemWaitGrant_keeps : Keeps ok s (execSemWaitGrant c s) := by
  unfold execSemWaitGrant
  refine onCore_keeps hok fun k => ?_
  split <;> simp

theorem execFenceEnd_keeps : Keeps ok s (execFenceEnd c s) := by
  unfold execFenceEnd
  refine onCore_keeps hok fun k => ?_
  repeat' split
  all_goals simp

theorem execHaltDrainEnd_keeps : Keeps ok s (execHaltDrainEnd c s) := by
  unfold execHaltDrainEnd
  refine onCore_keeps hok fun k => ?_
  split <;> simp

theorem execBarrierArrival_keeps {bid phase} : Keeps ok s (execBarrierArrival c bid phase s) := by
  unfold execBarrierArrival
  refine onCore_keeps hok fun k => ?_
  dsimp only
  repeat' split
  all_goals simp

theorem execBarrierRelease_keeps {bid phase} : Keeps ok s (execBarrierRelease c bid phase s) := by
  unfold execBarrierRelease
  refine onCore_keeps hok fun k => ?_
  split <;> simp

theorem execDispatch_keeps {d} : Keeps ok s (execDispatch c d s) := by
  unfold execDispatch
  refine onCore_keeps hok fun k => ?_
  repeat' split
  all_goals simp

theorem execWaitTimeout_keeps {eng} : Keeps ok s (execWaitTimeout c eng s) := by
  unfold execWaitTimeout
  refine onCore_keeps hok fun k => ?_
  repeat' split
  all_goals simp

theorem execStepTimeout_keeps : Keeps ok s (execStepTimeout c s) := by
  unfold execStepTimeout
  refine onCore_keeps hok fun k => ?_
  split <;> simp

theorem execSlotStall_keeps {eng} : Keeps ok s (execSlotStall c eng s) := by
  unfold execSlotStall
  refine onCore_keeps hok fun k => ?_
  repeat' split
  all_goals simp

theorem execClear_keeps : Keeps ok s (execClear c s) := by
  unfold execClear
  refine onCore_keeps hok fun k => ?_
  split <;> simp

theorem execLockRelease_keeps {addr epoch} : Keeps ok s (execLockRelease c addr epoch s) := by
  unfold execLockRelease
  refine onCore_keeps hok fun k => ?_
  dsimp only
  repeat' split
  all_goals simp

theorem execCancel_keeps : Keeps ok s (execCancel c s) := by
  unfold execCancel
  refine onCore_keeps hok fun k => ?_
  repeat' split
  all_goals simp

theorem execDrained_keeps : Keeps ok s (execDrained c s) := by
  unfold execDrained
  refine onCore_keeps hok fun k => ?_
  split <;> simp

theorem execCancelTimeout_keeps : Keeps ok s (execCancelTimeout c s) := by
  unfold execCancelTimeout
  refine onCore_keeps hok fun k => ?_
  split <;> simp

theorem execRegionStop_keeps : Keeps ok s (execRegionStop c s) := by
  unfold execRegionStop
  refine noted_keeps ?_
  refine onCore_keeps hok fun k => ?_
  dsimp only
  repeat' split
  all_goals simp

theorem execHaltReport_keeps : Keeps ok s (execHaltReport c s) := by
  unfold execHaltReport
  refine onCore_keeps hok fun k => ?_
  dsimp only
  repeat' split
  all_goals simp

theorem execTmul_keeps {k opset shape acc bank eop red mod} : Keeps ok s (execTmul c k opset shape acc bank eop red mod s) :=
  issueEng_keeps hok

theorem execFchain_keeps {k chain run bank} : Keeps ok s (execFchain c k chain run bank s) :=
  issueEng_keeps hok

theorem execAccrd_keeps {k dst bank} : Keeps ok s (execAccrd c k dst bank s) :=
  issueEng_keeps hok

theorem execRfunc_keeps {k f} : Keeps ok s (execRfunc c k f s) :=
  issueRow_keeps hok

theorem execRred_keeps {k f} : Keeps ok s (execRred c k f s) :=
  issueRow_keeps hok

theorem execRalu_keeps {k f} : Keeps ok s (execRalu c k f s) :=
  issueRow_keeps hok

theorem execRrescale_keeps {k f} : Keeps ok s (execRrescale c k f s) :=
  issueRow_keeps hok

theorem execRtload_keeps {k f} : Keeps ok s (execRtload c k f s) :=
  issueRow_keeps hok

theorem execRquant_keeps {k f} : Keeps ok s (execRquant c k f s) :=
  issueRow_keeps hok

theorem execCopy_keeps {k desc list} : Keeps ok s (execCopy c k desc list s) :=
  issueStream_keeps hok

theorem execStreamGather_keeps {k desc list} : Keeps ok s (execStreamGather c k desc list s) :=
  issueStream_keeps hok

theorem execScatter_keeps {k desc list} : Keeps ok s (execScatter c k desc list s) :=
  issueStream_keeps hok

theorem execTcopy_keeps {k desc list} : Keeps ok s (execTcopy c k desc list s) :=
  issueStream_keeps hok

theorem execVaultGather_keeps {k f} : Keeps ok s (execVaultGather c k f s) :=
  issueVault_keeps hok

theorem execScadd_keeps {k f} : Keeps ok s (execScadd c k f s) :=
  issueVault_keeps hok

theorem execMerge_keeps {k f} : Keeps ok s (execMerge c k f s) :=
  issueVault_keeps hok

theorem execTopk_keeps {k f} : Keeps ok s (execTopk c k f s) :=
  issueVault_keeps hok

theorem execVaultRred_keeps {k f} : Keeps ok s (execVaultRred c k f s) :=
  issueVault_keeps hok

theorem execFill_keeps {k f} : Keeps ok s (execFill c k f s) :=
  issueVault_keeps hok

theorem execDecomp_keeps {k f} : Keeps ok s (execDecomp c k f s) :=
  issueVault_keeps hok

theorem execCtradd_keeps {k desc dreg} : Keeps ok s (execCtradd c k desc dreg s) :=
  issueVault_keeps hok

theorem execCtrsetInit_keeps {k f} : Keeps ok s (execCtrsetInit c k f s) :=
  issueVault_keeps hok

theorem execCtrsetDone_keeps {k f} : Keeps ok s (execCtrsetDone c k f s) :=
  issueVault_keeps hok

theorem execCtrsetRelease_keeps {k f} : Keeps ok s (execCtrsetRelease c k f s) :=
  issueVault_keeps hok

theorem execLock_keeps {k desc dreg} : Keeps ok s (execLock c k desc dreg s) :=
  issueVault_keeps hok

theorem execUnlock_keeps {k f} : Keeps ok s (execUnlock c k f s) :=
  issueVault_keeps hok

theorem execSend_keeps {k dest dq src len tag} : Keeps ok s (execSend c k dest dq src len tag s) :=
  issueEng_keeps hok

theorem execRecv_keeps {k q blk dsts maxlen lreg lenEn} : Keeps ok s (execRecv c k q blk dsts maxlen lreg lenEn s) :=
  issueEng_keeps hok

theorem execCredit_keeps {k q n} : Keeps ok s (execCredit c k q n s) :=
  issueEng_keeps hok

theorem execEngineCommandStart_keeps {e} : Keeps ok s (execEngineCommandStart c e s) := 
  onCore_keeps hok fun _ => by simp

theorem execEngineCommandComplete_keeps {e i} : Keeps ok s (execEngineCommandComplete c e i s) := by
  unfold execEngineCommandComplete
  refine onCore_keeps hok fun k => ?_
  repeat' split
  all_goals simp

theorem execLockRetry_keeps : Keeps ok s (execLockRetry c s) := by
  unfold execLockRetry
  refine onCore_keeps hok fun k => ?_
  split <;> simp

theorem execItemArrival_keeps {item ptrOk} : Keeps ok s (execItemArrival c item ptrOk s) := by
  unfold execItemArrival
  refine onCore_keeps hok fun k => ?_
  dsimp only
  repeat' split
  all_goals simp

theorem execConnect_keeps {q producer epoch} : Keeps ok s (execConnect c q producer epoch s) := by
  unfold execConnect
  refine onCore_keeps hok fun k => ?_
  dsimp only
  repeat' split
  all_goals simp

theorem execConnectReply_keeps {dest q grant epoch} : Keeps ok s (execConnectReply c dest q grant epoch s) := by
  unfold execConnectReply
  refine onCore_keeps hok fun k => ?_
  repeat' split
  all_goals simp

theorem execConnectRetry_keeps : Keeps ok s (execConnectRetry c s) := by
  unfold execConnectRetry
  refine onCore_keeps hok fun k => ?_
  repeat' split
  all_goals simp

theorem execDisconnect_keeps {q producer epoch words} : Keeps ok s (execDisconnect c q producer epoch words s) := by
  unfold execDisconnect
  refine onCore_keeps hok fun k => ?_
  dsimp only
  split <;> simp

theorem execCreditReturn_keeps {dest q epoch words} : Keeps ok s (execCreditReturn c dest q epoch words s) := by
  unfold execCreditReturn
  refine onCore_keeps hok fun k => ?_
  repeat' split
  all_goals simp

theorem execStale_keeps {dest q} : Keeps ok s (execStale c dest q s) := 
  onCore_keeps hok fun _ => by simp

theorem execSet_keeps {d imm} : Keeps ok s (execSet c d imm s) := 
  seqTake_keeps hok fun _ => by simp

theorem execAddi_keeps {d a imm} : Keeps ok s (execAddi c d a imm s) := 
  seqTake_keeps hok fun _ => by simp

theorem execAdd_keeps {d a b} : Keeps ok s (execAdd c d a b s) := 
  seqTake_keeps hok fun _ => by simp

theorem execSub_keeps {d a b} : Keeps ok s (execSub c d a b s) := 
  seqTake_keeps hok fun _ => by simp

theorem execShl_keeps {d a sh} : Keeps ok s (execShl c d a sh s) := 
  seqTake_keeps hok fun _ => by simp

theorem execShr_keeps {d a sh} : Keeps ok s (execShr c d a sh s) := 
  seqTake_keeps hok fun _ => by simp

theorem execLd_keeps {d a imm} : Keeps ok s (execLd c d a imm s) := by
  unfold execLd
  refine seqTake_keeps hok fun k => ?_
  split <;> simp

theorem execSt_keeps {d a imm} : Keeps ok s (execSt c d a imm s) := by
  unfold execSt
  refine seqTake_keeps hok fun k => ?_
  split <;> simp

theorem execGetid_keeps {d sel} : Keeps ok s (execGetid c d sel s) := by
  unfold execGetid
  refine seqTake_keeps hok fun k => ?_
  repeat' split
  all_goals simp

theorem execLoop_keeps {count creg csrc ireg ien last} : Keeps ok s (execLoop c count creg csrc ireg ien last s) := by
  unfold execLoop
  refine seqTake_keeps hok fun k => ?_
  dsimp only
  split <;> simp

theorem execLexit_keeps : Keeps ok s (execLexit c s) := by
  unfold execLexit
  refine seqTake_keeps hok fun k => ?_
  split <;> simp

theorem execJmp_keeps {target} : Keeps ok s (execJmp c target s) := 
  seqTake_keeps hok fun _ => by simp

theorem execBrz_keeps {a target} : Keeps ok s (execBrz c a target s) := 
  seqTake_keeps hok fun _ => by simp

theorem execBrnz_keeps {a target} : Keeps ok s (execBrnz c a target s) := 
  seqTake_keeps hok fun _ => by simp

theorem execBrlt_keeps {a b target} : Keeps ok s (execBrlt c a b target s) := 
  seqTake_keeps hok fun _ => by simp

theorem execHalt_keeps : Keeps ok s (execHalt c s) := 
  seqTake_keeps hok fun _ => rfl

theorem execTrap_keeps {code} : Keeps ok s (execTrap c code s) := 
  seqTake_keeps hok fun _ => by simp

theorem execNop_keeps : Keeps ok s (execNop c s) := 
  seqTake_keeps hok fun _ => by simp

theorem execSemwait_keeps {sem n} : Keeps ok s (execSemwait c sem n s) := 
  seqTake_keeps hok fun _ => by simp

theorem execSemsig_keeps {sem n} : Keeps ok s (execSemsig c sem n s) := by
  unfold execSemsig
  refine seqTake_keeps hok fun k => ?_
  split <;> simp

theorem execSemset_keeps {sem n} : Keeps ok s (execSemset c sem n s) := 
  seqTake_keeps hok fun _ => by simp

theorem execFence_keeps {mask} : Keeps ok s (execFence c mask s) := by
  unfold execFence
  refine seqTake_keeps hok fun k => ?_
  split <;> simp

theorem execBarrier_keeps {bid fen} : Keeps ok s (execBarrier c bid fen s) := by
  unfold execBarrier
  refine seqTake_keeps hok fun k => ?_
  split <;> simp

end

/-! #### The other commands -/

section
variable {ok : Bool} {s : State}

theorem execEventRecordArrival_keeps {b} (hok : ok = true → blockOk b = true) : Keeps ok s (execEventRecordArrival b s) := by
  unfold execEventRecordArrival
  refine onBlock_keeps hok ?_
  repeat' split
  all_goals simp

theorem execStagedApply_keeps {b group} (hok : ok = true → blockOk b = true) : Keeps ok s (execStagedApply b group s) := by
  unfold execStagedApply
  refine onBlock_keeps hok ?_
  split <;> simp

theorem execBlkSnap_keeps {b} (hok : ok = true → blockOk b = true) : Keeps ok s (execBlkSnap b s) := by
  unfold execBlkSnap
  refine onBlock_keeps hok ?_
  simp

theorem execBlockSnapArrival_keeps {b} (hok : ok = true → blockOk b = true) : Keeps ok s (execBlockSnapArrival b s) := by
  unfold execBlockSnapArrival
  refine onBlock_keeps hok ?_
  split <;> simp

theorem execStepCancel_keeps {pi seq} : Keeps ok s (execStepCancel pi seq s) := by
  unfold execStepCancel
  change State.kept _ = _
  dsimp only
  repeat' split
  all_goals simp

theorem execRegionReset_keeps {pi ri} : Keeps ok s (execRegionReset pi ri s) := by
  unfold execRegionReset
  change State.kept _ = _
  dsimp only
  repeat' split
  all_goals simp

theorem execStepForm_keeps {pi} : Keeps ok s (execStepForm pi s) := by
  unfold execStepForm
  change State.kept _ = _
  dsimp only
  repeat' split
  all_goals simp

theorem execMiscorrectionResolve_keeps {n} : Keeps ok s (execMiscorrectionResolve n s) := by
  unfold execMiscorrectionResolve
  change State.kept _ = _
  split <;> simp

theorem execMigrationCopyEnd_keeps {pi seg page} : Keeps ok s (execMigrationCopyEnd pi seg page s) := by
  unfold execMigrationCopyEnd
  change State.kept _ = _
  repeat' split
  all_goals simp

theorem execMigrationEnd_keeps {pi seg page} : Keeps ok s (execMigrationEnd pi seg page s) := by
  unfold execMigrationEnd
  change State.kept _ = _
  repeat' split
  all_goals simp

theorem execRefclkLoss_keeps {cause} : Keeps ok s (execRefclkLoss cause s) := by
  unfold execRefclkLoss
  refine noted_keeps ?_
  change State.kept _ = _
  split <;> simp

theorem execReqItem_keeps {h pd ptrOk} : Keeps ok s (execReqItem h pd ptrOk s) := by
  unfold execReqItem
  change State.kept _ = _
  dsimp only
  repeat' split
  all_goals simp

theorem execAdmissionCycle_keeps : Keeps ok s (execAdmissionCycle s) := by
  unfold execAdmissionCycle
  change State.kept _ = _
  dsimp only
  repeat' split
  all_goals simp

theorem execStreamRelease_keeps {slot} : Keeps ok s (execStreamRelease slot s) := by
  unfold execStreamRelease
  change State.kept _ = _
  simp

theorem execZeroingComplete_keeps {sid} : Keeps ok s (execZeroingComplete sid s) := by
  unfold execZeroingComplete
  change State.kept _ = _
  split <;> simp

theorem execChallengeExpiry_keeps : Keeps ok s (execChallengeExpiry s) := by
  unfold execChallengeExpiry
  change State.kept _ = _
  split <;> simp

theorem execHeartbeat_keeps : Keeps ok s (execHeartbeat s) := by
  unfold execHeartbeat
  change State.kept _ = _
  split <;> simp

theorem execLodestarTakeover_keeps {selfReport} : Keeps ok s (execLodestarTakeover selfReport s) := by
  unfold execLodestarTakeover
  refine noted_keeps ?_
  change State.kept _ = _
  repeat' split
  all_goals simp

theorem execLodestarStandbyLost_keeps : Keeps ok s (execLodestarStandbyLost s) := by
  unfold execLodestarStandbyLost
  refine noted_keeps ?_
  change State.kept _ = _
  split <;> simp

theorem execLodestarSilence_keeps {k} : Keeps ok s (execLodestarSilence k s) := by
  unfold execLodestarSilence
  refine noted_keeps ?_
  change State.kept _ = _
  split <;> simp

theorem execNzDataFrame_keeps {i h} : Keeps ok s (execNzDataFrame i h s) := by
  unfold execNzDataFrame
  refine onFrame_keeps fun t x ht => ?_
  simp_all

theorem execNzAckFrame_keeps {i h} : Keeps ok s (execNzAckFrame i h s) := by
  unfold execNzAckFrame
  refine onFrame_keeps fun t x ht => ?_
  simp_all

theorem execNzCreditFrame_keeps {i h} : Keeps ok s (execNzCreditFrame i h s) := by
  unfold execNzCreditFrame
  refine onFrame_keeps fun t x ht => ?_
  simp_all

theorem execLaneTrainingEnd_keeps {i} : Keeps ok s (execLaneTrainingEnd i s) := by
  unfold execLaneTrainingEnd
  change State.kept _ = _
  repeat' split
  all_goals simp

theorem execLinkBringupTimeout_keeps {i} : Keeps ok s (execLinkBringupTimeout i s) := by
  unfold execLinkBringupTimeout
  refine noted_keeps ?_
  change State.kept _ = _
  repeat' split
  all_goals simp

theorem execLinkRetry_keeps {i} : Keeps ok s (execLinkRetry i s) := by
  unfold execLinkRetry
  change State.kept _ = _
  repeat' split
  all_goals simp

theorem execLinkSilence1ms_keeps {i} : Keeps ok s (execLinkSilence1ms i s) := by
  unfold execLinkSilence1ms
  change State.kept _ = _
  repeat' split
  all_goals simp

theorem execLinkSilence10ms_keeps {i} : Keeps ok s (execLinkSilence10ms i s) := by
  unfold execLinkSilence10ms
  refine noted_keeps ?_
  change State.kept _ = _
  repeat' split
  all_goals simp

theorem execRetrainEnd_keeps {i} : Keeps ok s (execRetrainEnd i s) := by
  unfold execRetrainEnd
  refine noted_keeps ?_
  change State.kept _ = _
  repeat' split
  all_goals simp

theorem execLinkDown_keeps {i} : Keeps ok s (execLinkDown i s) := by
  unfold execLinkDown
  refine noted_keeps ?_
  change State.kept _ = _
  repeat' split
  all_goals simp

theorem execNzLinkReset_keeps {l} : Keeps ok s (execNzLinkReset l s) := by
  unfold execNzLinkReset
  refine noted_keeps ?_
  change State.kept _ = _
  rfl

theorem execTxcntWrapHandshake_keeps {i} : Keeps ok s (execTxcntWrapHandshake i s) := by
  unfold execTxcntWrapHandshake
  change State.kept _ = _
  repeat' split
  all_goals simp

theorem execHandshake_keeps {i h} : Keeps ok s (execHandshake i h s) := by
  unfold execHandshake
  refine noted_keeps ?_
  change State.kept _ = _
  dsimp only
  repeat' split
  all_goals simp

theorem execEthFrameRx_keeps {p f} : Keeps ok s (execEthFrameRx p f s) := by
  unfold execEthFrameRx
  change State.kept _ = _
  repeat' split
  all_goals simp

theorem execArpRequest_keeps {p target mac ip} : Keeps ok s (execArpRequest p target mac ip s) := by
  unfold execArpRequest
  change State.kept _ = _
  split <;> simp

theorem execIcmpEcho_keeps {p v6 dst src payload} : Keeps ok s (execIcmpEcho p v6 dst src payload s) := by
  unfold execIcmpEcho
  change State.kept _ = _
  repeat' split
  all_goals simp

theorem execNeighborSolicitation_keeps {p target src} : Keeps ok s (execNeighborSolicitation p target src s) := by
  unfold execNeighborSolicitation
  change State.kept _ = _
  split <;> simp

theorem execArpReply_keeps {p ip mac} : Keeps ok s (execArpReply p ip mac s) := by
  unfold execArpReply
  change State.kept _ = _
  split <;> simp

theorem execNeighborAdvertisement_keeps {p ip mac} : Keeps ok s (execNeighborAdvertisement p ip mac s) := by
  unfold execNeighborAdvertisement
  change State.kept _ = _
  split <;> simp

theorem execPauseFrame_keeps {p pfc prios} : Keeps ok s (execPauseFrame p pfc prios s) := by
  unfold execPauseFrame
  change State.kept _ = _
  repeat' split
  all_goals simp

theorem execPauseTimeExpiry_keeps {p prios} : Keeps ok s (execPauseTimeExpiry p prios s) := by
  unfold execPauseTimeExpiry
  change State.kept _ = _
  simp

theorem execEthPortReset_keeps {p} : Keeps ok s (execEthPortReset p s) := by
  unfold execEthPortReset
  refine noted_keeps ?_
  change State.kept _ = _
  rfl

theorem execEthSignalLoss_keeps {p} : Keeps ok s (execEthSignalLoss p s) := by
  unfold execEthSignalLoss
  refine noted_keeps ?_
  change State.kept _ = _
  split <;> simp

theorem execEthTrainingEnd_keeps {p} : Keeps ok s (execEthTrainingEnd p s) := by
  unfold execEthTrainingEnd
  refine noted_keeps ?_
  change State.kept _ = _
  dsimp only
  split <;> simp

theorem execRqSegment_keeps {seg} : Keeps ok s (execRqSegment seg s) := by
  unfold execRqSegment
  change State.kept _ = _
  repeat' split
  all_goals simp

theorem execRqackTimer_keeps {k n} : Keeps ok s (execRqackTimer k n s) := by
  unfold execRqackTimer
  change State.kept _ = _
  repeat' split
  all_goals simp

theorem execRequestTimeout_keeps {k n} : Keeps ok s (execRequestTimeout k n s) := by
  unfold execRequestTimeout
  change State.kept _ = _
  repeat' split
  all_goals simp

theorem execConnRecordExpiry_keeps {k n} : Keeps ok s (execConnRecordExpiry k n s) := by
  unfold execConnRecordExpiry
  change State.kept _ = _
  repeat' split
  all_goals simp

theorem execRsack_keeps {k n ack sack} : Keeps ok s (execRsack k n ack sack s) := by
  unfold execRsack
  change State.kept _ = _
  dsimp only
  repeat' split
  all_goals simp

theorem execRqpCancel_keeps {k n} : Keeps ok s (execRqpCancel k n s) := by
  unfold execRqpCancel
  change State.kept _ = _
  repeat' split
  all_goals simp

theorem execRsRetransmit_keeps {k n seq} : Keeps ok s (execRsRetransmit k n seq s) := by
  unfold execRsRetransmit
  change State.kept _ = _
  repeat' split
  all_goals simp

theorem execRequestOpen_keeps {k n r} : Keeps ok s (execRequestOpen k n r s) := by
  unfold execRequestOpen
  change State.kept _ = _
  repeat' split
  all_goals simp

theorem execForwardedRequest_keeps {l src key pre body} : Keeps ok s (execForwardedRequest l src key pre body s) := by
  unfold execForwardedRequest
  change State.kept _ = _
  dsimp only
  repeat' split
  all_goals simp

theorem execForwardedResponse_keeps {l key body} : Keeps ok s (execForwardedResponse l key body s) := by
  unfold execForwardedResponse
  change State.kept _ = _
  dsimp only
  repeat' split
  all_goals simp

theorem execLayerDoorbellComplete_keeps {gid layer} : Keeps ok s (execLayerDoorbellComplete gid layer s) := by
  unfold execLayerDoorbellComplete
  refine onGroup_keeps rfl fun g => ?_
  repeat' split
  all_goals simp

theorem execCollDeadline_keeps {gid layer} : Keeps ok s (execCollDeadline gid layer s) := by
  unfold execCollDeadline
  refine onGroup_keeps rfl fun g => ?_
  split <;> simp

theorem execJoin_keeps {gid rank hash arithRev} : Keeps ok s (execJoin gid rank hash arithRev s) := by
  unfold execJoin
  change State.kept _ = _
  repeat' split
  all_goals simp

theorem execJoinWindowEnd_keeps {gid} : Keeps ok s (execJoinWindowEnd gid s) := by
  unfold execJoinWindowEnd
  change State.kept _ = _
  repeat' split
  all_goals simp

theorem execFormed_keeps {gid ranks} : Keeps ok s (execFormed gid ranks s) := by
  unfold execFormed
  change State.kept _ = _
  repeat' split
  all_goals simp

theorem execGroupNoleader_keeps {gid} : Keeps ok s (execGroupNoleader gid s) := by
  unfold execGroupNoleader
  change State.kept _ = _
  repeat' split
  all_goals simp

theorem execShardDone_keeps {gid rank incomplete} : Keeps ok s (execShardDone gid rank incomplete s) := by
  unfold execShardDone
  refine onGroup_keeps rfl fun g => ?_
  dsimp only
  repeat' split
  all_goals simp

theorem execLeaderStepTimeout_keeps {gid} : Keeps ok s (execLeaderStepTimeout gid s) := by
  unfold execLeaderStepTimeout
  refine onGroup_keeps rfl fun g => ?_
  dsimp only
  repeat' split
  all_goals simp

theorem execCollCommit_keeps {gid} : Keeps ok s (execCollCommit gid s) := by
  unfold execCollCommit
  refine onGroup_keeps rfl fun g => ?_
  simp

theorem execCollAbort_keeps {gid} : Keeps ok s (execCollAbort gid s) := by
  unfold execCollAbort
  refine onGroup_keeps rfl fun g => ?_
  split <;> simp

theorem execGroupLost_keeps {gid} : Keeps ok s (execGroupLost gid s) := by
  unfold execGroupLost
  refine onGroup_keeps rfl fun g => ?_
  simp

theorem execUpdateAck_keeps {gid blk rank} : Keeps ok s (execUpdateAck gid blk rank s) := by
  unfold execUpdateAck
  refine onGroup_keeps rfl fun g => ?_
  simp

theorem execMcDropped_keeps {gid rank} : Keeps ok s (execMcDropped gid rank s) := by
  unfold execMcDropped
  refine onGroup_keeps rfl fun g => ?_
  split <;> simp

theorem execDropped_keeps {gid owner} : Keeps ok s (execDropped gid owner s) := by
  unfold execDropped
  refine onGroup_keeps rfl fun g => ?_
  repeat' split
  all_goals simp

theorem execPull_keeps {gid blk rank} : Keeps ok s (execPull gid blk rank s) := by
  unfold execPull
  refine onGroup_keeps rfl fun g => ?_
  split <;> simp

theorem execLoadPart_keeps {h body} : Keeps ok s (execLoadPart h body s) := by
  unfold execLoadPart
  change State.kept _ = _
  repeat' split
  all_goals simp

theorem execLoadAbandoned_keeps : Keeps ok s (execLoadAbandoned s) := by
  unfold execLoadAbandoned
  change State.kept _ = _
  split <;> simp

theorem execUnloadComplete_keeps {pi} : Keeps ok s (execUnloadComplete pi s) := by
  unfold execUnloadComplete
  change State.kept _ = _
  repeat' split
  all_goals simp

theorem execL2Entry_keeps : Keeps ok s (execL2Entry s) := by
  unfold execL2Entry
  refine noted_keeps ?_
  change State.kept _ = _
  split <;> simp

theorem execL3Entry_keeps : Keeps ok s (execL3Entry s) := by
  unfold execL3Entry
  refine noted_keeps ?_
  change State.kept _ = _
  repeat' split
  all_goals simp

theorem execWakeTrigger_keeps {cause} : Keeps ok s (execWakeTrigger cause s) := by
  unfold execWakeTrigger
  refine noted_keeps ?_
  change State.kept _ = _
  repeat' split
  all_goals simp

theorem execWakeEnd_keeps : Keeps ok s (execWakeEnd s) := by
  unfold execWakeEnd
  refine noted_keeps ?_
  change State.kept _ = _
  repeat' split
  all_goals simp

theorem execParkSet_keeps {value} : Keeps ok s (execParkSet value s) := by
  unfold execParkSet
  refine noted_keeps ?_
  change State.kept _ = _
  simp

theorem execParkClear_keeps {value} : Keeps ok s (execParkClear value s) := by
  unfold execParkClear
  refine noted_keeps ?_
  change State.kept _ = _
  simp

theorem execLpmaxWrite_keeps {value} : Keeps ok s (execLpmaxWrite value s) := by
  unfold execLpmaxWrite
  refine noted_keeps ?_
  change State.kept _ = _
  simp

theorem execIrqStatusClear_keeps {value} : Keeps ok s (execIrqStatusClear value s) := by
  unfold execIrqStatusClear
  change State.kept _ = _
  simp

theorem execTelEnableSet_keeps {value} : Keeps ok s (execTelEnableSet value s) := by
  unfold execTelEnableSet
  change State.kept _ = _
  simp

theorem execTelEnableClear_keeps {value} : Keeps ok s (execTelEnableClear value s) := by
  unfold execTelEnableClear
  change State.kept _ = _
  simp

theorem execTelTailWrite_keeps {value} : Keeps ok s (execTelTailWrite value s) := by
  unfold execTelTailWrite
  change State.kept _ = _
  simp

theorem execFlashErase_keeps {dev} : Keeps ok s (execFlashErase dev s) := by
  unfold execFlashErase
  change State.kept _ = _
  simp

theorem execFlashProgram_keeps {dev} : Keeps ok s (execFlashProgram dev s) := by
  unfold execFlashProgram
  change State.kept _ = _
  simp

theorem execFlashOpTimeout_keeps : Keeps ok s (execFlashOpTimeout s) := by
  unfold execFlashOpTimeout
  change State.kept _ = _
  split <;> simp

theorem execRegisterWrite_keeps {view offset value fullBytes} : Keeps ok s (execRegisterWrite view offset value fullBytes s) := by
  unfold execRegisterWrite
  refine noted_keeps ?_
  change State.kept _ = _
  split <;> simp

theorem execStagedWrite_keeps {view offset value} : Keeps ok s (execStagedWrite view offset value s) := by
  unfold execStagedWrite
  refine noted_keeps ?_
  change State.kept _ = _
  simp

theorem execC64LoRead_keeps {view offset} : Keeps ok s (execC64LoRead view offset s) := by
  unfold execC64LoRead
  change State.kept _ = _
  simp

theorem execStrobeTelemetry_keeps {view} : Keeps ok s (execStrobeTelemetry view s) := by
  unfold execStrobeTelemetry
  change State.kept _ = _
  simp

theorem execStrobeSlotTable_keeps {view} : Keeps ok s (execStrobeSlotTable view s) := by
  unfold execStrobeSlotTable
  change State.kept _ = _
  simp

theorem execStrobeIngThresh_keeps {view} : Keeps ok s (execStrobeIngThresh view s) := by
  unfold execStrobeIngThresh
  change State.kept _ = _
  simp

theorem execStrobePortAddr_keeps {view port} : Keeps ok s (execStrobePortAddr view port s) := by
  unfold execStrobePortAddr
  change State.kept _ = _
  simp

theorem execKeyRemove_keeps {c keyid} : Keeps ok s (execKeyRemove c keyid s) := by
  unfold execKeyRemove
  refine sealedRun_keeps ?_
  rfl

theorem execCollDissolve_keeps {c gid} : Keeps ok s (execCollDissolve c gid s) := by
  unfold execCollDissolve
  refine noted_keeps ?_
  refine sealedRun_keeps ?_
  split <;> simp

theorem execLodestarSwitch_keeps {c} : Keeps ok s (execLodestarSwitch c s) := by
  unfold execLodestarSwitch
  refine noted_keeps ?_
  change State.kept _ = _
  repeat' split
  all_goals simp

theorem execAttestationRequest_keeps : Keeps ok s (execAttestationRequest s) := by
  unfold execAttestationRequest
  change State.kept _ = _
  simp

theorem execAttestationDone_keeps : Keeps ok s (execAttestationDone s) := by
  unfold execAttestationDone
  change State.kept _ = _
  repeat' split
  all_goals simp

theorem execRstInNRelease_keeps : Keeps ok s (execRstInNRelease s) := by
  unfold execRstInNRelease
  change State.kept _ = _
  split <;> simp

theorem execPerstNRelease_keeps : Keeps ok s (execPerstNRelease s) := by
  unfold execPerstNRelease
  change State.kept _ = _
  split <;> simp

theorem execD3hotExit_keeps : Keeps ok s (execD3hotExit s) := by
  unfold execD3hotExit
  change State.kept _ = _
  simp

theorem execPcieLinkUp_keeps {rate width flit} : Keeps ok s (execPcieLinkUp rate width flit s) := by
  unfold execPcieLinkUp
  change State.kept _ = _
  split <;> simp

theorem execRomStageEnd_keeps {laOk lbOk refOk pllOk} : Keeps ok s (execRomStageEnd laOk lbOk refOk pllOk s) := by
  unfold execRomStageEnd
  refine noted_keeps ?_
  change State.kept _ = _
  repeat' split
  all_goals simp

theorem execChartImageCheck_keeps {n t keys} : Keeps ok s (execChartImageCheck n t keys s) := by
  unfold execChartImageCheck
  refine noted_keeps ?_
  change State.kept _ = _
  repeat' split
  all_goals simp

theorem execFlashReadTimeout_keeps {n} : Keeps ok s (execFlashReadTimeout n s) := by
  unfold execFlashReadTimeout
  refine noted_keeps ?_
  change State.kept _ = _
  split <;> simp

theorem execSelfTestEnd_keeps {t} : Keeps ok s (execSelfTestEnd t s) := by
  unfold execSelfTestEnd
  refine noted_keeps ?_
  change State.kept _ = _
  repeat' split
  all_goals simp

theorem execLinkStageEnd_keeps : Keeps ok s (execLinkStageEnd s) := by
  unfold execLinkStageEnd
  refine noted_keeps ?_
  change State.kept _ = _
  split <;> simp

theorem execStartTimeout_keeps : Keeps ok s (execStartTimeout s) := by
  unfold execStartTimeout
  refine noted_keeps ?_
  change State.kept _ = _
  split <;> simp

theorem execAlertResponse_keeps : Keeps ok s (execAlertResponse s) := by
  unfold execAlertResponse
  change State.kept _ = _
  split <;> simp

theorem execBypass_keeps : Keeps ok s (execBypass s) := by
  unfold execBypass
  change State.kept _ = _
  split <;> simp

theorem execIdcode_keeps : Keeps ok s (execIdcode s) := by
  unfold execIdcode
  change State.kept _ = _
  split <;> simp

theorem execSamplePreload_keeps {cells} : Keeps ok s (execSamplePreload cells s) := by
  unfold execSamplePreload
  change State.kept _ = _
  repeat' split
  all_goals simp

theorem execExtest_keeps : Keeps ok s (execExtest s) := by
  unfold execExtest
  change State.kept _ = _
  repeat' split
  all_goals simp

theorem execCoreReset_keeps {c} (hok : ok = true → coreOk c = true) : Keeps ok s (execCoreReset c s) :=
  onCore_keeps hok fun _ => coreReset_kept ..

theorem execOrphanNotice_keeps {v c} (hv : ok = true → v < Config.nSites) (hok : ok = true → coreOk c = true) :
    Keeps ok s (execOrphanNotice v c s) := by
  unfold execOrphanNotice
  split
  next h => exact fault_answered fun hwf => absurd (hv hwf) (by omega)
  · refine onCore_keeps hok fun k => ?_
    dsimp only
    split <;> simp

theorem execOrphanNoticeAck_keeps {v c} (hv : ok = true → v < Config.nSites) (hok : ok = true → coreOk c = true) :
    Keeps ok s (execOrphanNoticeAck v c s) := by
  unfold execOrphanNoticeAck
  split
  next h => exact fault_answered fun hwf => absurd (hv hwf) (by omega)
  · refine onCore_keeps hok fun k => ?_
    split <;> rfl

theorem execOutputGate_keeps {pi seq} : Keeps ok s (execOutputGate pi seq s) := by
  unfold execOutputGate
  change State.kept _ = _
  split
  · rfl
  extract_lets held mine dirty
  split
  · rfl
  split
  · simp
  · rw [reportEnded_kept]
    change State.kept (if _ then _ else if _ then _ else _) = _
    split
    · exact (setSteps_kept ..).trans (faultPattern_kept ..)
    split
    · exact (setSteps_kept ..).trans (kept_foldl _ _ _ fun _ _ => endStream_kept ..)
    · exact gateStep_kept ..

theorem execResourceHang_keeps {res} {h : Holder} (hok : ok = true → h.wf = true) : Keeps ok s (execResourceHang res h s) := by
  unfold execResourceHang
  extract_lets s0
  have h0 : s0.kept = s.kept := rfl
  cases h with
  | engine c eng => exact onCore_keeps hok fun k => (faultEngine_kept ..).trans h0
  | vaultTask v =>
    change Answered _ _ (if Config.nSites ≤ v then _ else _)
    split
    next h => exact fault_answered fun hwf => absurd (of_decide_eq_true (hok hwf)) (by omega)
    · exact (event_kept ..).trans h0
  | darning =>
    change State.kept _ = _
    have h1 := (event_kept s0 2 .resourceHang 0).trans h0
    split
    · exact (abandonCopy_kept ..).trans h1
    · exact (abandonCopy_kept ..).trans h1
    · exact h1
  | reduction pd gid blk => exact (hangReduction_kept ..).trans ((event_kept ..).trans h0)

theorem execLoadPart0_keeps {m h} : Keeps ok s (execLoadPart0 m h s) := by
  unfold execLoadPart0
  change State.kept _ = _
  repeat' split
  case h_2 s1 p heq =>
    have hr := reserve_kept s s.freePat (newPattern s m)
    rw [heq, keptOk_ok] at hr
    rw [loadProgress_kept]
    exact hr
  all_goals simp

theorem execFlashOpEnd_keeps : Keeps ok s (execFlashOpEnd s) := by
  unfold execFlashOpEnd
  change State.kept _ = _
  split
  · rfl
  · rw [flashDone_kept, flashPut_kept]

theorem execBar0PrivAccess_keeps {o w} : Keeps ok s (execBar0PrivAccess o w s) := by
  unfold execBar0PrivAccess
  extract_lets r
  have hr : r.1.kept = s.kept := by
    subst r
    split
    · exact readWord_kept ..
    · rfl
  change State.kept _ = _
  split
  · exact hr
  · exact (emit_kept ..).trans hr

theorem execKeyInstall_keeps {c p} : Keeps ok s (execKeyInstall c p s) := sealedRun_keeps (keyInstall_kept ..)

theorem execRegWrite_keeps {c pairs} : Keeps ok s (execRegWrite c pairs s) := noted_keeps (sealedRun_keeps (regWrite_kept ..))

theorem execRegRead_keeps {c offsets} : Keeps ok s (execRegRead c offsets s) := sealedRun_keeps (regRead_kept ..)

theorem execCollForm_keeps {c g} : Keeps ok s (execCollForm c g s) := noted_keeps (sealedRun_keeps (collForm_kept ..))

theorem execPatternUnload_keeps {c hash} : Keeps ok s (execPatternUnload c hash s) := sealedRun_keeps (patternUnload_kept ..)

theorem execStepReplay_keeps {pi seq} : Keeps ok s (execStepReplay pi seq s) := by
  unfold execStepReplay
  change State.kept _ = _
  split
  · split
    · rfl
    · dsimp only
      split
      · simp
      · simp [dispatchStep_kept]
  · rfl

theorem execVaultReadRequest_keeps {v ofs issuer first retry}
    (hok : ok = true → (v < Config.nSites ∧ ofs < Config.vaultBytes) ∧ issuerOk issuer = true) :
    Keeps ok s (execVaultReadRequest v ofs issuer first retry s) := by
  unfold execVaultReadRequest
  refine onByte_keeps hok fun a => ?_
  dsimp only
  repeat' split
  all_goals simp

theorem execVaultWriteRequest_keeps {v ofs data mask issuer first retry}
    (hok : ok = true → (v < Config.nSites ∧ ofs < Config.vaultBytes) ∧ issuerOk issuer = true) :
    Keeps ok s (execVaultWriteRequest v ofs data mask issuer first retry s) := by
  unfold execVaultWriteRequest
  refine onByte_keeps hok fun a => ?_
  dsimp only
  repeat' split
  all_goals simp

theorem execPatrolRead_keeps {v ofs first retry} (hok : ok = true → (v < Config.nSites ∧ ofs < Config.vaultBytes)) :
    Keeps ok s (execPatrolRead v ofs first retry s) := by
  unfold execPatrolRead
  refine onByte_keeps (fun h => ⟨hok h, rfl⟩) fun a => ?_
  dsimp only
  repeat' split
  all_goals simp

theorem execDarnRebuild_keeps {v ofs readable} (hok : ok = true → (v < Config.nSites ∧ ofs < Config.vaultBytes)) :
    Keeps ok s (execDarnRebuild v ofs readable s) := by
  unfold execDarnRebuild
  refine onByte_keeps (fun h => ⟨hok h, rfl⟩) fun a => ?_
  dsimp only
  repeat' split
  all_goals simp

theorem execRefreshOperation_keeps {v bank} (hok : ok = true → v < Config.nSites) : Keeps ok s (execRefreshOperation v bank s) := by
  unfold execRefreshOperation
  split
  next h => exact fault_answered fun hwf => absurd (hok hwf) (by omega)
  · dsimp only
    split
    · rfl
    · exact setVault_kept ..

theorem execMigrationStart_keeps {pi seg page v waits} (hok : ok = true → v < Config.nSites) :
    Keeps ok s (execMigrationStart pi seg page v waits s) := by
  unfold execMigrationStart
  split
  next h => exact fault_answered fun hwf => absurd (hok hwf) (by omega)
  · change State.kept _ = _
    dsimp only
    repeat' split
    all_goals simp

theorem execSiteTestEnd_keeps {t pass} (hok : ok = true → t < Config.nSites) : Keeps ok s (execSiteTestEnd t pass s) := by
  unfold execSiteTestEnd
  split
  next h => exact fault_answered fun hwf => absurd (hok hwf) (by omega)
  · refine noted_keeps ?_
    change State.kept _ = _
    dsimp only
    repeat' split
    all_goals simp

theorem execPreemption_keeps {r held waited progress} (hok : ok = true → resourceOk r = true) : Keeps ok s (execPreemption r held waited progress s) := by
  unfold execPreemption
  split
  next h => exact fault_answered fun hwf => by simp [hok hwf] at h
  · change State.kept _ = _
    dsimp only
    repeat' split
    all_goals simp

theorem execFoldWindowEnd_keeps {b code} (hok : ok = true → blockOk b = true) : Keeps ok s (execFoldWindowEnd b code s) := by
  unfold execFoldWindowEnd
  refine onBlock_keeps hok ?_
  dsimp only
  repeat' split
  all_goals simp

theorem execContribChunk_keeps {c} : Keeps ok s (execContribChunk c s) := by
  unfold execContribChunk
  refine onChunk_keeps fun t g ht => ?_
  split <;> simpa using ht

theorem execPartialChunk_keeps {c node} : Keeps ok s (execPartialChunk c node s) := by
  unfold execPartialChunk
  refine onChunk_keeps fun t g ht => ?_
  split <;> simpa using ht

theorem execUpdateChunk_keeps {c} : Keeps ok s (execUpdateChunk c s) := by
  unfold execUpdateChunk
  refine onChunk_keeps fun t g ht => ?_
  dsimp only
  split
  · exact ht
  · split <;> simpa using ht

theorem execPullAnswer_keeps {c} : Keeps ok s (execPullAnswer c s) := by
  unfold execPullAnswer
  refine onChunk_keeps fun t g ht => ?_
  dsimp only
  repeat' split
  all_goals simp [ht]

theorem withHelm_kept (s : State) (h : HelmSt) : State.kept { s with helm := h } = s.kept := rfl

theorem execComputePllLoss_keeps {d} (hok : ok = true → d < 24) : Keeps ok s (execComputePllLoss d s) := by
  unfold execComputePllLoss
  split
  next h => exact fault_answered fun hwf => absurd (hok hwf) (by omega)
  · refine noted_keeps ?_
    change State.kept _ = _
    split
    · rfl
    · rw [loseKv_kept, loseAbsent_kept, withHelm_kept, kept_foldl _ _ _ (fun _ _ => setCore_kept ..), retireDie_kept]

theorem execNzNakFrame_keeps {i h} : Keeps ok s (execNzNakFrame i h s) := by
  unfold execNzNakFrame
  refine onFrame_keeps fun t x ht => ?_
  extract_lets run x' s1
  split <;> simpa [s1] using ht

theorem execStackTestEnd_keeps {bv bs} (hv : ok = true → bv.all vaultOk = true) (hs : ok = true → bs.all dieOk = true) :
    Keeps ok s (execStackTestEnd bv bs s) := by
  unfold execStackTestEnd
  split
  next h =>
    refine fault_answered fun hwf => ?_
    have := hv hwf
    simp only [List.any_eq_true, List.all_eq_true, decide_eq_true_eq, vaultOk] at h this
    obtain ⟨v, hmem, hle⟩ := h
    exact absurd (this v hmem) (by omega)
  split
  next h =>
    refine fault_answered fun hwf => ?_
    have := hs hwf
    simp only [List.any_eq_true, List.all_eq_true, decide_eq_true_eq, dieOk] at h this
    obtain ⟨v, hmem, hle⟩ := h
    exact absurd (this v hmem) (by omega)
  change State.kept _ = _
  split
  · rfl
  · simp

end
end Sys2Proof.Machine

/-! ### Every step keeps the waiting commands and the range of the duty levels -/

namespace Sys2Proof.Machine

/-! #### The commands that change the power state (R429 to R431, R495 to R512) -/

/-- Every duty level lies from 2 to 16 (R500). -/
def Power.dutyOk (p : Power) : Prop := 2 ≤ p.dPwr ∧ p.dPwr ≤ 16 ∧ ∀ e ∈ p.dTh, 2 ≤ e.2 ∧ e.2 ≤ 16

/-- `t` has the waiting commands of `s`, and its duty levels are in range where those of `s` are. -/
def Steady (s t : State) : Prop := t.pending = s.pending ∧ (s.power.dutyOk → t.power.dutyOk)

theorem Steady.refl (s : State) : Steady s s := ⟨rfl, id⟩

theorem Steady.trans {s t u : State} (h : Steady s t) (h' : Steady t u) : Steady s u :=
  ⟨h'.1.trans h.1, h'.2 ∘ h.2⟩

theorem Steady.of_kept {s t : State} (h : t.kept = s.kept) : Steady s t := by
  obtain ⟨hpower, hpending⟩ := Prod.mk.inj h
  exact ⟨hpending, fun hs => hpower ▸ hs⟩

theorem Keeps.steady {ok : Bool} {s : State} {o : Host.Outcome State Fault Refusal} (h : Keeps ok s o) : Answered ok (Steady s) o :=
  h.mono fun _ => Steady.of_kept

theorem noted_steady {ok : Bool} {s : State} {o : Host.Outcome State Fault Refusal} (h : Answered ok (Steady s) o) :
    Answered ok (Steady s) (noted s o) := by
  cases o with
  | next t => exact Steady.trans h (Steady.of_kept (note_kept s t))
  | fault r => exact h
  | refused r => exact h

/-- A change of the power state that leaves both kinds of duty level alone. -/
theorem Steady.of_duty {s t : State} (hpending : t.pending = s.pending) (hd : t.power.dPwr = s.power.dPwr)
    (ht : t.power.dTh = s.power.dTh) : Steady s t := by
  refine ⟨hpending, fun h => ?_⟩
  rwa [Power.dutyOk, hd, ht]

/-- Power-good and every device-level reset put D_pwr at 16 and forget every D_th. -/
theorem Steady.of_full {s t : State} (hpending : t.pending = s.pending) (hd : t.power.dPwr = 16) (ht : t.power.dTh = []) :
    Steady s t := by
  refine ⟨hpending, fun _ => ?_⟩
  rw [Power.dutyOk, hd, ht]
  simp

theorem deviceReset_steady (s : State) (host : HostIf) (fast : Bool) : Steady s (deviceReset s host fast) :=
  Steady.of_full rfl rfl rfl

theorem powerOff_steady (s : State) : Steady s (powerOff s) :=
  (Steady.of_kept (cutFlash_kept s)).trans (Steady.of_full rfl rfl rfl)

theorem thermalTrip_steady (s : State) : Steady s (thermalTrip s) :=
  (powerOff_steady s).trans (Steady.of_duty rfl rfl rfl)

theorem warmRestart_steady (s : State) (hash : BitVec 384) : Steady s (warmRestart s hash) := by
  unfold warmRestart
  extract_lets kept s1
  split <;> exact Steady.of_full rfl rfl rfl

theorem nextDPwr_range {d : Nat} (p cap : Nat) (hlo : 2 ≤ d) (hhi : d ≤ 16) : 2 ≤ nextDPwr d p cap ∧ nextDPwr d p cap ≤ 16 := by
  unfold nextDPwr
  split
  · omega
  · split <;> omega

/-- Each entry of a sparse map and its default having a property, so has every value that is read. -/
theorem Sparse.get_of_forall {α : Type} {p : α → Prop} {d : α} {m : Sparse α} (hd : p d) (hm : ∀ e ∈ m, p e.2) (k : Nat) :
    p (Sparse.get d m k) := by
  induction m with
  | nil => exact hd
  | cons e l ih =>
    rw [Sparse.get]
    split
    · exact hm _ List.mem_cons_self
    · exact ih fun e he => hm e (List.mem_cons_of_mem _ he)

/-- A recorded D_th is in range, and one that is not recorded is 16. -/
theorem dTh_range {s : State} (h : s.power.dutyOk) (d : Nat) : 2 ≤ s.dTh d ∧ s.dTh d ≤ 16 :=
  Sparse.get_of_forall (p := fun n => 2 ≤ n ∧ n ≤ 16) (by decide) h.2.2 d

theorem nextDTh_range {s : State} (h : s.power.dutyOk) (die ms : Nat) : 2 ≤ nextDTh s die ms ∧ nextDTh s die ms ≤ 16 := by
  have hd := dTh_range h die
  unfold nextDTh
  extract_lets tj td d
  split
  · omega
  split
  · omega
  split
  · omega
  split <;> omega

theorem Sparse.eq_or_mem_of_mem_set {α : Type} [DecidableEq α] {d v : α} {m : Sparse α} {k : Nat} {e : Nat × α}
    (h : e ∈ Sparse.set d m k v) : e = (k, v) ∨ e ∈ m := by
  unfold Sparse.set at h
  dsimp only at h
  split at h
  · exact .inr (List.mem_of_mem_filter h)
  · exact ((Sparse.mem_put ..).1 h).imp_right List.mem_of_mem_filter

section
variable {ok : Bool} {s : State}

theorem execColdReset_steady : Answered ok (Steady s) (execColdReset s) := by
  change Steady s _
  split
  · exact .refl s
  · exact (deviceReset_steady ..).trans (.of_kept (emit_kept ..))

theorem execRstInN_steady {n} : Answered ok (Steady s) (execRstInN n s) := by
  change Steady s _
  split
  · exact .refl s
  · exact (deviceReset_steady s s.hostDown true).trans (.of_kept rfl)

theorem execWarmRestart_steady {c hash} : Answered ok (Steady s) (execWarmRestart c hash s) := by
  refine noted_steady ?_
  change Steady s _
  split
  · exact .refl s
  split
  · exact .of_kept (sealedEnd_kept ..)
  · exact (Steady.of_kept (sealedEnd_kept ..)).trans (warmRestart_steady ..)

theorem execPowerUp_steady : Answered ok (Steady s) (execPowerUp s) := by
  change Steady s _
  split
  · exact .refl s
  · exact .of_full rfl rfl rfl

/-- The rails go down where they are up. -/
theorem railsDown_steady : Steady s (if s.power.rails then powerOff s else s) := by
  split
  · exact powerOff_steady s
  · exact .refl s

theorem execPowerDown_steady : Answered ok (Steady s) (execPowerDown s) :=
  (railsDown_steady (s := s)).trans (Steady.of_duty rfl rfl rfl)

theorem execInputFaultShutdown_steady {high} : Answered ok (Steady s) (execInputFaultShutdown high s) :=
  (railsDown_steady (s := s)).trans (Steady.of_duty rfl rfl rfl)

theorem execVinSample_steady {n} : Answered ok (Steady s) (execVinSample n s) := by
  change Steady s _
  split <;> exact .of_duty rfl rfl rfl

theorem execFastCurrentLimit_steady : Answered ok (Steady s) (execFastCurrentLimit s) := by
  refine noted_steady ?_
  change Steady s _
  split
  · exact ⟨rfl, fun ⟨_, _, hth⟩ => ⟨(by decide : 2 ≤ 4), (by decide : 4 ≤ 16), hth⟩⟩
  · exact .refl s

theorem execDutyPowerUpdate_steady {p} : Answered ok (Steady s) (execDutyPowerUpdate p s) := by
  refine noted_steady ?_
  change Steady s _
  split
  · refine ⟨rfl, fun ⟨hlo, hhi, hth⟩ => ?_⟩
    obtain ⟨hlo', hhi'⟩ := nextDPwr_range p (powerCap10 s.pwr.pcap s.power.vin) hlo hhi
    exact ⟨hlo', hhi', hth⟩
  · exact .refl s

theorem execDutyThermalUpdate_steady {d ms} (hok : ok = true → d < 24) : Answered ok (Steady s) (execDutyThermalUpdate d ms s) := by
  unfold execDutyThermalUpdate
  split
  next h => exact fault_answered fun hwf => absurd (hok hwf) (by omega)
  · refine noted_steady ?_
    change Steady s _
    split
    · refine ⟨rfl, fun h => ⟨h.1, h.2.1, fun e he => ?_⟩⟩
      rcases Sparse.eq_or_mem_of_mem_set he with rfl | he
      · exact nextDTh_range h d ms
      · exact h.2.2 e he
    · exact .refl s

theorem refreshAfter_steady (i : SensorId) : Steady s (refreshAfter s i) := by
  unfold refreshAfter
  split
  · exact .of_duty rfl rfl rfl
  · exact .refl s

theorem execSensorSample_steady {i v} (hok : ok = true → sensorExists i = true) :
    Answered ok (Steady s) (execSensorSample i v s) := by
  unfold execSensorSample
  split
  next h => exact fault_answered fun hwf => by simp [hok hwf] at h
  · refine noted_steady ?_
    change Steady s _
    split
    · extract_lets x p s1 s2
      have hread : Steady s s2 := (Steady.of_duty rfl rfl rfl : Steady s s1).trans (refreshAfter_steady i)
      split
      · exact hread.trans (thermalTrip_steady _)
      · exact hread
    · exact .refl s

theorem execClearFaults_steady : Answered ok (Steady s) (execClearFaults s) := Steady.of_duty rfl rfl rfl

theorem execPmbusInvalidCommand_steady : Answered ok (Steady s) (execPmbusInvalidCommand s) := Steady.of_duty rfl rfl rfl

end

/-! #### The numbers of a well-formed command -/

theorem resourceOk_eq_wf (r : Resource) : resourceOk r = r.wf := by
  cases r <;> simp [resourceOk, Resource.wf, coreOk, vaultOk]

theorem sensorExists_eq_wf (i : SensorId) : sensorExists i = i.wf := by
  cases i <;> rfl

theorem issuerOk_eq_wf (i : Option (Nat × Fin 6)) : issuerOk i = issuerWf i := by
  cases i <;> rfl

theorem vaultByte_of_wf {v ofs : Nat} {issuer : Option (Nat × Fin 6)}
    (h : (vaultOk v && decide (ofs < Config.vaultBytes) && issuerWf issuer) = true) :
    (v < Config.nSites ∧ ofs < Config.vaultBytes) ∧ issuerOk issuer = true := by
  simpa [vaultOk, issuerOk_eq_wf] using h

theorem vaultOffset_of_wf {v ofs : Nat} (h : (vaultOk v && decide (ofs < Config.vaultBytes)) = true) :
    v < Config.nSites ∧ ofs < Config.vaultBytes := by
  simpa [vaultOk] using h

theorem smbRead_keeps {ok : Bool} {s : State} {v : Nat} : Keeps ok s (smbRead s v) := by
  unfold smbRead
  change State.kept _ = _
  repeat' split
  all_goals simp

theorem pmbus_keeps {ok : Bool} {s t : State} {l : List Byte} (h : t.kept = s.kept) : Keeps ok s (pmbus t l) :=
  (emit_kept ..).trans h

/-- Of every command: it is answered, its answer has the waiting commands of `s`, and the duty levels stay in range. -/
theorem exec_steady (i : Instr) (s : State) : Answered i.wf (Steady s) (exec i s) := by
  cases i with
  | registerResult => exact (execRegisterResult_keeps id).steady
  | semWaitGrant => exact (execSemWaitGrant_keeps id).steady
  | fenceEnd => exact (execFenceEnd_keeps id).steady
  | haltDrainEnd => exact (execHaltDrainEnd_keeps id).steady
  | barrierArrival => exact (execBarrierArrival_keeps id).steady
  | barrierRelease => exact (execBarrierRelease_keeps id).steady
  | dispatch => exact (execDispatch_keeps Bool.and_elim_left).steady
  | waitTimeout => exact (execWaitTimeout_keeps id).steady
  | stepTimeout => exact (execStepTimeout_keeps id).steady
  | slotStall => exact (execSlotStall_keeps id).steady
  | clear => exact (execClear_keeps id).steady
  | coreReset => exact (execCoreReset_keeps id).steady
  | lockRelease => exact (execLockRelease_keeps Bool.and_elim_left).steady
  | orphanNotice => exact (execOrphanNotice_keeps (fun h => of_decide_eq_true (Bool.and_elim_left h)) Bool.and_elim_right).steady
  | orphanNoticeAck => exact (execOrphanNoticeAck_keeps (fun h => of_decide_eq_true (Bool.and_elim_left h)) Bool.and_elim_right).steady
  | stepCancel => exact execStepCancel_keeps.steady
  | cancel => exact (execCancel_keeps id).steady
  | drained => exact (execDrained_keeps id).steady
  | cancelTimeout => exact (execCancelTimeout_keeps id).steady
  | regionStop => exact (execRegionStop_keeps id).steady
  | regionReset => exact execRegionReset_keeps.steady
  | stepForm => exact execStepForm_keeps.steady
  | stepReplay => exact execStepReplay_keeps.steady
  | haltReport => exact (execHaltReport_keeps id).steady
  | outputGate => exact execOutputGate_keeps.steady
  | vaultReadRequest => exact (execVaultReadRequest_keeps vaultByte_of_wf).steady
  | vaultWriteRequest => exact (execVaultWriteRequest_keeps vaultByte_of_wf).steady
  | patrolRead => exact (execPatrolRead_keeps vaultOffset_of_wf).steady
  | refreshOperation => exact (execRefreshOperation_keeps of_decide_eq_true).steady
  | darnRebuild => exact (execDarnRebuild_keeps vaultOffset_of_wf).steady
  | miscorrectionResolve => exact execMiscorrectionResolve_keeps.steady
  | migrationStart => exact (execMigrationStart_keeps fun h => of_decide_eq_true (Bool.and_elim_right h)).steady
  | migrationCopyEnd => exact execMigrationCopyEnd_keeps.steady
  | migrationEnd => exact execMigrationEnd_keeps.steady
  | siteTestEnd => exact (execSiteTestEnd_keeps of_decide_eq_true).steady
  | computePllLoss => exact (execComputePllLoss_keeps of_decide_eq_true).steady
  | refclkLoss cause => exact (execRefclkLoss_keeps (cause := cause)).steady
  | preemption => exact (execPreemption_keeps fun h => (resourceOk_eq_wf _).trans h).steady
  | reqItem => exact execReqItem_keeps.steady
  | admissionCycle => exact execAdmissionCycle_keeps.steady
  | streamRelease => exact execStreamRelease_keeps.steady
  | zeroingComplete => exact execZeroingComplete_keeps.steady
  | tmul => exact (execTmul_keeps id).steady
  | fchain => exact (execFchain_keeps id).steady
  | accrd => exact (execAccrd_keeps id).steady
  | rfunc => exact (execRfunc_keeps id).steady
  | rred => exact (execRred_keeps id).steady
  | ralu => exact (execRalu_keeps id).steady
  | rrescale => exact (execRrescale_keeps id).steady
  | rtload => exact (execRtload_keeps id).steady
  | rquant => exact (execRquant_keeps id).steady
  | copy => exact (execCopy_keeps id).steady
  | streamGather => exact (execStreamGather_keeps id).steady
  | scatter => exact (execScatter_keeps id).steady
  | tcopy => exact (execTcopy_keeps id).steady
  | vaultGather => exact (execVaultGather_keeps id).steady
  | scadd => exact (execScadd_keeps id).steady
  | merge => exact (execMerge_keeps id).steady
  | topk => exact (execTopk_keeps id).steady
  | vaultRred => exact (execVaultRred_keeps id).steady
  | fill => exact (execFill_keeps id).steady
  | decomp => exact (execDecomp_keeps id).steady
  | ctradd => exact (execCtradd_keeps id).steady
  | ctrsetInit => exact (execCtrsetInit_keeps id).steady
  | ctrsetDone => exact (execCtrsetDone_keeps id).steady
  | ctrsetRelease => exact (execCtrsetRelease_keeps id).steady
  | lock => exact (execLock_keeps id).steady
  | unlock => exact (execUnlock_keeps id).steady
  | send => exact (execSend_keeps id).steady
  | recv => exact (execRecv_keeps id).steady
  | credit => exact (execCredit_keeps id).steady
  | engineCommandStart => exact (execEngineCommandStart_keeps id).steady
  | engineCommandComplete => exact (execEngineCommandComplete_keeps id).steady
  | lockRetry => exact (execLockRetry_keeps id).steady
  | eventRecordArrival => exact (execEventRecordArrival_keeps id).steady
  | foldWindowEnd => exact (execFoldWindowEnd_keeps Bool.and_elim_left).steady
  | challengeExpiry => exact execChallengeExpiry_keeps.steady
  | heartbeat => exact execHeartbeat_keeps.steady
  | lodestarTakeover => exact execLodestarTakeover_keeps.steady
  | lodestarStandbyLost => exact execLodestarStandbyLost_keeps.steady
  | lodestarSilence => exact execLodestarSilence_keeps.steady
  | nzDataFrame => exact execNzDataFrame_keeps.steady
  | nzAckFrame => exact execNzAckFrame_keeps.steady
  | nzCreditFrame => exact execNzCreditFrame_keeps.steady
  | nzNakFrame => exact execNzNakFrame_keeps.steady
  | laneTrainingEnd => exact execLaneTrainingEnd_keeps.steady
  | linkBringupTimeout => exact execLinkBringupTimeout_keeps.steady
  | linkRetry => exact execLinkRetry_keeps.steady
  | linkSilence1ms => exact execLinkSilence1ms_keeps.steady
  | linkSilence10ms => exact execLinkSilence10ms_keeps.steady
  | retrainEnd => exact execRetrainEnd_keeps.steady
  | linkDown => exact execLinkDown_keeps.steady
  | nzLinkReset => exact execNzLinkReset_keeps.steady
  | txcntWrapHandshake => exact execTxcntWrapHandshake_keeps.steady
  | handshake => exact execHandshake_keeps.steady
  | ethFrameRx => exact execEthFrameRx_keeps.steady
  | arpRequest => exact execArpRequest_keeps.steady
  | icmpEcho => exact execIcmpEcho_keeps.steady
  | neighborSolicitation => exact execNeighborSolicitation_keeps.steady
  | arpReply => exact execArpReply_keeps.steady
  | neighborAdvertisement => exact execNeighborAdvertisement_keeps.steady
  | pauseFrame => exact execPauseFrame_keeps.steady
  | pauseTimeExpiry => exact execPauseTimeExpiry_keeps.steady
  | ethPortReset => exact execEthPortReset_keeps.steady
  | ethSignalLoss => exact execEthSignalLoss_keeps.steady
  | ethTrainingEnd => exact execEthTrainingEnd_keeps.steady
  | rqSegment => exact execRqSegment_keeps.steady
  | rqackTimer => exact execRqackTimer_keeps.steady
  | requestTimeout => exact execRequestTimeout_keeps.steady
  | connRecordExpiry => exact execConnRecordExpiry_keeps.steady
  | rsack => exact execRsack_keeps.steady
  | rqpCancel => exact execRqpCancel_keeps.steady
  | rsRetransmit => exact execRsRetransmit_keeps.steady
  | requestOpen => exact execRequestOpen_keeps.steady
  | forwardedRequest => exact execForwardedRequest_keeps.steady
  | forwardedResponse => exact execForwardedResponse_keeps.steady
  | layerDoorbellComplete => exact execLayerDoorbellComplete_keeps.steady
  | contribChunk => exact execContribChunk_keeps.steady
  | partialChunk => exact execPartialChunk_keeps.steady
  | collDeadline => exact execCollDeadline_keeps.steady
  | join => exact execJoin_keeps.steady
  | joinWindowEnd => exact execJoinWindowEnd_keeps.steady
  | formed => exact execFormed_keeps.steady
  | groupNoleader => exact execGroupNoleader_keeps.steady
  | shardDone => exact execShardDone_keeps.steady
  | leaderStepTimeout => exact execLeaderStepTimeout_keeps.steady
  | collCommit => exact execCollCommit_keeps.steady
  | collAbort => exact execCollAbort_keeps.steady
  | groupLost => exact execGroupLost_keeps.steady
  | updateChunk => exact execUpdateChunk_keeps.steady
  | updateAck => exact execUpdateAck_keeps.steady
  | mcDropped => exact execMcDropped_keeps.steady
  | dropped => exact execDropped_keeps.steady
  | pull => exact execPull_keeps.steady
  | pullAnswer => exact execPullAnswer_keeps.steady
  | resourceHang => exact (execResourceHang_keeps Bool.and_elim_right).steady
  | loadPart0 => exact execLoadPart0_keeps.steady
  | loadPart => exact execLoadPart_keeps.steady
  | loadAbandoned => exact execLoadAbandoned_keeps.steady
  | unloadComplete => exact execUnloadComplete_keeps.steady
  | blockL1Entry => exact (onBlock_keeps id rfl).steady
  | l2Entry => exact execL2Entry_keeps.steady
  | l3Entry => exact execL3Entry_keeps.steady
  | wakeTrigger cause => exact (execWakeTrigger_keeps (cause := cause)).steady
  | wakeEnd => exact execWakeEnd_keeps.steady
  | parkSet => exact execParkSet_keeps.steady
  | parkClear => exact execParkClear_keeps.steady
  | lpmaxWrite => exact execLpmaxWrite_keeps.steady
  | irqStatusClear => exact execIrqStatusClear_keeps.steady
  | telEnableSet => exact execTelEnableSet_keeps.steady
  | telEnableClear => exact execTelEnableClear_keeps.steady
  | telTailWrite => exact execTelTailWrite_keeps.steady
  | stagedApply => exact (execStagedApply_keeps id).steady
  | blkSnap => exact (execBlkSnap_keeps id).steady
  | blockSnapArrival => exact (execBlockSnapArrival_keeps id).steady
  | flashErase => exact execFlashErase_keeps.steady
  | flashProgram => exact execFlashProgram_keeps.steady
  | flashOpEnd => exact execFlashOpEnd_keeps.steady
  | flashOpTimeout => exact execFlashOpTimeout_keeps.steady
  | registerWrite => exact execRegisterWrite_keeps.steady
  | stagedWrite => exact execStagedWrite_keeps.steady
  | c64LoRead => exact execC64LoRead_keeps.steady
  | bar0PrivAccess => exact execBar0PrivAccess_keeps.steady
  | strobeTelemetry => exact execStrobeTelemetry_keeps.steady
  | strobeSlotTable => exact execStrobeSlotTable_keeps.steady
  | strobeIngThresh => exact execStrobeIngThresh_keeps.steady
  | strobePortAddr => exact execStrobePortAddr_keeps.steady
  | keyInstall => exact execKeyInstall_keeps.steady
  | keyRemove => exact execKeyRemove_keeps.steady
  | regWrite => exact execRegWrite_keeps.steady
  | regRead => exact execRegRead_keeps.steady
  | collForm => exact execCollForm_keeps.steady
  | collDissolve => exact execCollDissolve_keeps.steady
  | patternUnload => exact execPatternUnload_keeps.steady
  | lodestarSwitch => exact execLodestarSwitch_keeps.steady
  | attestationRequest => exact execAttestationRequest_keeps.steady
  | attestationDone => exact execAttestationDone_keeps.steady
  | coldReset => exact execColdReset_steady
  | rstInN => exact execRstInN_steady
  | rstInNRelease => exact execRstInNRelease_keeps.steady
  | warmRestart => exact execWarmRestart_steady
  | perstNRelease => exact execPerstNRelease_keeps.steady
  | d3hotExit => exact execD3hotExit_keeps.steady
  | pcieLinkUp => exact execPcieLinkUp_keeps.steady
  | powerUp => exact execPowerUp_steady
  | powerDown => exact execPowerDown_steady
  | inputFaultShutdown => exact execInputFaultShutdown_steady
  | romStageEnd => exact execRomStageEnd_keeps.steady
  | chartImageCheck => exact execChartImageCheck_keeps.steady
  | flashReadTimeout => exact execFlashReadTimeout_keeps.steady
  | selfTestEnd => exact execSelfTestEnd_keeps.steady
  | stackTestEnd => exact (execStackTestEnd_keeps Bool.and_elim_left Bool.and_elim_right).steady
  | linkStageEnd => exact execLinkStageEnd_keeps.steady
  | startTimeout => exact execStartTimeout_keeps.steady
  | vinSample => exact execVinSample_steady
  | fastCurrentLimit => exact execFastCurrentLimit_steady
  | dutyPowerUpdate => exact execDutyPowerUpdate_steady
  | dutyThermalUpdate => exact execDutyThermalUpdate_steady of_decide_eq_true
  | sensorSample => exact execSensorSample_steady fun h => (sensorExists_eq_wf _).trans h
  | clearFaults => exact execClearFaults_steady
  | pmbusInvalidCommand => exact execPmbusInvalidCommand_steady
  | alertResponse => exact execAlertResponse_keeps.steady
  | bypass => exact execBypass_keeps.steady
  | idcode => exact execIdcode_keeps.steady
  | samplePreload => exact execSamplePreload_keeps.steady
  | extest => exact execExtest_keeps.steady
  | itemArrival => exact (execItemArrival_keeps Bool.and_elim_left).steady
  | connect => exact (execConnect_keeps Bool.and_elim_left).steady
  | connectReply => exact (execConnectReply_keeps Bool.and_elim_left).steady
  | connectRetry => exact (execConnectRetry_keeps id).steady
  | disconnect => exact (execDisconnect_keeps Bool.and_elim_left).steady
  | creditReturn => exact (execCreditReturn_keeps Bool.and_elim_left).steady
  | stale => exact (execStale_keeps Bool.and_elim_left).steady
  | set => exact (execSet_keeps id).steady
  | addi => exact (execAddi_keeps id).steady
  | add => exact (execAdd_keeps id).steady
  | sub => exact (execSub_keeps id).steady
  | shl => exact (execShl_keeps id).steady
  | shr => exact (execShr_keeps id).steady
  | ld => exact (execLd_keeps id).steady
  | st => exact (execSt_keeps id).steady
  | getid => exact (execGetid_keeps id).steady
  | loop => exact (execLoop_keeps id).steady
  | lexit => exact (execLexit_keeps id).steady
  | jmp => exact (execJmp_keeps id).steady
  | brz => exact (execBrz_keeps id).steady
  | brnz => exact (execBrnz_keeps id).steady
  | brlt => exact (execBrlt_keeps id).steady
  | halt => exact (execHalt_keeps id).steady
  | trap => exact (execTrap_keeps id).steady
  | nop => exact (execNop_keeps id).steady
  | semwait => exact (execSemwait_keeps id).steady
  | semsig => exact (execSemsig_keeps id).steady
  | semset => exact (execSemset_keeps id).steady
  | fence => exact (execFence_keeps id).steady
  | barrier => exact (execBarrier_keeps id).steady
  | smbGlbIdent | smbGlbStart | smbGlbHealth | smbGlbPwrState | smbGlbPin | smbGlbTherm | smbGlbEvnext =>
    exact smbRead_keeps.steady
  | capability | statusByte | statusWord | statusInput | statusTemperature | statusCml | statusMfrSpecific | readVin |
    readIin | readPin | readTemperature1 | readTemperature2 | readTemperature3 | pmbusRevision | mfrId | mfrModel |
    mfrReadDuty | mfrSensorFail =>
    exact (pmbus_keeps rfl).steady
  | perstN | flr | d3hotEntry | smbusClockTimeout | testLogicReset =>
    exact Steady.of_kept rfl
/-- Settles O58: every command leaves the duty levels in range (`exec_steady`). -/
theorem dutyLevelsStayInRange : Obligations.DutyLevelsStayInRange := by
  intro s t inv hs hstep
  unfold step at hstep
  split at hstep
  · obtain rfl := Host.Outcome.next.inj hstep
    exact hs
  next c rest _ =>
    have h := exec_steady c { s with pending := rest }
    rw [hstep] at h
    exact h.2 hs

/-- Settles O60: every command is answered (`exec_steady`), and the guards of each command's own number give its faults. -/
theorem wellFormedCommandsAreAnswered : Obligations.WellFormedCommandsAreAnswered := by
  refine ⟨fun c s hwf => ?_, fun c s r h => ?_, fun s n => ⟨fun hn => ?_, fun hn => ?_, fun v f r hn => ?_, fun hn => ?_⟩⟩
  · have h := exec_steady c s
    cases hx : exec c s with
    | next t => rw [hx] at h; exact ⟨t, rfl, h.1⟩
    | fault r => rw [hx, hwf] at h; exact Bool.noConfusion (h : true = false)
    | refused r => rw [hx] at h; exact h.elim
  · have hx := exec_steady c s
    rw [h] at hx
    exact hx
  · have hc := Nat.not_lt.2 hn
    exact ⟨fun _ _ => if_neg hc, fun _ => if_neg hc, fun _ _ => if_neg hc, fun _ _ _ => if_neg hc, fun _ _ _ => if_neg hc, if_neg hc⟩
  · exact ⟨fun o f r => if_pos (.inl hn), fun b => if_pos hn, fun p => if_pos hn⟩
  · exact if_pos (.inr hn)
  · exact ⟨if_pos hn, fun ms => if_pos hn⟩

end Sys2Proof.Machine

/-! ### The scalar, flow and synchronisation commands (R56 to R75) -/

namespace Sys2Proof.Machine

/-! #### What the sequencer does with a word it takes -/

theorem Core.running_of_atBoundary {k : Core} (h : k.atBoundary = true) : k.st = .running := by
  simp only [Core.atBoundary, Bool.and_eq_true, decide_eq_true_eq] at h
  exact h.1.1

theorem Core.takes_iff {k : Core} {regs : List Reg} :
    k.takes regs = true ↔ k.atBoundary = true ∧ ∀ r ∈ regs, k.pending r = false := by
  simp [Core.takes]

theorem Core.running_of_takes {k : Core} {regs : List Reg} (h : k.takes regs = true) : k.st = .running :=
  running_of_atBoundary (Core.takes_iff.1 h).1

theorem Core.not_stopped_of_takes {k : Core} {regs : List Reg} (h : k.takes regs = true) : k.st ≠ .stopped := by
  rw [Core.running_of_takes h]
  decide

/-- A word that is taken and leads to a plain position leaves the core there. -/
theorem seqTake_goes {s : State} {c : Nat} {regs : List Reg} {f : Core → State} {k k' : Core} {p : Nat} (hc : c < Config.nCores)
    (ht : (s.core c).takes regs = true) (hl : (s.core c).lands p = true)
    (hf : f { s.core c with wait := .none } = seqGoto s c k p := by rfl)
    (hk : k.loops = (s.core c).loops ∧ k.progLen = (s.core c).progLen := by exact ⟨rfl, rfl⟩)
    (hg : k.goes p = k'.goes p := by rfl) : seqTake c regs s f = .next (s.setCore c (k'.goes p)) := by
  rw [seqTake_ok _ _ _ _ hc ht, hf, seqGoto_lands _ _ _ _ (by rw [hk.1, hk.2]; exact hl), hg]

/-- A fault of a core whose registers and semaphores are those of `s` is one from `s`. -/
theorem coreFault_setCore {s : State} {c : Nat} {k : Core} (eng : Nat) (kind : Kind) (code : Code) (pos : Nat) (word : CmdWord)
    (detail : BitVec 256) (hst : k.st ≠ .stopped) (hr : k.regs = (s.core c).regs) (hs : k.sems = (s.core c).sems) :
    Stopped s (coreFault (s.setCore c k) c eng kind code pos word detail) c eng kind code pos
      ∧ OtherCores c s (coreFault (s.setCore c k) c eng kind code pos word detail)
      ∧ (coreFault (s.setCore c k) c eng kind code pos word detail).mem = s.mem
      ∧ (coreFault (s.setCore c k) c eng kind code pos word detail).core c = { k.quiet with
          st := .stopped, locks := [], xlate := [], nmuXlate := [],
          fault := some { core := c, engine := eng, kind := kind, code := code, pos := pos, word := word, regs := k.regs,
                          sems := k.sems, extra := detail } } := by
  have hself : (s.setCore c k).core c = k := core_setCore_self ..
  have hst' : ((s.setCore c k).core c).st ≠ .stopped := by rwa [hself]
  obtain ⟨hstop, hothers, hmem⟩ := coreFault_stops (s.setCore c k) c eng kind code pos word detail hst'
  have hcore := coreFault_core (s.setCore c k) c eng kind code pos word detail hst'
  rw [Stopped, hself, hr, hs] at hstop
  rw [hself] at hcore
  exact ⟨hstop, fun d hd => (hothers d hd).trans (core_setCore_ne s hd _), hmem, hcore⟩

theorem cmdFault_setCore {s : State} {c : Nat} {k : Core} (eng : Nat) (kind : Kind) (code : Code) (pos : Nat) (word : CmdWord)
    (hst : k.st ≠ .stopped) (hr : k.regs = (s.core c).regs) (hs : k.sems = (s.core c).sems) :
    Stopped s (cmdFault (s.setCore c k) c eng kind code pos word) c eng kind code pos
      ∧ OtherCores c s (cmdFault (s.setCore c k) c eng kind code pos word)
      ∧ (cmdFault (s.setCore c k) c eng kind code pos word).mem = s.mem
      ∧ (cmdFault (s.setCore c k) c eng kind code pos word).core c = { k.quiet with
          st := .stopped, locks := [], xlate := [], nmuXlate := [],
          fault := some { core := c, engine := eng, kind := kind, code := code, pos := pos, word := word, regs := k.regs,
                          sems := k.sems, extra := coreDetail word pos 0xFF 0xFF 0 0 } } :=
  coreFault_setCore eng kind code pos word _ hst hr hs

/-! #### The checks of LD and ST -/

theorem ldCheck_none {addr : Nat} (h8 : addr % 8 = 0) (htop : addr < 0x2F0000) : ldCheck addr = none := by
  have htop' : ¬ Config.scratchTop ≤ addr := by unfold Config.scratchTop; omega
  simp [ldCheck, h8, htop']

theorem ldCheck_misalign {addr : Nat} (h8 : addr % 8 ≠ 0) : ldCheck addr = some .misalign := by simp [ldCheck, h8]

theorem ldCheck_range {addr : Nat} (h8 : addr % 8 = 0) (htop : 3 * 1048576 - 65536 ≤ addr) :
    ldCheck addr = some .scratchRange := by
  have htop' : Config.scratchTop ≤ addr := by unfold Config.scratchTop; omega
  simp [ldCheck, h8, htop']

/-- An LD or ST whose address fails a check stops its core with the check's code, and scratch keeps its bytes. -/
theorem ldSt_rejected {s : State} {c : Nat} {d a : Reg} {imm : BitVec 32} {e : Code} {i : Instr} (hc : c < Config.nCores)
    (ht : (s.core c).takes [a, d] = true) (he : ldCheck (ldAddr (s.core c) a imm) = some e)
    (hi : i = Instr.ld c d a imm ∨ i = Instr.st c d a imm) :
    ∃ t, exec i s = .next t ∧ Stopped s t c 0 .rejected e (s.core c).pos ∧ (t.core c).scratch = (s.core c).scratch := by
  have he' : ldCheck (ldAddr { s.core c with wait := .none } a imm) = some e := he
  have hword : ∃ w, exec i s = .next (cmdFault (s.setCore c { s.core c with wait := .none }) c 0 .rejected e (s.core c).pos w) := by
    rcases hi with rfl | rfl
    · refine ⟨scalarWord 6 d a 0 (at_ imm.toNat 64), ?_⟩
      change execLd c d a imm s = _
      rw [execLd, seqTake_ok _ _ _ _ hc ht]
      simp only [he']
    · refine ⟨scalarWord 7 d a 0 (at_ imm.toNat 64), ?_⟩
      change execSt c d a imm s = _
      rw [execSt, seqTake_ok _ _ _ _ hc ht]
      simp only [he']
  obtain ⟨w, hw⟩ := hword
  have hst : (s.core c).st ≠ .stopped := Core.not_stopped_of_takes ht
  obtain ⟨hstop, -, -, hcore⟩ := cmdFault_setCore (k := { s.core c with wait := .none }) 0 .rejected e (s.core c).pos w hst
    rfl rfl
  exact ⟨_, hw, hstop, by rw [hcore]; rfl⟩

/-! #### The branches -/

theorem slt_iff_toInt_lt {a b : W64} : a.slt b = true ↔ a.toInt < b.toInt := by
  rw [BitVec.slt_eq_decide, decide_eq_true_eq]

section
variable {s : State} {c : Nat} {a b : Reg} {target : Fin 2048} {p : Nat} (hc : c < Config.nCores)
include hc

theorem brz_goes (ht : (s.core c).takes [a] = true) (hl : (s.core c).lands p = true)
    (hp : (if (s.core c).reg a = 0 then target.val else (s.core c).pos + 1) = p) :
    exec (.brz c a target) s = .next (s.setCore c ((s.core c).goes p)) := by
  change execBrz c a target s = _
  exact seqTake_goes hc ht hl (congrArg (seqGoto s c _) hp)

theorem brnz_goes (ht : (s.core c).takes [a] = true) (hl : (s.core c).lands p = true)
    (hp : (if (s.core c).reg a = 0 then (s.core c).pos + 1 else target.val) = p) :
    exec (.brnz c a target) s = .next (s.setCore c ((s.core c).goes p)) := by
  change execBrnz c a target s = _
  exact seqTake_goes hc ht hl (congrArg (seqGoto s c _) hp)

theorem brlt_goes (ht : (s.core c).takes [a, b] = true) (hl : (s.core c).lands p = true)
    (hp : (if ((s.core c).reg a).slt ((s.core c).reg b) then target.val else (s.core c).pos + 1) = p) :
    exec (.brlt c a b target) s = .next (s.setCore c ((s.core c).goes p)) := by
  change execBrlt c a b target s = _
  exact seqTake_goes hc ht hl (congrArg (seqGoto s c _) hp)

end

/-! #### The end of a loop body (R72) -/

/-- What `gotoIn` leads to does not depend on the loops that the core had. -/
theorem gotoIn_withLoops (k : Core) (l es : List LoopEnt) (p : Nat) : ({ k with loops := l } : Core).gotoIn es p = k.gotoIn es p := by
  induction es with
  | nil => rfl
  | cons e es ih => simp only [Core.gotoIn, ih, Core.setReg, Core.reg]

theorem seqGoto_loopTop (s : State) (c : Nat) (k : Core) {e : LoopEnt} {es : List LoopEnt} (hl : k.loops = e :: es)
    (hi : e.iter + 1 < e.count) (hs : e.start < k.progLen) :
    seqGoto s c k (e.last + 1) = s.setCore c { (match e.ireg with | none => k | some r => k.setReg r (k.reg r + 1)) with
      loops := { e with iter := e.iter + 1 } :: es, pos := e.start, wait := .none } := by
  have hin : ¬ k.progLen ≤ e.start := by omega
  cases hr : e.ireg with
  | none => simp [seqGoto, hl, Core.gotoIn, hi, hr, hin]
  | some r => simp [seqGoto, hl, Core.gotoIn, hi, hr, hin, Core.setReg, Core.reg]

theorem seqGoto_loopLeft (s : State) (c : Nat) (k : Core) {e : LoopEnt} {es : List LoopEnt} (hl : k.loops = e :: es)
    (hi : e.count ≤ e.iter + 1) : seqGoto s c k (e.last + 1) = seqGoto s c { k with loops := es } (e.last + 1) := by
  have hlast : ¬ e.iter + 1 < e.count := by omega
  simp [seqGoto, hl, Core.gotoIn, hlast, gotoIn_withLoops]

/-- A NOP at END of a body and a JMP to the position just past it both continue there. -/
theorem exec_loopEnd {s : State} {c : Nat} {i : Instr} {e : LoopEnt} (hc : c < Config.nCores) (ht : (s.core c).takes [] = true)
    (hi : i = Instr.nop c ∧ (s.core c).pos = e.last ∨ ∃ tg : Fin 2048, i = Instr.jmp c tg ∧ tg.val = e.last + 1) :
    exec i s = .next (seqGoto s c { s.core c with wait := .none } (e.last + 1)) := by
  rcases hi with ⟨rfl, hpos⟩ | ⟨tg, rfl, htg⟩
  · change execNop c s = _
    rw [execNop, seqTake_ok _ _ _ _ hc ht, hpos]
  · change execJmp c tg s = _
    rw [execJmp, seqTake_ok _ _ _ _ hc ht, htg]

/-! #### The fields of a fault record's detail (R485) -/

section
variable (word : CmdWord) (pos ring slot x52 x56 : Nat)

theorem coreDetail_toNat : (coreDetail word pos ring slot x52 x56).toNat
    = word.toNat + pos % 65536 * 2 ^ 128 + ring % 256 * 2 ^ 144 + slot % 256 * 2 ^ 152
      + x52 % 65536 * 2 ^ 160 + x56 % 2 ^ 64 * 2 ^ 192 := by
  have := word.isLt
  rw [coreDetail, BitVec.toNat_ofNat]
  omega

theorem coreDetail_ring : bitsOf (coreDetail word pos ring slot x52 x56).toNat 144 8 = ring % 256 := by
  have := word.isLt
  rw [bitsOf, coreDetail_toNat]
  omega

theorem coreDetail_slot : bitsOf (coreDetail word pos ring slot x52 x56).toNat 152 8 = slot % 256 := by
  have := word.isLt
  rw [bitsOf, coreDetail_toNat]
  omega

theorem coreDetail_code : bitsOf (coreDetail word pos ring slot x52 x56).toNat 192 16 = x56 % 65536 := by
  have := word.isLt
  rw [bitsOf, coreDetail_toNat]
  omega
end

/-! #### The obligations -/

/-- Settles O1: both are the equations of `step`. -/
theorem stepRunsTheFrontCommand : Obligations.StepRunsTheFrontCommand := by
  refine ⟨fun c rest s => rfl, fun s hs => ?_⟩
  simp only [step, hs]

/-- Settles O2: each scalar word is taken and goes on at the next position. -/
theorem scalarCommandsWriteTheirRegister : Obligations.ScalarCommandsWriteTheirRegister := by
  intro s c d a b hc hl k p
  refine ⟨fun ht => ⟨fun imm => (seqTake_goes hc ht hl : execSet c d imm s = _), fun r sel hr hsel => ?_, Config.cycles s.drawn, ?_⟩,
    fun ht => ⟨fun imm => (seqTake_goes hc ht hl : execAddi c d a imm s = _), fun sh => (seqTake_goes hc ht hl : execShl c d a sh s = _),
      fun sh => (seqTake_goes hc ht hl : execShr c d a sh s = _), fun imm h8 htop => ?_⟩,
    fun ht => ⟨(seqTake_goes hc ht hl : execAdd c d a b s = _), (seqTake_goes hc ht hl : execSub c d a b s = _)⟩⟩
  · change execGetid c d sel s = _
    have hr' : s.coreRegion { s.core c with wait := .none } = some r := hr
    have hsel' : sel.val ≤ 4 := by omega
    rw [execGetid, seqTake_ok _ _ _ _ hc ht]
    simp only [hsel', if_true, getidValue, hr']
    exact congrArg _ (seqGoto_lands _ _ _ _ hl)
  · change execGetid c d 5 s = _
    rw [execGetid, seqTake_ok _ _ _ _ hc ht]
    exact congrArg _ (seqGoto_lands _ _ _ _ hl)
  · have hn : ldCheck (ldAddr { s.core c with wait := .none } a imm) = none := ldCheck_none h8 htop
    constructor
    · change execLd c d a imm s = _
      rw [execLd, seqTake_ok _ _ _ _ hc ht]
      simp only [hn]
      exact congrArg _ (seqGoto_lands _ _ _ _ hl)
    · change execSt c d a imm s = _
      rw [execSt, seqTake_ok _ _ _ _ hc ht]
      simp only [hn]
      exact congrArg _ (seqGoto_lands _ _ _ _ hl)

/-- Settles O4: each flow word is taken and goes on where its row says. -/
theorem flowCommandsMoveThePosition : Obligations.FlowCommandsMoveThePosition := by
  intro s c a b target hc k next there
  refine ⟨fun count creg csrc ireg ien last ht hn hlen hlast => ?_, fun ht => ⟨fun e es hes hl => ?_,
      fun hl => (seqTake_goes hc ht hl : execJmp c target s = _), fun hl => (seqTake_goes hc ht hl : execNop c s = _)⟩,
    fun ht => ⟨fun hl h0 => brz_goes hc ht hl (if_pos h0), fun hl h0 => brz_goes hc ht hl (if_neg h0),
      fun hl h0 => brnz_goes hc ht hl (if_neg h0), fun hl h0 => brnz_goes hc ht hl (if_pos h0)⟩,
    fun ht => ⟨fun hl hlt => brlt_goes hc ht hl (if_pos (slt_iff_toInt_lt.2 hlt)),
      fun hl hle => brlt_goes hc ht hl (if_neg fun h => Int.not_lt.2 hle (slt_iff_toInt_lt.1 h))⟩⟩
  · change execLoop c count creg csrc ireg ien last s = _
    have hn' : loopCount { s.core c with wait := .none } count creg csrc ≠ 0 := hn
    rw [execLoop, seqTake_ok _ _ _ _ hc ht]
    simp only [hn', if_false]
    have hl : landsIn ({ start := k.pos + 1, last := last.val, count := loopCount k count creg csrc, iter := 0,
                         ireg := if ien = true then some ireg else none } :: k.loops) k.progLen (k.pos + 1) = true := by
      simp [landsIn, hlen, Ne.symm hlast]
    cases ien <;> exact congrArg _ (seqGoto_lands _ _ _ _ hl)
  · change execLexit c s = _
    have hes' : (s.core c).loops = e :: es := hes
    rw [execLexit, seqTake_ok _ _ _ _ hc ht]
    simp only [hes']
    exact congrArg _ (seqGoto_lands _ _ _ _ hl)

/-- Settles O3: the checks of R70 in their order, each a rejection. -/
theorem badLoadAndStoreAddressesAreRejected : Obligations.BadLoadAndStoreAddressesAreRejected := by
  intro s c d a imm hc ht k addr i hi
  exact ⟨fun h8 => ldSt_rejected hc ht (ldCheck_misalign h8) hi, fun h8 htop => ldSt_rejected hc ht (ldCheck_range h8 htop) hi⟩

/-- Settles O5: the end of the innermost body returns to its top while iterations remain, and else leaves the loop. -/
theorem loopEndReturnsOrLeaves : Obligations.LoopEndReturnsOrLeaves := by
  intro s c hc ht k
  refine ⟨fun i e es hes hi => ⟨fun hiter hstart => ?_, fun hiter hl => ?_⟩, fun count creg last hcreg hzero => ?_⟩
  · rw [exec_loopEnd hc ht hi, seqGoto_loopTop s c { s.core c with wait := .none } hes hiter hstart]
    cases e.ireg <;> rfl
  · rw [exec_loopEnd hc ht hi, seqGoto_loopLeft s c { s.core c with wait := .none } hes hiter]
    exact congrArg _ (seqGoto_lands _ _ _ _ hl)
  · have ht' : (s.core c).takes [creg] = true := by
      simp only [Core.takes_iff, List.mem_singleton, forall_eq]
      exact ⟨(Core.takes_iff.1 ht).1, hcreg⟩
    have hst : (s.core c).st ≠ .stopped := Core.not_stopped_of_takes ht
    have hzero' : loopCount { s.core c with wait := .none } count creg true = 0 := hzero
    refine ⟨_, ?_, (cmdFault_setCore (k := { s.core c with wait := .none }) 0 .rejected .zeroExtent k.pos
      (loopWord count creg true 0 false last) hst rfl rfl).1⟩
    change execLoop c count creg true 0 false last s = _
    rw [execLoop, seqTake_ok _ _ _ _ hc (by exact ht')]
    simp only [hzero', if_true]
    rfl

/-- Settles O6: both stop the core, NOP past the last command at the program length, TRAP at its own position. -/
theorem runningPastTheProgramTraps : Obligations.RunningPastTheProgramTraps := by
  intro s c hc ht k
  have hst : (s.core c).st ≠ .stopped := Core.not_stopped_of_takes ht
  refine ⟨fun hloops hpos => ?_, fun code => ?_⟩
  · obtain ⟨hstop, -, -, hcore⟩ := cmdFault_setCore (s := s) (c := c) (k := { s.core c with loops := [], pos := k.pos + 1, wait := .none })
      0 .faulted .patternTrap k.progLen 0 hst rfl rfl
    refine ⟨_, ?_, hstop, _, by rw [hcore], rfl⟩
    change execNop c s = _
    rw [execNop, seqTake_ok _ _ _ _ hc ht]
    have hloops' : (s.core c).loops = [] := hloops
    have hlen : (s.core c).progLen ≤ (s.core c).pos + 1 := ge_of_eq hpos
    simp only [seqGoto, hloops', Core.gotoIn, hlen, if_true]
    exact congrArg (fun p => Host.Outcome.next (cmdFault _ c 0 .faulted .patternTrap p 0)) hpos
  · obtain ⟨hstop, hothers, -, hcore⟩ := coreFault_setCore (s := s) (c := c) (k := { s.core c with wait := .none }) 0 .faulted
      .patternTrap k.pos (seqWord 1 7 (at_ code.toNat 32)) (coreDetail (seqWord 1 7 (at_ code.toNat 32)) k.pos 0xFF 0xFF 0 code.toNat)
      hst rfl rfl
    refine ⟨_, ?_, hstop, hothers, _, by rw [hcore], rfl, ?_⟩
    · change execTrap c code s = _
      rw [execTrap, seqTake_ok _ _ _ _ hc ht]
    · have := code.isLt
      exact (coreDetail_code ..).trans (Nat.mod_eq_of_lt this)

end Sys2Proof.Machine

/-! ### Waits, dispatch, timeouts and issue (R58 to R64, R81 to R84, R168) -/

namespace Sys2Proof.Machine

/-! #### Semaphore waits of the engines (R61) -/

theorem grantHead_empty {k : Core} {e : Fin 5} (h : (k.queue e).issue = []) : k.grantHead e = k := by
  simp [Core.grantHead, h]

/-- Nothing is granted where the semaphore holds no count. -/
theorem grantHead_short {k : Core} {e : Fin 5} {h : QEntry} {t : List QEntry} {i : Fin 64} (hq : (k.queue e).issue = h :: t)
    (hw : h.wait = some i) (hs : k.sem i = 0) : k.grantHead e = k := by
  simp [Core.grantHead, hq, hw, hs]

/-- The core after the head of engine `e + 1`'s queue has been granted a count of semaphore `i`. -/
def Core.granted (k : Core) (e : Fin 5) (i : Fin 64) (h : QEntry) (t : List QEntry) : Core :=
  (k.setSem i (k.sem i - 1)).setQueue e { k.queue e with issue := { h with granted := true } :: t }

theorem grantHead_grants {k : Core} {e : Fin 5} {h : QEntry} {t : List QEntry} {i : Fin 64} (hq : (k.queue e).issue = h :: t)
    (hw : h.wait = some i) (hg : h.granted = false) (hr : k.room e = true) (hs : 1 ≤ k.sem i) :
    k.grantHead e = k.granted e i h t := by
  simp only [Core.grantHead, hq, hw, hg, hr, hs, and_self, if_true, Core.granted]

/-- Heads of queues that `l` does not name stay ungranted. -/
theorem grantHeads_same {k : Core} {l : List (Fin 5)} (h : ∀ e ∈ l, k.grantHead e = k) : l.foldl Core.grantHead k = k := by
  induction l with
  | nil => rfl
  | cons e l ih =>
    rw [List.foldl_cons, h e List.mem_cons_self]
    exact ih fun f hf => h f (List.mem_cons_of_mem _ hf)

theorem grantEngines_empty {k : Core} (h : ∀ e, (k.queue e).issue = []) : k.grantEngines = k :=
  grantHeads_same (l := [0, 1, 2, 3, 4]) fun e _ => grantHead_empty (h e)

/-- The round of grants tries the engines below `e`, then `e`, then those above it. -/
theorem engines_split (e : Fin 5) : ∃ l₁ l₂ : List (Fin 5), [0, 1, 2, 3, 4] = l₁ ++ e :: l₂ ∧ (∀ y ∈ l₁, y < e) ∧ ∀ y ∈ l₂, e < y :=
  ⟨(List.finRange 5).filter (· < e), (List.finRange 5).filter (e < ·), by revert e; decide, by simp, by simp⟩

/-- Of two heads that wait for the last count of a semaphore the one of the lower-numbered engine gets it. -/
theorem grantEngines_lower {k : Core} {e f : Fin 5} {h g : QEntry} {hs gs : List QEntry} {i : Fin 64} (hef : e < f)
    (hrest : ∀ y, y ≠ e → y ≠ f → (k.queue y).issue = []) (hh : (k.queue e).issue = h :: hs) (hg : (k.queue f).issue = g :: gs)
    (hw : h.wait = some i) (gw : g.wait = some i) (hgr : h.granted = false) (hroom : k.room e = true) (hone : k.sem i = 1) :
    k.grantEngines = k.granted e i h hs := by
  obtain ⟨l₁, l₂, hl, hlow, hhigh⟩ := engines_split e
  have hbelow : l₁.foldl Core.grantHead k = k := grantHeads_same fun y hy =>
    grantHead_empty (hrest y (hlow y hy).ne ((hlow y hy).trans hef).ne)
  have habove : l₂.foldl Core.grantHead (k.granted e i h hs) = k.granted e i h hs := by
    refine grantHeads_same fun y hy => ?_
    have hye : y ≠ e := (hhigh y hy).ne'
    have hqy : (k.granted e i h hs).queue y = k.queue y := queue_setQueue_ne _ hye _
    have hsem : (k.granted e i h hs).sem i = 0 := (sem_setSem_self k i _).trans (by simp [hone])
    by_cases hyf : y = f
    · rw [hyf] at hqy ⊢
      exact grantHead_short (by rw [hqy, hg]) gw hsem
    · exact grantHead_empty (by rw [hqy, hrest y hye hyf])
  change [0, 1, 2, 3, 4].foldl Core.grantHead k = _
  rw [hl, List.foldl_append, hbelow, List.foldl_cons, grantHead_grants hh hw hgr hroom (by omega), habove]

/-! #### A waiting semaphore command of the sequencer (R61, R75) -/

theorem semRound_takes {s : State} {c : Nat} {k : Core} {i : Fin 64} {n : BitVec 16} (hq : ∀ e, (k.queue e).issue = [])
    (hw : k.wait = .sem i n) (hn : n.toNat ≤ k.sem i) (hl : k.lands (k.pos + 1) = true) :
    semRound s c k = s.setCore c ((k.setSem i (k.sem i - n.toNat)).goes (k.pos + 1)) := by
  simp only [semRound, grantEngines_empty hq, seqGrant, hw, hn, if_true]
  exact seqGoto_lands _ _ _ _ hl

theorem semRound_waits {s : State} {c : Nat} {k : Core} {i : Fin 64} {n : BitVec 16} (hq : ∀ e, (k.queue e).issue = [])
    (hw : k.wait = .sem i n) (hn : k.sem i < n.toNat) : semRound s c k = s.setCore c k := by
  simp only [semRound, grantEngines_empty hq, seqGrant, hw, Nat.not_le.2 hn, if_false]

/-- Settles O10: one lemma for each branch of a semaphore command, and the round of grants. -/
theorem semaphoresCountAndSaturateNowhere : Obligations.SemaphoresCountAndSaturateNowhere := by
  intro s c i n hc hl k p
  refine ⟨fun ht => ⟨(seqTake_goes hc ht hl : execSemset c i n s = _), fun hn => ?_, fun hn => ?_, fun hq => ⟨fun hn => ?_, fun hn => ?_⟩⟩,
    fun hrun hw hq => ⟨fun hn => ?_, fun hn => ?_⟩, fun x e f h g hs gs hef hrest hh hg hw gw hgr _ hr _ hone => ?_⟩
  · have hn' : (s.core c).sem i + n.toNat ≤ 65535 := Nat.le_of_lt_succ hn
    change execSemsig c i n s = _
    rw [execSemsig, seqTake_ok _ _ _ _ hc ht]
    exact congrArg _ ((if_pos hn').trans (seqGoto_lands _ _ _ _ hl))
  · have hn' : ¬ (s.core c).sem i + n.toNat ≤ 65535 := Nat.not_le.2 hn
    refine ⟨_, ?_, (cmdFault_setCore (k := { s.core c with wait := .none }) 0 .faulted .semOverflow k.pos (semWord 1 i n)
      (Core.not_stopped_of_takes (k := k) ht) rfl rfl).1⟩
    change execSemsig c i n s = _
    rw [execSemsig, seqTake_ok _ _ _ _ hc ht]
    exact congrArg _ (if_neg hn')
  · change execSemwait c i n s = _
    rw [execSemwait, seqTake_ok _ _ _ _ hc ht]
    exact congrArg _ (semRound_takes (k := { k with wait := .sem i n }) hq rfl hn hl)
  · change execSemwait c i n s = _
    rw [execSemwait, seqTake_ok _ _ _ _ hc ht]
    exact congrArg _ (semRound_waits (k := { k with wait := .sem i n }) hq rfl hn)
  · change execSemWaitGrant c s = _
    rw [execSemWaitGrant, onCore_ok _ _ _ hc]
    exact congrArg _ ((if_pos hrun).trans (semRound_takes hq hw hn hl))
  · change execSemWaitGrant c s = _
    rw [execSemWaitGrant, onCore_ok _ _ _ hc]
    exact congrArg _ ((if_pos hrun).trans (semRound_waits hq hw hn))
  · rw [grantEngines_lower hef hrest hh hg hw gw hgr hr hone]
    refine ⟨by rw [Core.granted, queue_setQueue_self], ?_, ?_⟩
    · rw [Core.granted, queue_setQueue_ne _ hef.ne']
      exact hg
    · exact (sem_setSem_self x i _).trans (by simp [hone])

/-! #### Fences and barriers (R75, R82) -/

/-- Settles O8: one branch of FENCE, BARRIER, FENCE_END and BARRIER_RELEASE each. -/
theorem fencesAndBarriersWait : Obligations.FencesAndBarriersWait := by
  intro s c hc k arrive
  refine ⟨fun ht mask bid => ⟨fun hd hl => ?_, fun hd => ?_, ?_, fun hd => ?_, fun hd => ?_⟩,
    fun mask hw => ⟨fun hd hl => ?_, fun hd => ?_⟩, fun bid hw hd => ?_, fun bid ph hrun hl => ⟨fun hw => ?_, fun hw => ?_⟩⟩
  · change execFence c mask s = _
    rw [execFence, seqTake_ok _ _ _ _ hc ht]
    exact congrArg _ ((if_pos hd).trans (seqGoto_lands _ _ _ _ hl))
  · change execFence c mask s = _
    rw [execFence, seqTake_ok _ _ _ _ hc ht]
    exact congrArg _ (if_neg ((Bool.not_eq_true _).mpr hd))
  · change execBarrier c bid false s = _
    rw [execBarrier, seqTake_ok _ _ _ _ hc ht]
    rfl
  · change execBarrier c bid true s = _
    have hd' : ¬ (true && !k.drained 31) = true := by rw [hd]; decide
    rw [execBarrier, seqTake_ok _ _ _ _ hc ht]
    exact congrArg _ (if_neg hd')
  · change execBarrier c bid true s = _
    have hd' : (true && !k.drained 31) = true := by rw [hd]; rfl
    rw [execBarrier, seqTake_ok _ _ _ _ hc ht]
    exact congrArg _ (if_pos hd')
  · change execFenceEnd c s = _
    rw [execFenceEnd, onCore_ok _ _ _ hc]
    have hw' : (s.core c).wait = .fence mask := hw
    simp only [hw']
    exact congrArg _ ((if_pos hd).trans (seqGoto_lands _ _ _ _ hl))
  · change execFenceEnd c s = _
    rw [execFenceEnd, onCore_ok _ _ _ hc]
    have hw' : (s.core c).wait = .fence mask := hw
    simp only [hw']
    exact congrArg _ (if_neg ((Bool.not_eq_true _).mpr hd))
  · change execFenceEnd c s = _
    rw [execFenceEnd, onCore_ok _ _ _ hc]
    have hw' : (s.core c).wait = .barrierFence bid := hw
    simp only [hw']
    exact congrArg _ (if_pos hd)
  · change execBarrierRelease c bid ph s = _
    rw [execBarrierRelease, onCore_ok _ _ _ hc]
    exact congrArg _ ((if_pos ⟨hrun, hw⟩).trans (seqGoto_lands _ _ _ _ hl))
  · change execBarrierRelease c bid ph s = _
    rw [execBarrierRelease, onCore_ok _ _ _ hc]
    exact congrArg _ (if_neg fun h => hw h.2)

/-! #### The barrier's root (R82, R83) -/

section
variable {s : State} {c pi : Nat} {p : Pattern} {r : Region} {bid : Fin 4} {phase : Bool} (hc : c < Config.nCores)
  (hpat : (s.core c).pat = some pi) (hp : s.pat pi = some p) (hr : p.regions[(s.core c).region]? = some r)
  (hnew : c ∉ Sparse.get [] r.arrived (arrivalKey bid phase))
include hc hpat hp hr hnew

/-- The arrival that completes its region empties the count and sends the release to every core of the region. -/
theorem barrierArrival_releases (hrunning : ∀ x ∈ r.cores, (s.core x).st ≠ .stopped)
    (hall : ∀ x ∈ r.cores, x ∈ Sparse.get [] r.arrived (arrivalKey bid phase) ∨ x = c) :
    exec (.barrierArrival c bid phase) s
      = .next ((s.setPat pi (p.setRegion (s.core c).region { r with arrived := Sparse.set [] r.arrived (arrivalKey bid phase) [] })).emits
          (r.cores.map (fun x => .barrierRelease x bid phase))) := by
  have hcp : s.corePat (s.core c) = some p := by rw [State.corePat, hpat]; exact hp
  have hcr : s.coreRegion (s.core c) = some r := by rw [State.coreRegion, hcp]; exact hr
  have hdone : r.cores.all (fun x => decide (x ∈ Sparse.get [] r.arrived (arrivalKey bid phase) ++ [c])
      && !decide ((s.core x).st = .stopped)) = true := by
    simp only [List.all_eq_true, Bool.and_eq_true, decide_eq_true_eq, List.mem_append, List.mem_singleton, Bool.not_eq_true',
      decide_eq_false_iff_not]
    exact fun x hx => ⟨hall x hx, hrunning x hx⟩
  change execBarrierArrival c bid phase s = _
  rw [execBarrierArrival, onCore_ok _ _ _ hc]
  simp only [hpat, hcp, hcr, hnew, if_false, hdone, if_true]

/-- An arrival that leaves the region incomplete is only counted. -/
theorem barrierArrival_counts (hopen : ∃ x ∈ r.cores, x ∉ Sparse.get [] r.arrived (arrivalKey bid phase) ∧ x ≠ c) :
    exec (.barrierArrival c bid phase) s
      = .next (s.setPat pi (p.setRegion (s.core c).region { r with
          arrived := Sparse.set [] r.arrived (arrivalKey bid phase) (Sparse.get [] r.arrived (arrivalKey bid phase) ++ [c]) })) := by
  have hcp : s.corePat (s.core c) = some p := by rw [State.corePat, hpat]; exact hp
  have hcr : s.coreRegion (s.core c) = some r := by rw [State.coreRegion, hcp]; exact hr
  have hdone : r.cores.all (fun x => decide (x ∈ Sparse.get [] r.arrived (arrivalKey bid phase) ++ [c])
      && !decide ((s.core x).st = .stopped)) = false := by
    obtain ⟨x, hx, hcount, hxc⟩ := hopen
    refine List.all_eq_false.2 ⟨x, hx, ?_⟩
    simp [hcount, hxc]
  change execBarrierArrival c bid phase s = _
  rw [execBarrierArrival, onCore_ok _ _ _ hc]
  simp only [hpat, hcp, hcr, hnew, if_false, hdone, Bool.false_eq_true]

end

/-- Settles O9: the two outcomes of an arrival, told apart by whether a core of the region is missing from the count. -/
theorem barrierRootReleasesWhenAllHaveArrived : Obligations.BarrierRootReleasesWhenAllHaveArrived := by
  intro s c pi p r bid phase hc hpat hp hr _ hrunning counted hnew
  have hreg : (s.core c).region < p.regions.length := (List.getElem?_eq_some_iff.1 hr).1
  have hlook (r' : Region) : (p.setRegion (s.core c).region r').regions[(s.core c).region]? = some r' :=
    List.getElem?_set_self hreg
  by_cases hall : ∀ x ∈ r.cores, x ∈ counted ∨ x = c
  · refine ⟨_, barrierArrival_releases hc hpat hp hr hnew hrunning hall, rfl, fun _ => ⟨rfl, _, _, pat_setPat_self .., hlook _, rfl⟩,
      fun ⟨x, hx, hcount, hxc⟩ => ?_⟩
    exact absurd (hall x hx) (by simp [hcount, hxc])
  · have hopen : ∃ x ∈ r.cores, x ∉ counted ∧ x ≠ c := by simpa only [not_forall, not_or, exists_prop] using hall
    exact ⟨_, barrierArrival_counts hc hpat hp hr hnew hopen, rfl, fun h => absurd h hall,
      fun _ => ⟨rfl, _, _, pat_setPat_self .., hlook _, Sparse.get_set_self ..⟩⟩

/-! #### Dispatch (R58, R250) -/

/-- Settles O11: the three kinds of core that a record finds; a core that takes it starts at a plain position, its loop stack being
empty. -/
theorem dispatchEntersTheLatchOrStartsTheCore : Obligations.DispatchEntersTheLatchOrStartsTheCore := by
  intro s c d hc k
  refine ⟨fun hlatch hrun => ?_, fun h => ?_, fun p hlatch hidle hp hlen => ?_⟩
  · have hlatch' : (s.core c).latch = none := hlatch
    change execDispatch c d s = _
    rw [execDispatch, onCore_ok _ _ _ hc]
    simp only [hlatch']
    exact congrArg _ (if_pos hrun)
  · change execDispatch c d s = _
    rw [execDispatch, onCore_ok _ _ _ hc]
    split
    · rfl
    next hlatch =>
      have hst : (s.core c).st = .reset ∨ (s.core c).st = .stopped := h.resolve_left fun h => h hlatch
      rcases hst with hst | hst <;> simp [hst]
  · have hlatch' : (s.core c).latch = none := hlatch
    have hidle' : (s.core c).st = .idle := hidle
    have hl : landsIn [] k.progLen (if k.useRestart then k.restart else k.entry) = true := by simpa [landsIn] using hlen
    have hexec : exec (.dispatch c d) s = .next (takeDispatch s c (s.core c) d) := by
      change execDispatch c d s = _
      rw [execDispatch, onCore_ok _ _ _ hc]
      simp only [hlatch', hidle', if_true]
      rfl
    have hp' : s.corePat (s.core c) = some p := hp
    rw [hexec, takeDispatch, hp', seqGoto_lands _ _ _ _ hl]
    refine ⟨_, rfl, fun d hd => core_setCore_ne s hd _, rfl, rfl, ?_⟩
    rw [core_setCore_self]
    refine ⟨rfl, rfl, ?_, ?_, reg_setReg_self _ 13 _, fun r hr => ?_, rfl, rfl, rfl, rfl, rfl⟩
    · exact (reg_setReg_ne _ (by decide) _).trans ((reg_setReg_ne _ (by decide) _).trans (reg_setReg_self _ 15 _))
    · exact (reg_setReg_ne _ (by decide) _).trans (reg_setReg_self _ 14 _)
    · have h15 : r ≠ 15 := by rintro rfl; exact absurd hr (by decide)
      have h14 : r ≠ 14 := by rintro rfl; exact absurd hr (by decide)
      have h13 : r ≠ 13 := by rintro rfl; exact absurd hr (by decide)
      exact (reg_setReg_ne _ h13 _).trans ((reg_setReg_ne _ h14 _).trans (reg_setReg_ne _ h15 _))

/-! #### Timeouts (R84, R168, R490) -/

theorem timedWait_of_wait {k : Core}
    (h : (∃ i n, k.wait = .sem i n) ∨ (∃ m, k.wait = .fence m) ∨ (∃ b, k.wait = .barrierFence b) ∨ ∃ b ph, k.wait = .barrier b ph) :
    k.timedWait = true := by
  rcases h with ⟨i, n, hw⟩ | ⟨m, hw⟩ | ⟨b, hw⟩ | ⟨b, ph, hw⟩ <;> simp only [Core.timedWait, hw]

theorem timedWait_of_untimed {k : Core} (h : k.wait = .halt ∨ k.wait = .none) : k.timedWait = false := by
  rcases h with hw | hw <;> simp only [Core.timedWait, hw]

theorem timedEngine_head {k : Core} {e : Fin 5} {h : QEntry} {hs : List QEntry} (hq : (k.queue e).issue = h :: hs)
    (hp : (k.queue e).prog.all (fun p => !p.held) = true) (hw : h.wait.isSome = true) (hg : h.granted = false)
    (hr : k.room e = true) : k.timedEngine e = some h := by
  have hfind : (k.queue e).prog.find? (fun p => p.held && decide (e = 4)) = none := by
    simp only [List.all_eq_true, Bool.not_eq_true'] at hp
    rw [List.find?_eq_none]
    intro p hmem
    simp [hp p hmem]
  simp [Core.timedEngine, hfind, hq, hw, hg, hr]

/-- Settles O12: each timeout finds the command that waits, and stops the core. -/
theorem timeoutsStopTheCore : Obligations.TimeoutsStopTheCore := by
  intro s c hc hrun k
  have hrun' : (s.core c).st = .running := hrun
  have hst : (s.core c).st ≠ .stopped := by rw [hrun]; decide
  refine ⟨⟨_, ?_, (cmdFault_stops s c 0 .faulted .stepTimeout k.pos k.wordAt hst).1⟩,
    fun hw => ⟨_, ?_, (cmdFault_stops s c 0 .faulted .waitTimeout k.pos k.wordAt hst).1⟩, fun hw => ?_,
    fun e h hs hq hp hw hg hr => ⟨_, ?_, (cmdFault_stops s c (e.val + 1) .faulted .waitTimeout h.pos h.word hst).1⟩,
    fun e h hs ring slot hq hp hstall hring hslot => ?_⟩
  · change execStepTimeout c s = _
    rw [execStepTimeout, onCore_ok _ _ _ hc]
    exact congrArg _ (if_pos hrun)
  · have htimed : (s.core c).timedWait = true := timedWait_of_wait hw
    change execWaitTimeout c 0 s = _
    rw [execWaitTimeout, onCore_ok _ _ _ hc]
    simp [hrun', htimed]
    rfl
  · have htimed : (s.core c).timedWait = false := timedWait_of_untimed hw
    change execWaitTimeout c 0 s = _
    rw [execWaitTimeout, onCore_ok _ _ _ hc]
    simp [hrun', htimed]
  · have htimed : (s.core c).timedEngine e = some h := timedEngine_head hq hp hw hg hr
    change execWaitTimeout c ⟨e.val + 1, by omega⟩ s = _
    rw [execWaitTimeout, onCore_ok _ _ _ hc]
    simp [hrun', htimed]
  · have hat : (s.core c).stalledAt e = some h := by
      have hq' : ((s.core c).queue e).issue = h :: hs := hq
      have hp' : ((s.core c).queue e).prog = [] := hp
      simp [Core.stalledAt, hq', hp']
    obtain ⟨hstop, -, -⟩ := coreFault_stops s c (e.val + 1) .faulted .slotStall h.pos h.word (coreDetail h.word h.pos ring slot 0 0) hst
    refine ⟨_, ?_, hstop, _, by rw [coreFault_core _ _ _ _ _ _ _ _ hst], ?_, ?_⟩
    · change execSlotStall c e s = _
      rw [execSlotStall, onCore_ok _ _ _ hc]
      simp only [hat, hstall]
    · exact (coreDetail_ring ..).trans (Nat.mod_eq_of_lt hring)
    · exact (coreDetail_slot ..).trans (Nat.mod_eq_of_lt hslot)

/-! #### Pending registers (R81) -/

/-- Settles O13: a pending register stalls the word that names it, and its value goes to it alone. -/
theorem pendingRegistersStallAndArrive : Obligations.PendingRegistersStallAndArrive := by
  intro s c hc k
  refine ⟨fun d a b r hb hfind => ?_, fun r v _ hst hfind => ?_, fun r h => ?_⟩
  · change execAdd c d a b s = _
    rw [execAdd, seqTake_stalls c _ s _ r hc hb hfind]
  · have hst' : (s.core c).st ≠ .stopped := hst
    have hfind' : (s.core c).pend.find? (fun p => decide (p.1 = r)) = some (r, some v) := hfind
    refine ⟨s.setCore c { ({ k with pend := k.pend.filter (fun p => !decide (p.1 = r)) } : Core).setReg r v with
      wait := if k.wait = .reg r then .none else k.wait }, ?_, fun d hd => core_setCore_ne s hd _, ?_⟩
    · change execRegisterResult c r s = _
      rw [execRegisterResult, onCore_ok _ _ _ hc]
      simp only [hst', if_false, hfind']
      rfl
    · rw [core_setCore_self]
      refine ⟨reg_setReg_self _ r v, fun r' hr' => reg_setReg_ne _ hr' v, ?_, fun r' hr' => ?_, rfl, rfl, fun hw => if_pos hw, rfl, rfl⟩
      · simp [Core.pending, Core.setReg]
      · simp only [Core.pending, Core.setReg, List.any_filter]
        exact List.any_congr rfl fun p => by
          by_cases hp : p.1 = r' <;> simp [hp, hr']
  · change execRegisterResult c r s = _
    rw [execRegisterResult, onCore_ok _ _ _ hc]
    rcases h with hfind | hst
    · have hfind' : (s.core c).pend.find? (fun p => decide (p.1 = r)) = some (r, none) := hfind
      simp only [hfind', ite_self]
    · exact congrArg _ (if_pos hst)

end Sys2Proof.Machine

/-! ### Issue and start of the engine commands (R62, R63, R67) -/

namespace Sys2Proof.Machine

/-- A command that may be issued is placed at the tail of its queue, and its engine then starts its head if it may. -/
theorem issueEng_places {s : State} {c : Nat} {x : Core} {e : Fin 5} {k : Common} {w : CmdWord} {fld : Nat} {dest : Option Reg}
    {mk : Core → Nat → EngineOp} (hc : c < Config.nCores) (hx : s.core c = x) (hm : x.mayIssue e k w fld dest = true) :
    issueEng c e k w fld dest mk s
      = .next (tryStart (s.setCore c (x.placed e (entryOf x k w (mk { x with wait := .none } (formed x k fld))) dest)) c e) := by
  subst hx
  simp only [Core.mayIssue, Bool.and_eq_true, decide_eq_true_eq, Bool.not_eq_true'] at hm
  obtain ⟨⟨⟨⟨htakes, hstatic⟩, hroom⟩, hrange⟩, hlands⟩ := hm
  have hroom' : ¬ 16 ≤ ((s.core c).queue e).issue.length := by omega
  have hrange' : (k.xen && decide (Config.topUnit ≤ formed { s.core c with wait := .none } k fld)) = false := hrange
  have hqueue : ({ s.core c with wait := .none } : Core).queue e = (s.core c).queue e := rfl
  rw [issueEng, seqTake_ok _ _ _ _ hc htakes]
  simp only [hstatic, hqueue, hroom', if_false, hrange', Bool.false_eq_true]
  exact congrArg (fun t => Host.Outcome.next (tryStart t c e)) (seqGoto_lands _ _ _ _ hlands)

/-- Settles O14: every command of the four classes is issued by `issueEng`. -/
theorem coreEngineCommandsAreQueued : Obligations.CoreEngineCommandsAreQueued := by
  intro s c k x hc hx f issued
  refine ⟨fun o shape acc bank eop red mod hm => ?_, fun o run bank hm => ?_, fun o bank hm => ?_, fun r hm => ?_, fun r hm => ?_,
    fun r hm => ?_, fun r hm => ?_, fun r hm => ?_, fun r hm => ?_, fun d l hm => ?_, fun d l hm => ?_, fun d l hm => ?_,
    fun d l hm => ?_, fun dest dq src len tag hm => ?_, fun q blk dsts maxlen lreg lenEn hm => ?_, fun q n hm => ?_⟩
  · exact (issueEng_places hc hx hm : execTmul c k o shape acc bank eop red mod s = _)
  · exact (issueEng_places hc hx hm : execFchain c k o run bank s = _)
  · exact (issueEng_places hc hx hm : execAccrd c k o bank s = _)
  · exact (issueEng_places hc hx hm : issueRow c .rfunc 0 k r s = _)
  · exact (issueEng_places hc hx hm : issueRow c .rred 1 k r s = _)
  · exact (issueEng_places hc hx hm : issueRow c .ralu 2 k r s = _)
  · exact (issueEng_places hc hx hm : issueRow c .rrescale 3 k r s = _)
  · exact (issueEng_places hc hx hm : issueRow c .rtload 4 k r s = _)
  · exact (issueEng_places hc hx hm : issueRow c .rquant 5 k r s = _)
  · exact (issueEng_places hc hx hm : issueStream c .copy 0 k d l s = _)
  · exact (issueEng_places hc hx hm : issueStream c .gather 1 k d l s = _)
  · exact (issueEng_places hc hx hm : issueStream c .scatter 2 k d l s = _)
  · exact (issueEng_places hc hx hm : issueStream c .tcopy 3 k d l s = _)
  · exact (issueEng_places hc hx hm : execSend c k dest dq src len tag s = _)
  · exact (issueEng_places hc hx hm : execRecv c k q blk dsts maxlen lreg lenEn s = _)
  · exact (issueEng_places hc hx hm : execCredit c k q n s = _)

/-- A vault command without a result register is placed at the NMU's queue. -/
theorem issueVault_places {s : State} {c : Nat} {x : Core} {k : Common} {op : VaultOp} {n : Nat} {d : BitVec 16} {g : Reg}
    (hc : c < Config.nCores) (hx : s.core c = x) (hm : x.mayIssue 3 k (vaultWord n k d g false) d.toNat none = true) :
    issueVault c op n k d g false s = .next (tryStart (s.setCore c
      (x.placed 3 (entryOf x k (vaultWord n k d g false) (.vault op (formed x k d.toNat) none)) none)) c 3) := by
  rw [issueVault]
  exact issueEng_places hc hx hm

/-- One with a result register is placed with it. -/
theorem issueVault_placesResult {s : State} {c : Nat} {x : Core} {k : Common} {op : VaultOp} {n : Nat} {d : BitVec 16} {g : Reg}
    (hc : c < Config.nCores) (hx : s.core c = x) (hm : x.mayIssue 3 k (vaultWord n k d g true) d.toNat (some g) = true) :
    issueVault c op n k d g true s = .next (tryStart (s.setCore c
      (x.placed 3 (entryOf x k (vaultWord n k d g true) (.vault op (formed x k d.toNat) (some g))) (some g))) c 3) := by
  rw [issueVault]
  exact issueEng_places hc hx hm

/-- Settles O15: every command of the vault class is issued by `issueVault`. -/
theorem vaultCommandsAreQueued : Obligations.VaultCommandsAreQueued := by
  intro s c k x hc hx f issued
  refine ⟨fun d g hm => ?_, fun d g hm => ?_, fun d g hm => ?_, fun d g hm => ?_, fun d g hm => ?_, fun d g hm => ?_, fun d g hm => ?_,
    fun d g hm => ?_, fun d g hm => ?_, fun d g hm => ?_, fun d g hm => ?_, fun d g hm => ?_, fun d g hm => ?_⟩
  · exact (issueVault_places hc hx hm : execVaultGather c k ⟨d, g⟩ s = _)
  · exact (issueVault_places hc hx hm : execScadd c k ⟨d, g⟩ s = _)
  · exact (issueVault_places hc hx hm : execMerge c k ⟨d, g⟩ s = _)
  · exact (issueVault_places hc hx hm : execTopk c k ⟨d, g⟩ s = _)
  · exact (issueVault_places hc hx hm : execVaultRred c k ⟨d, g⟩ s = _)
  · exact (issueVault_places hc hx hm : execFill c k ⟨d, g⟩ s = _)
  · exact (issueVault_places hc hx hm : execDecomp c k ⟨d, g⟩ s = _)
  · exact (issueVault_places hc hx hm : execCtrsetInit c k ⟨d, g⟩ s = _)
  · exact (issueVault_places hc hx hm : execCtrsetDone c k ⟨d, g⟩ s = _)
  · exact (issueVault_places hc hx hm : execCtrsetRelease c k ⟨d, g⟩ s = _)
  · exact (issueVault_places hc hx hm : execUnlock c k ⟨d, g⟩ s = _)
  · exact (issueVault_placesResult hc hx hm : execCtradd c k d g s = _)
  · exact (issueVault_placesResult hc hx hm : execLock c k d g s = _)

/-! #### The head of an engine's queue -/

theorem tryStart_stays {s : State} {c : Nat} {e : Fin 5} (h : (s.core c).st ≠ .running ∨ (s.core c).cancelling = true) :
    tryStart s c e = s := if_pos h

section
variable {s : State} {c : Nat} {e : Fin 5} (hrun : (s.core c).st = .running) (hcancel : (s.core c).cancelling = false)
  (hchain : e = 0 → chainOpen (s.core c) = none)
include hrun hcancel hchain

theorem tryStart_noHead (hq : ((s.core c).grantEngines.queue e).issue = []) :
    tryStart s c e = s.setCore c (s.core c).grantEngines := by
  have hno : (if e = 0 then chainOpen (s.core c) else none) = none := by split <;> simp_all
  simp [tryStart, hrun, hcancel, hno, hq]

theorem tryStart_blocked {h : QEntry} {hs : List QEntry} (hq : ((s.core c).grantEngines.queue e).issue = h :: hs)
    (hb : (h.wait.isSome = true ∧ h.granted = false) ∨ (s.core c).grantEngines.room e = false) :
    tryStart s c e = s.setCore c (s.core c).grantEngines := by
  have hno : (if e = 0 then chainOpen (s.core c) else none) = none := by split <;> simp_all
  have hb' : ((h.wait.isSome && !h.granted) || !(s.core c).grantEngines.room e) = true := by simpa using hb
  simp only [tryStart, hrun, hcancel, hno, hq, hb', if_true, ne_eq, not_true, Bool.false_eq_true, or_self, if_false]

section
variable {h : QEntry} {hs : List QEntry} (hq : ((s.core c).grantEngines.queue e).issue = h :: hs)
  (hw : h.wait.isSome = true → h.granted = true) (hr : (s.core c).grantEngines.room e = true)
include hq hw hr

theorem tryStart_goes {t : State} {fl : InFlight}
    (hgo : startEntry (s.setCore c (s.core c).grantEngines) c (s.core c).grantEngines { h with stalled := none } = .go t fl) :
    tryStart s c e = headStarted t c e fl := by
  have hno : (if e = 0 then chainOpen (s.core c) else none) = none := by split <;> simp_all
  have hb : ((h.wait.isSome && !h.granted) || !(s.core c).grantEngines.room e) = false := by simpa [hr] using hw
  simp only [tryStart, hrun, hcancel, hno, hq, hb, ne_eq, not_true, Bool.false_eq_true, or_self, if_false, hgo]

theorem tryStart_stops {t : State} {st : Stop}
    (hgo : startEntry (s.setCore c (s.core c).grantEngines) c (s.core c).grantEngines { h with stalled := none } = .stop t st) :
    tryStart s c e = stopCore t c e h st := by
  have hno : (if e = 0 then chainOpen (s.core c) else none) = none := by split <;> simp_all
  have hb : ((h.wait.isSome && !h.granted) || !(s.core c).grantEngines.room e) = false := by simpa [hr] using hw
  simp only [tryStart, hrun, hcancel, hno, hq, hb, ne_eq, not_true, Bool.false_eq_true, or_self, if_false, hgo]

theorem tryStart_stalls {ring slot : Nat}
    (hgo : startEntry (s.setCore c (s.core c).grantEngines) c (s.core c).grantEngines { h with stalled := none } = .stall ring slot) :
    tryStart s c e = headStalls (s.setCore c (s.core c).grantEngines) c e ring slot := by
  have hno : (if e = 0 then chainOpen (s.core c) else none) = none := by split <;> simp_all
  have hb : ((h.wait.isSome && !h.granted) || !(s.core c).grantEngines.room e) = false := by simpa [hr] using hw
  simp only [tryStart, hrun, hcancel, hno, hq, hb, ne_eq, not_true, Bool.false_eq_true, or_self, if_false, hgo]

end

end

/-- Settles O18: one lemma of `tryStart` for each place at which it may end. -/
theorem enginesStartTheirHeadInOrder : Obligations.EnginesStartTheirHeadInOrder := by
  intro s c e hc k k1
  have hexec : exec (.engineCommandStart c e) s = .next (tryStart s c e) := by
    change execEngineCommandStart c e s = _
    exact onCore_ok _ _ _ hc
  simp only [hexec]
  refine ⟨fun h => congrArg _ (tryStart_stays h), fun hrun hcancel hchain => ⟨fun hq => congrArg _ (tryStart_noHead hrun hcancel hchain hq),
    fun h hs hq => ⟨fun hb => congrArg _ (tryStart_blocked hrun hcancel hchain hq hb), fun hw hr => ?_⟩⟩⟩
  exact ⟨fun t fl hgo => congrArg _ (tryStart_goes hrun hcancel hchain hq hw hr hgo),
    fun t st hgo => congrArg _ (tryStart_stops hrun hcancel hchain hq hw hr hgo),
    fun ring slot hgo => congrArg _ (tryStart_stalls hrun hcancel hchain hq hw hr hgo)⟩

end Sys2Proof.Machine

/-! ### Completion and signals of the engine commands (R64) -/

namespace Sys2Proof.Machine

theorem OtherCores.setCore {c : Nat} {s t : State} (h : OtherCores c s t) (k : Core) : OtherCores c s (t.setCore c k) :=
  fun d hd => (core_setCore_ne t hd k).trans (h d hd)

theorem OtherCores.refl (c : Nat) (s : State) : OtherCores c s s := fun _ _ => rfl

section
variable {s : State} {c : Nat} {e : Fin 5} {n : Nat} {f : InFlight} {rest : List InFlight}

theorem retire_empty (hq : ((s.core c).queue e).prog = []) : retire c e n s = s := by
  cases n with
  | zero => rfl
  | succ n => simp [retire, hq]

/-- A command that has not completed holds back those behind it. -/
theorem retire_open (hq : ((s.core c).queue e).prog = f :: rest) (hd : f.done = false) : retire c e n s = s := by
  cases n with
  | zero => rfl
  | succ n => simp [retire, hq, hd]

/-- The core after the first of its completed commands has left the list and raised its semaphore. -/
def Core.signalled (k : Core) (e : Fin 5) (rest : List InFlight) (i : Fin 64) : Core :=
  (k.setQueue e { k.queue e with prog := rest }).setSem i (k.sem i + 1)

theorem signalled_prog (k : Core) (e : Fin 5) (rest : List InFlight) (i : Fin 64) : ((k.signalled e rest i).queue e).prog = rest :=
  congrArg EngineQ.prog (queue_setQueue_self k e _)

theorem signalled_regs (k : Core) (e : Fin 5) (rest : List InFlight) (i : Fin 64) : (k.signalled e rest i).regs = k.regs := rfl

theorem signalled_sem_self {k : Core} {i : Fin 64} (e : Fin 5) (rest : List InFlight) (h : k.sem i < 65535) :
    (k.signalled e rest i).sem i = k.sem i + 1 :=
  (sem_setSem_self ..).trans (Nat.mod_eq_of_lt (by omega))

theorem signalled_sem_ne (k : Core) {i n : Fin 64} (e : Fin 5) (rest : List InFlight) (h : n ≠ i) :
    (k.signalled e rest i).sem n = k.sem n := sem_setSem_ne _ h _

theorem retire_signals {i : Fin 64} (hq : ((s.core c).queue e).prog = f :: rest) (hd : f.done = true) (hs : f.entry.signal = some i)
    (hst : (s.core c).st ≠ .stopped) (hfits : (s.core c).sem i < 65535) :
    retire c e (n + 1) s
      = retire c e n ((s.setCore c ((s.core c).setQueue e { (s.core c).queue e with prog := rest })).setCore c
          ((s.core c).signalled e rest i)) := by
  have hraise : raiseSem (s.setCore c ((s.core c).setQueue e { (s.core c).queue e with prog := rest })) c (e.val + 1) i 1
        f.entry.pos f.entry.word
      = (s.setCore c ((s.core c).setQueue e { (s.core c).queue e with prog := rest })).setCore c ((s.core c).signalled e rest i) := by
    rw [raiseSem_fits]
    · rw [core_setCore_self]
      rfl
    · rw [core_setCore_self]
      exact hfits
  have hrunning : ¬ (((s.setCore c ((s.core c).setQueue e { (s.core c).queue e with prog := rest })).setCore c
      ((s.core c).signalled e rest i)).core c).st = .stopped := by
    rw [core_setCore_self]
    exact hst
  rw [retire]
  simp only [hq, hd, hs, hraise, hrunning, if_false, Bool.true_eq_false]

/-- Two completed commands at the front of a list that end it raise their semaphores and leave. -/
theorem retire_two {g : InFlight} {i j : Fin 64} (hij : i ≠ j) (hq : ((s.core c).queue e).prog = [f, g]) (hfd : f.done = true)
    (hgd : g.done = true) (hfs : f.entry.signal = some i) (hgs : g.entry.signal = some j) (hst : (s.core c).st ≠ .stopped)
    (hi : (s.core c).sem i < 65535) (hj : (s.core c).sem j < 65535) :
    (retire c e (n + 2) s).core c = ((s.core c).signalled e [g] i).signalled e [] j ∧ (retire c e (n + 2) s).mem = s.mem
      ∧ OtherCores c s (retire c e (n + 2) s) := by
  generalize ht : (s.setCore c ((s.core c).setQueue e { (s.core c).queue e with prog := [g] })).setCore c
    ((s.core c).signalled e [g] i) = t
  have hcore : t.core c = (s.core c).signalled e [g] i := by rw [← ht, core_setCore_self]
  have hmem : t.mem = s.mem := by rw [← ht]; rfl
  have hothers : OtherCores c s t := ht ▸ ((OtherCores.refl c s).setCore _).setCore _
  have hq' : ((t.core c).queue e).prog = g :: [] := by rw [hcore, signalled_prog]
  have hj' : (t.core c).sem j < 65535 := by rwa [hcore, signalled_sem_ne _ _ _ hij.symm]
  rw [retire_signals hq hfd hfs hst hi, ht, retire_signals hq' hgd hgs (by rw [hcore]; exact hst) hj', hcore, retire_empty]
  · exact ⟨core_setCore_self .., hmem, (hothers.setCore _).setCore _⟩
  · rw [core_setCore_self, signalled_prog]

/-- The core in which command number `i` of an engine's list has completed, with nothing but its slots to give back. -/
def Core.completed (k : Core) (e : Fin 5) (i : Nat) (fl : InFlight) : Core :=
  ({ k with rings := slotsEnd k.rings fl.reads fl.writes }).setQueue e
    { k.queue e with prog := (k.queue e).prog.set i { fl with done := true } }

theorem completed_prog (k : Core) (e : Fin 5) (i : Nat) (fl : InFlight) :
    ((k.completed e i fl).queue e).prog = (k.queue e).prog.set i { fl with done := true } :=
  congrArg EngineQ.prog (queue_setQueue_self ..)

theorem completed_regs (k : Core) (e : Fin 5) (i : Nat) (fl : InFlight) : (k.completed e i fl).regs = k.regs := rfl

theorem exec_complete {fl : InFlight} {i : Nat} (hc : c < Config.nCores) (hrun : (s.core c).st = .running)
    (hi : ((s.core c).queue e).prog[i]? = some fl) (hout : fl.output = none) (hlink : fl.link = none) (hres : fl.result = none)
    (hheld : fl.held = false) (hchain : fl.chain = none) (hdone : fl.done = false) :
    exec (.engineCommandComplete c e i) s
      = .next (retire c e (((s.core c).queue e).prog.length + 1) (s.setCore c ((s.core c).completed e i fl))) := by
  obtain ⟨entry, reads, writes, held, tries, output, link, done, result, chain⟩ := fl
  dsimp only at hout hlink hres hheld hchain hdone
  subst hout hlink hres hheld hchain hdone
  have hmay : (mayFinish ⟨entry, reads, writes, false, tries, none, none, false, none, none⟩
      && decide ((s.core c).st = .running)) = true := Bool.and_eq_true_iff.2 ⟨rfl, decide_eq_true hrun⟩
  change execEngineCommandComplete c e i s = _
  rw [execEngineCommandComplete, onCore_ok _ _ _ hc]
  simp only [hi, hmay, if_true, finishCmd, deliver]
  rfl

end

/-- Settles O19: the later command waits in its list for the earlier one, which then lets both signals rise. -/
theorem signalsRiseInQueueOrder : Obligations.SignalsRiseInQueueOrder := by
  intro s c e f g i j hc hij k hrun hprog hfs hgs hfo hgo hfl hgl hfr hgr hfh hgh hfc hgc hfd hgd hi hj
  have hprog' : ((s.core c).queue e).prog = [f, g] := hprog
  have hfirst : exec (.engineCommandComplete c e 1) s = .next (s.setCore c ((s.core c).completed e 1 g)) := by
    rw [exec_complete hc hrun (by rw [hprog']; rfl) hgo hgl hgr hgh hgc hgd]
    refine congrArg _ (retire_open (f := f) (rest := [{ g with done := true }]) ?_ hfd)
    rw [core_setCore_self, completed_prog, hprog']
    rfl
  refine ⟨_, hfirst, ?_, ?_, ?_, rfl, (OtherCores.refl c s).setCore _, ?_⟩
  · rw [core_setCore_self]; rfl
  · rw [core_setCore_self, completed_prog, hprog']; rfl
  · rw [core_setCore_self]; rfl
  generalize hs1 : s.setCore c ((s.core c).completed e 1 g) = s1
  have hk1 : s1.core c = (s.core c).completed e 1 g := by rw [← hs1, core_setCore_self]
  have hprog1 : ((s1.core c).queue e).prog = [f, { g with done := true }] := by
    rw [hk1, completed_prog, hprog']; rfl
  have hsecond := exec_complete (i := 0) hc (by rw [hk1]; exact hrun) (by rw [hprog1]; rfl) hfo hfl hfr hfh hfc hfd
  generalize hs2 : s1.setCore c ((s1.core c).completed e 0 f) = s2 at hsecond
  have hk2 : s2.core c = (s1.core c).completed e 0 f := by rw [← hs2, core_setCore_self]
  have hothers : OtherCores c s s2 := hs2 ▸ (hs1 ▸ (OtherCores.refl c s).setCore _).setCore _
  have hmem : s2.mem = s.mem := by rw [← hs2, ← hs1]; rfl
  have hsems (n : Fin 64) : (s2.core c).sem n = k.sem n := by rw [hk2, hk1]; rfl
  have hprog2 : ((s2.core c).queue e).prog = [{ f with done := true }, { g with done := true }] := by
    rw [hk2, completed_prog, hprog1]; rfl
  obtain ⟨hcore, hmem', hothers'⟩ := retire_two (n := 1) hij hprog2 rfl rfl hfs hgs (by rw [hk2, hk1]; exact hrun ▸ by decide)
    (by rwa [hsems]) (by rwa [hsems])
  rw [hprog1] at hsecond
  change _ = Host.Outcome.next (retire c e (1 + 2) s2) at hsecond
  refine ⟨_, hsecond, ?_, ?_, ?_, fun n hni hnj => ?_, ?_, hmem'.trans hmem, fun d hd => (hothers' d hd).trans (hothers d hd)⟩
  · exact hcore ▸ signalled_prog ..
  · rw [hcore, signalled_sem_ne _ _ _ hij, signalled_sem_self _ _ (by rwa [hsems]), hsems]
  · rw [hcore, signalled_sem_self _ _ (by rwa [signalled_sem_ne _ _ _ hij.symm, hsems]), signalled_sem_ne _ _ _ hij.symm, hsems]
  · rw [hcore, signalled_sem_ne _ _ _ hnj, signalled_sem_ne _ _ _ hni, hsems]
  · rw [hcore, signalled_regs, signalled_regs, hk2, completed_regs, hk1, completed_regs]

end Sys2Proof.Machine

/-! ### The start of a queued command, and the Message Unit (R63, R80, R264 to R274) -/

namespace Sys2Proof.Machine

/-! #### Counters and records leave the cores, the memory, the Helm and what is sent alone -/

/-- What neither a counter nor an event record touches. -/
def State.work (s : State) : List (Nat × Core) × Memory × HelmSt × List Emit := (s.cores, s.mem, s.helm, s.out)

section
variable {s t : State} (h : t.work = s.work)
include h

theorem work_cores : t.cores = s.cores := congrArg (·.1) h
theorem work_mem : t.mem = s.mem := congrArg (·.2.1) h
theorem work_helm : t.helm = s.helm := congrArg (·.2.2.1) h
theorem work_out : t.out = s.out := congrArg (·.2.2.2) h
theorem work_core (c : Nat) : t.core c = s.core c := by rw [State.core, work_cores h]; rfl

end

@[simp] theorem bump_work (s : State) (o n : Nat) : (s.bump o n).work = s.work := rfl
@[simp] theorem bump32_work (s : State) (o n : Nat) : (s.bump32 o n).work = s.work := rfl
@[simp] theorem logRec_work (s : State) (r : EventRec) : (s.logRec r).work = s.work := rfl

@[simp] theorem coreBumps_work (s : State) (c : Nat) (l : List (Nat × Nat × Bool)) : (coreBumps s c l).work = s.work := by
  refine foldl_field _ _ (fun s x => ?_) l s
  split
  · rfl
  · split <;> rfl

@[simp] theorem engineMarks_work (s : State) (c : Nat) (e : Fin 5) : (engineMarks s c e).work = s.work := coreBumps_work ..

/-! #### The only queued command of a core -/

theorem Core.onlyHead_iff {k : Core} {e : Fin 5} {h : QEntry} : k.onlyHead e h = true ↔
    k.st = .running ∧ k.cancelling = false ∧ (∀ x, x ≠ e → (k.queue x).issue = []) ∧ k.queue e = { issue := [h], prog := [] }
      ∧ h.wait = none ∧ k.rings = [] := by
  simp only [Core.onlyHead, Bool.and_eq_true, decide_eq_true_eq, Bool.not_eq_true', List.all_eq_true, Bool.or_eq_true,
    List.isEmpty_iff, Option.isNone_iff_eq_none, and_assoc]
  refine and_congr_right fun _ => and_congr_right fun _ => and_congr_left' ?_
  refine ⟨fun hx x hne => (hx x ?_).resolve_left hne, fun hx x _ => or_iff_not_imp_left.2 (hx x)⟩
  exact (by decide : ∀ x : Fin 5, x ∈ [0, 1, 2, 3, 4]) x

theorem grantHead_unwaited {k : Core} {e : Fin 5} {h : QEntry} {t : List QEntry} (hq : (k.queue e).issue = h :: t)
    (hw : h.wait = none) : k.grantHead e = k := by
  simp [Core.grantHead, hq, hw]

theorem room_idle {k : Core} {e : Fin 5} (h : (k.queue e).prog = []) : k.room e = true := by
  match e with
  | 0 | 1 | 2 | 3 | 4 => simp_all [Core.room, EngineQ.active]

theorem chainOpen_idle {k : Core} (h : (k.queue 0).prog = []) : chainOpen k = none := by simp [chainOpen, h]

section
variable {s : State} {c : Nat} {e : Fin 5} {h : QEntry} (ho : (s.core c).onlyHead e h = true)
include ho

theorem grantEngines_onlyHead : (s.core c).grantEngines = s.core c := by
  obtain ⟨-, -, hrest, hq, hw, -⟩ := Core.onlyHead_iff.1 ho
  refine grantHeads_same (l := [0, 1, 2, 3, 4]) fun f _ => ?_
  by_cases hf : f = e
  · subst hf
    exact grantHead_unwaited (by rw [hq]) hw
  · exact grantHead_empty (hrest f hf)

variable (hc : c < Config.nCores)
include hc

/-- The only command of a core goes on as its start says. -/
theorem start_goes {t : State} {fl : InFlight}
    (hgo : startEntry (s.setCore c (s.core c)) c (s.core c) { h with stalled := none } = .go t fl) :
    exec (.engineCommandStart c e) s = .next (headStarted t c e fl) := by
  obtain ⟨hrun, hcancel, -, hq, hw, -⟩ := Core.onlyHead_iff.1 ho
  have hg := grantEngines_onlyHead ho
  change execEngineCommandStart c e s = _
  rw [execEngineCommandStart, onCore_ok _ _ _ hc,
    tryStart_goes hrun hcancel (fun he => chainOpen_idle (by rw [← he, hq])) (by rw [hg, hq]) (by simp [hw])
      (room_idle (by rw [hg, hq])) (by rw [hg]; exact hgo)]

theorem start_stops {t : State} {st : Stop}
    (hgo : startEntry (s.setCore c (s.core c)) c (s.core c) { h with stalled := none } = .stop t st) :
    exec (.engineCommandStart c e) s = .next (stopCore t c e h st) := by
  obtain ⟨hrun, hcancel, -, hq, hw, -⟩ := Core.onlyHead_iff.1 ho
  have hg := grantEngines_onlyHead ho
  change execEngineCommandStart c e s = _
  rw [execEngineCommandStart, onCore_ok _ _ _ hc,
    tryStart_stops hrun hcancel (fun he => chainOpen_idle (by rw [← he, hq])) (by rw [hg, hq]) (by simp [hw])
      (room_idle (by rw [hg, hq])) (by rw [hg]; exact hgo)]

end

/-! #### What a start leaves -/

/-- The core whose command has started: it has left the queue and is in progress. -/
def Core.headGone (k : Core) (e : Fin 5) (fl : InFlight) : Core :=
  k.setQueue e { issue := (k.queue e).issue.drop 1, prog := (k.queue e).prog ++ [fl] }

theorem headStarted_work (s : State) (c : Nat) (e : Fin 5) (fl : InFlight) :
    (headStarted s c e fl).work = (s.setCore c ((s.core c).headGone e fl)).work := engineMarks_work ..

theorem headStarted_core (s : State) (c : Nat) (e : Fin 5) (fl : InFlight) :
    (headStarted s c e fl).core c = (s.core c).headGone e fl := by
  rw [work_core (headStarted_work ..), core_setCore_self]

theorem headStarted_others (s : State) (c : Nat) (e : Fin 5) (fl : InFlight) : OtherCores c s (headStarted s c e fl) :=
  fun d hd => (work_core (headStarted_work ..) d).trans (core_setCore_ne s hd _)

theorem coreFault_pats (s : State) (c eng : Nat) (kind : Kind) (code : Code) (pos : Nat) (word : CmdWord) (detail : BitVec 256) :
    (coreFault s c eng kind code pos word detail).helm.pats = s.helm.pats := by
  unfold coreFault
  dsimp only
  split <;> rfl

/-- A command that stops its core with no stream key at fault. -/
theorem stopCore_stops {s : State} {c : Nat} {e : Fin 5} {q : QEntry} {st : Stop} (hkey : st.key = none)
    (hrun : (s.core c).st ≠ .stopped) :
    Stopped s (stopCore s c e q st) c (e.val + 1) st.kind st.code q.pos ∧ OtherCores c s (stopCore s c e q st)
      ∧ (stopCore s c e q st).mem = s.mem ∧ (stopCore s c e q st).helm.pats = s.helm.pats
      ∧ ∃ f, (stopCore s c e q st).core c = { (s.core c).quiet with
          st := .stopped, locks := [], xlate := [], nmuXlate := [], fault := some f } := by
  have heq : stopCore s c e q st = coreFault (engineMarks s c e) c (e.val + 1) st.kind st.code q.pos q.word
      (coreDetail q.word q.pos st.ring st.slot 0 st.x56) := by simp only [stopCore, hkey]
  have hwork := engineMarks_work s c e
  have hcore := work_core hwork
  rw [heq]
  generalize engineMarks s c e = t at hwork hcore
  have hst : (t.core c).st ≠ .stopped := by rwa [hcore]
  obtain ⟨hstop, hothers, hmem⟩ := coreFault_stops t c (e.val + 1) st.kind st.code q.pos q.word
    (coreDetail q.word q.pos st.ring st.slot 0 st.x56) hst
  have hk := coreFault_core t c (e.val + 1) st.kind st.code q.pos q.word (coreDetail q.word q.pos st.ring st.slot 0 st.x56) hst
  rw [hcore] at hk
  rw [Stopped, hcore] at hstop
  exact ⟨hstop, fun d hd => (hothers d hd).trans (hcore d), hmem.trans (work_mem hwork),
    (coreFault_pats ..).trans (congrArg HelmSt.pats (work_helm hwork)), _, hk⟩

end Sys2Proof.Machine

/-! ### SEND, the producer table (R80, R267 to R269) -/

namespace Sys2Proof.Machine

/-! #### The producer table (R268, R269) -/

theorem find_dropEnt_none (l : List ProdEnt) (dest : Nat) (q : Fin 8) :
    (dropEnt l dest q).find? (fun x => decide (x.dest = dest ∧ x.q = q)) = none := by
  rw [List.find?_eq_none]
  intro x hx
  simpa only [dropEnt, Bool.not_eq_true', decide_eq_false_iff_not, decide_eq_true_eq] using (List.mem_filter.1 hx).2

/-- The entries of other queues stay. -/
theorem find_dropEnt_other (l : List ProdEnt) {dest d' : Nat} {q q' : Fin 8} (h : (d', q') ≠ (dest, q)) :
    (dropEnt l dest q).find? (fun x => decide (x.dest = d' ∧ x.q = q')) = l.find? (fun x => decide (x.dest = d' ∧ x.q = q')) := by
  rw [dropEnt, List.find?_filter]
  refine List.find?_congr fun x _ => ?_
  by_cases hx : x.dest = d' ∧ x.q = q'
  · have hne : ¬ (x.dest = dest ∧ x.q = q) := fun hd => h (by rw [← hx.1, ← hx.2, hd.1, hd.2])
    rw [decide_eq_true hx, decide_eq_false hne]
    rfl
  · simp only [decide_eq_false hx, Bool.false_eq_true, and_false, decide_false]

/-- The core with an entry of its producer table replaced, or a new one. -/
def Core.withEnt (k : Core) (e : ProdEnt) : Core := { k with prod := dropEnt k.prod e.dest e.q ++ [e] }

theorem prodEnt_withEnt_self (k : Core) (e : ProdEnt) : (k.withEnt e).prodEnt e.dest e.q = some e := by
  rw [Core.prodEnt, Core.withEnt, List.find?_append, find_dropEnt_none]
  simp

theorem prodEnt_withEnt_other (k : Core) {e : ProdEnt} {d' : Nat} {q' : Fin 8} (h : (d', q') ≠ (e.dest, e.q)) :
    (k.withEnt e).prodEnt d' q' = k.prodEnt d' q' := by
  have hne : ¬ (e.dest = d' ∧ e.q = q') := fun he => h (by rw [he.1, he.2])
  rw [Core.prodEnt, Core.withEnt, List.find?_append, find_dropEnt_other _ h, List.find?_singleton, decide_eq_false hne]
  simp [Core.prodEnt]

theorem prodEnt_key {k : Core} {dest : Nat} {q : Fin 8} {e : ProdEnt} (h : k.prodEnt dest q = some e) : e.dest = dest ∧ e.q = q := by
  simpa using List.find?_some h

/-! #### SEND (R80, R267, R268) -/

theorem corePat_setCore (s : State) (c : Nat) (k k' : Core) : (s.setCore c k).corePat k' = s.corePat k' := rfl

/-- The words of an item, as the statements count them. -/
theorem itemWords_eq (len : Nat) : itemWords len = 1 + (len + 63) / 64 := rfl

section
variable {s : State} {c : Nat} {h : QEntry} {d src len dest : Nat} {q : Fin 8} {tag : BitVec 16}

/-- The item that a SEND injects. -/
def sentItem (k : Core) (c : Nat) (e : ProdEnt) (src len : Nat) (tag : BitVec 16) : Item :=
  { src := c, dq := e.q, epoch := e.epoch, tag := tag, len := len, data := rdBytes k.scratch (src * 64) len }

theorem startSend_noDest {k : Core} (hlen : len ≤ 4096) (hd : 4224 ≤ d ∨ (s.corePat k).bind (fun p => p.placed d) = none) :
    startSend s c k h d q src len tag = .stop s (rejectS .msgDest) := by
  have hno : (s.corePat k).bind (fun p => if d < Config.nCores then p.placed d else none) = none := by
    rcases hd with hd | hd
    · have hd' : ¬ d < Config.nCores := Nat.not_lt.2 hd
      simp [hd']
    · split <;> simp [hd]
  simp only [startSend, Nat.not_lt.2 hlen, if_false, hno]

/-- With its checks passed and no rings a SEND makes its first try. -/
theorem startSend_tries {k : Core} (hlen : len ≤ 4096) (hrange : src * 64 + len ≤ 0x2F0000) (hd : d < 4224)
    (hdest : (s.corePat k).bind (fun p => p.placed d) = some dest) (hr : k.rings = []) :
    startSend s c k h d q src len tag = sendTry (s.setCore c k) c (inFlight h [] []) dest q src len tag := by
  have hd' : d < Config.nCores := hd
  have hrange' : ¬ (len ≠ 0 ∧ Config.scratchTop < src * 64 + len) := fun hx => absurd hx.2 (Nat.not_lt.2 hrange)
  have hrings : ringsOf 5 false [] (if len = 0 then [] else [[(src * 64, len)]]) = .ok [] := by split <;> rfl
  have hk : ({ k with rings := slotsStart [] [] [] } : Core) = k := by rw [← hr]; rfl
  have hblock : slotBlocked [] [] [] = none := rfl
  simp only [startSend, Nat.not_lt.2 hlen, if_false, hd', if_true, hdest, hrange', hr, hrings, hblock, hk]

variable {fl : InFlight} {e : ProdEnt} (he : (s.core c).prodEnt dest q = some e)
include he

theorem sendTry_tooLong (hg : e.grant < itemWords len) : sendTry s c fl dest q src len tag = .stop s (rejectS .msgLength) := by
  simp only [sendTry, he, hg, if_true]

theorem sendTry_holds (hg : itemWords len ≤ e.grant) (hcr : e.credits < itemWords len) :
    sendTry s c fl dest q src len tag = .go (s.setCore c ((s.core c).withEnt e)) { fl with held := true, tries := 0 } := by
  obtain ⟨rfl, rfl⟩ := prodEnt_key he
  simp only [sendTry, he, Nat.not_lt.2 hg, if_false, hcr, if_true]
  rfl

theorem sendTry_sends (hg : itemWords len ≤ e.grant) (hcr : itemWords len ≤ e.credits) : sendTry s c fl dest q src len tag
    = .go (((s.setCore c ((s.core c).withEnt { e with credits := e.credits - itemWords len })).emit
        (.item dest (sentItem (s.core c) c e src len tag))).bump (coreCtr c 0xA0) 1)
      { fl with held := false, tries := 0 } := by
  obtain ⟨rfl, rfl⟩ := prodEnt_key he
  simp only [sendTry, he, Nat.not_lt.2 hg, if_false, Nat.not_lt.2 hcr]
  rfl

end

/-- Putting a core back as it is leaves every core as it is. -/
theorem core_setCore_same (s : State) (c d : Nat) : (s.setCore c (s.core c)).core d = s.core d := by
  by_cases h : d = c
  · rw [h, core_setCore_self]
  · exact core_setCore_ne s h _

theorem Stopped.of_core {s s' t : State} {c eng pos : Nat} {kind : Kind} {code : Code} (h : Stopped s' t c eng kind code pos)
    (hcore : s'.core c = s.core c) : Stopped s t c eng kind code pos := by
  rwa [Stopped, hcore] at h

theorem OtherCores.trans {c : Nat} {s t u : State} (h : OtherCores c s t) (h' : OtherCores c t u) : OtherCores c s u :=
  fun d hd => (h' d hd).trans (h d hd)

theorem headGone_frame (k : Core) (e : Fin 5) (fl : InFlight) :
    (k.headGone e fl).prod = k.prod ∧ (k.headGone e fl).scratch = k.scratch ∧ (k.headGone e fl).regs = k.regs
      ∧ (k.headGone e fl).sems = k.sems ∧ (k.headGone e fl).rq = k.rq := ⟨rfl, rfl, rfl, rfl, rfl⟩

theorem headGone_prog {k : Core} {e : Fin 5} {h : QEntry} (fl : InFlight) (hq : k.queue e = { issue := [h], prog := [] }) :
    ((k.headGone e fl).queue e).prog = [fl] := by
  rw [Core.headGone, queue_setQueue_self, hq]
  rfl

/-- What a command that started from `s` leaves. -/
theorem headStarted_spec (s : State) (c : Nat) (e : Fin 5) (fl : InFlight) :
    (headStarted s c e fl).core c = (s.core c).headGone e fl ∧ OtherCores c s (headStarted s c e fl)
      ∧ (headStarted s c e fl).out = s.out ∧ (headStarted s c e fl).mem = s.mem :=
  have hwork := headStarted_work s c e fl
  ⟨headStarted_core s c e fl, headStarted_others s c e fl, (work_out hwork).trans rfl, (work_mem hwork).trans rfl⟩

theorem startEntry_send {s : State} {c : Nat} {k : Core} {h : QEntry} {d : Nat} {q : Fin 8} {src len : Nat} {tag : BitVec 16}
    (hop : h.op = .send d q src len tag) : startEntry s c k { h with stalled := none }
      = startSend s c k { h with stalled := none } d q src len tag := by
  simp only [startEntry, hop, startMessage]

/-- Settles O20: one lemma for each end of a SEND's first try. -/
theorem sendSpendsCreditsAndInjectsItsItem : Obligations.SendSpendsCreditsAndInjectsItsItem := by
  intro s c d src len dest q tag h e hc k words ho hop hlen
  obtain ⟨hrun, -, -, hq, -, hr⟩ := Core.onlyHead_iff.1 ho
  have hst : (s.core c).st ≠ .stopped := by rw [hrun]; decide
  refine ⟨fun hd => ?_, fun hrange hd hdest he => ?_⟩
  · have hself : (s.setCore c (s.core c)).core c = s.core c := core_setCore_self ..
    obtain ⟨hstop, -, hmem, -⟩ := stopCore_stops (s := s.setCore c (s.core c)) (c := c) (e := 4) (q := h) (st := rejectS .msgDest) rfl
      (by rwa [hself])
    exact ⟨_, start_stops ho hc ((startEntry_send hop).trans (startSend_noDest hlen hd)), hstop.of_core hself, hmem⟩
  have hstart := (startEntry_send (s := s.setCore c (s.core c)) (c := c) (k := s.core c) hop).trans
    (startSend_tries hlen hrange hd hdest hr)
  -- The state in which the command tries: its core has been put back twice, unchanged.
  have hwork : ((s.setCore c (s.core c)).setCore c (s.core c)).out = s.out
      ∧ ((s.setCore c (s.core c)).setCore c (s.core c)).mem = s.mem
      ∧ ((s.setCore c (s.core c)).setCore c (s.core c)).helm = s.helm := ⟨rfl, rfl, rfl⟩
  have hothers : OtherCores c s ((s.setCore c (s.core c)).setCore c (s.core c)) := ((OtherCores.refl c s).setCore _).setCore _
  have hself : ((s.setCore c (s.core c)).setCore c (s.core c)).core c = s.core c := core_setCore_self ..
  generalize (s.setCore c (s.core c)).setCore c (s.core c) = T at hstart hwork hothers hself
  obtain ⟨hout, hmem, hhelm⟩ := hwork
  have heT : (T.core c).prodEnt dest q = some e := by rw [hself]; exact he
  obtain ⟨hedest, heq⟩ := prodEnt_key he
  refine ⟨fun hg hcr => ?_, fun hg => ?_, fun hg hcr => ?_⟩
  · have hsend := hstart.trans (sendTry_sends heT hg hcr)
    rw [hself] at hsend
    generalize hS : ((T.setCore c ((s.core c).withEnt _)).emit _).bump _ _ = S at hsend
    have hScore : S.core c = (s.core c).withEnt { e with credits := e.credits - itemWords len } := hS ▸ core_setCore_self ..
    have hSothers : OtherCores c s S := hS ▸ hothers.setCore _
    have hSout : S.out = T.out ++ [.item dest (sentItem (s.core c) c e src len tag)] := hS ▸ rfl
    have hSmem : S.mem = T.mem := hS ▸ rfl
    obtain ⟨hcore, hothers', hout', hmem'⟩ := headStarted_spec S c 4 { inFlight { h with stalled := none } [] [] with held := false, tries := 0 }
    rw [hScore] at hcore
    refine ⟨_, start_goes ho hc hsend, hout'.trans (hSout.trans (by rw [hout, sentItem, heq])), ?_, fun d' q' hne => ?_, ?_,
      hmem'.trans (hSmem.trans hmem), hSothers.trans hothers', ?_, ?_⟩
    · rw [hcore, ← hedest, ← heq]
      exact prodEnt_withEnt_self (s.core c) { e with credits := e.credits - words }
    · rw [hcore]
      exact prodEnt_withEnt_other (s.core c) (by rwa [hedest, heq])
    · rw [hcore]; rfl
    · rw [hcore]; rfl
    · rw [hcore]; rfl
  · obtain ⟨hstop, -, -, hpats, -⟩ := stopCore_stops (s := T) (c := c) (e := 4) (q := h) (st := rejectS .msgLength) rfl (by rwa [hself])
    exact ⟨_, start_stops ho hc (hstart.trans (sendTry_tooLong heT hg)), hstop.of_core hself,
      hpats.trans (congrArg HelmSt.pats hhelm)⟩
  · have hhold := hstart.trans (sendTry_holds heT hg hcr)
    rw [hself] at hhold
    obtain ⟨hcore, hothers', hout', hmem'⟩ := headStarted_spec (T.setCore c ((s.core c).withEnt e)) c 4
      { inFlight { h with stalled := none } [] [] with held := true, tries := 0 }
    rw [core_setCore_self] at hcore
    refine ⟨_, start_goes ho hc hhold, hout'.trans hout, hmem'.trans hmem, (hothers.setCore _).trans hothers', ?_, ?_⟩
    · rw [hcore, headGone_prog _ (by exact hq)]
      rfl
    · rw [hcore, ← hedest, ← heq]
      exact prodEnt_withEnt_self (s.core c) e

end Sys2Proof.Machine

/-! ### Arrivals at the Message Unit, and RECV (R264 to R274) -/

namespace Sys2Proof.Machine

@[simp] theorem discardStale_work (s : State) (at_ c sender : Nat) (q : Fin 8) (epoch : BitVec 8) :
    (discardStale s at_ c sender q epoch).work = s.work := rfl

/-- A Message Unit without a command in progress has nothing to go on with. -/
theorem messageGoOn_idle {s : State} {c : Nat} (h : ((s.core c).queue 4).prog = []) : messageGoOn s c = s := by
  simp [messageGoOn, h]

theorem sendHeld_idle {s : State} {k : Core} {dest : Nat} {q : Fin 8} (h : (k.queue 4).prog = []) : sendHeld s k dest q = none := by
  simp [sendHeld, h]

/-! #### Connections (R268, R269) -/

/-- Credits returned to an entry join it. -/
theorem prodEnt_credited {k : Core} {dest : Nat} {q : Fin 8} {e : ProdEnt} (he : k.prodEnt dest q = some e) (n : Nat) :
    ({ k with prod := k.prod.map (fun x => if x.dest = dest ∧ x.q = q then { x with credits := x.credits + n } else x) } : Core).prodEnt
      dest q = some { e with credits := e.credits + n } := by
  have hkey := prodEnt_key he
  have hsame : ((fun x : ProdEnt => decide (x.dest = dest ∧ x.q = q)) ∘ fun x => if x.dest = dest ∧ x.q = q
      then { x with credits := x.credits + n } else x) = fun x => decide (x.dest = dest ∧ x.q = q) := by
    funext x
    dsimp only [Function.comp]
    split <;> rfl
  rw [Core.prodEnt, List.find?_map, hsame]
  rw [Core.prodEnt] at he
  rw [he, Option.map_some, if_pos hkey]

/-- Settles O24: each message of the credit protocol takes one branch of its command. -/
theorem connectionsGrantCreditsOnce : Obligations.ConnectionsGrantCreditsOnce := by
  intro s c n q ep hc k x give
  refine ⟨fun p => ⟨fun h0 => ?_, fun h0 hp => ?_, fun h0 hp => ?_, fun he => ?_, fun he => ?_, fun he => ?_⟩,
    fun hrun hprog dest => ⟨fun hn => ?_, ?_, fun hw => ?_, fun e he hep => ?_, fun he => ?_, ?_⟩⟩
  · change execConnect c q p none s = _
    rw [execConnect, onCore_ok _ _ _ hc]
    exact congrArg _ (if_pos h0)
  · change execConnect c q p none s = _
    rw [execConnect, onCore_ok _ _ _ hc]
    exact congrArg _ ((if_neg h0).trans (if_pos hp))
  · change execConnect c q p none s = _
    rw [execConnect, onCore_ok _ _ _ hc]
    exact congrArg _ ((if_neg h0).trans (if_neg (Nat.not_le.2 hp)))
  · refine ⟨(discardStale s c c p q ep).emit (.stale p c q), ?_, rfl, rfl⟩
    change execConnect c q p (some ep) s = _
    rw [execConnect, onCore_ok _ _ _ hc]
    exact congrArg _ (if_pos (decide_eq_true he))
  · change execDisconnect c q p ep n s = _
    rw [execDisconnect, onCore_ok _ _ _ hc]
    exact congrArg _ (if_neg (not_not.2 he))
  · refine ⟨(discardStale s c c p q ep).emit (.stale p c q), ?_, rfl, rfl⟩
    change execDisconnect c q p ep n s = _
    rw [execDisconnect, onCore_ok _ _ _ hc]
    exact congrArg _ (if_pos he)
  · let e : ProdEnt := { dest := dest, q := q, epoch := ep, credits := n, grant := n }
    have hidle : ((((s.setCore c (k.withEnt e)).bump (coreCtr c 0xB8) 1).core c).queue 4).prog = [] := by
      rw [work_core (bump_work ..), core_setCore_self]
      exact hprog
    refine ⟨(s.setCore c (k.withEnt e)).bump (coreCtr c 0xB8) 1, ?_, ?_, fun d' q' hne => ?_, rfl,
      (OtherCores.refl c s).setCore _⟩
    · change execConnectReply c dest q (some n) ep s = _
      rw [execConnectReply, onCore_ok _ _ _ hc]
      cases n with
      | zero => exact absurd hn (by decide)
      | succ m => exact congrArg _ (messageGoOn_idle hidle)
    · rw [work_core (bump_work ..), core_setCore_self]
      exact prodEnt_withEnt_self k e
    · rw [work_core (bump_work ..), core_setCore_self]
      exact prodEnt_withEnt_other k hne
  · change execConnectReply c dest q none ep s = _
    exact onCore_ok _ _ _ hc
  · have hw' : (s.core c).connWait = some (dest, q) := hw
    change execConnectRetry c s = _
    rw [execConnectRetry, onCore_ok _ _ _ hc]
    have hsend : sendHeld s (s.core c) dest q = none := sendHeld_idle hprog
    simp only [hw', hsend, Option.isSome_none, Bool.false_and, Bool.false_eq_true, if_false]
    rfl
  · have he' : (s.core c).prodEnt dest q = some e := he
    refine ⟨s.setCore c { k with prod := k.prod.map (fun x => if x.dest = dest ∧ x.q = q then { x with credits := x.credits + n } else x) },
      ?_, ?_, rfl, (OtherCores.refl c s).setCore _⟩
    · change execCreditReturn c dest q ep n s = _
      rw [execCreditReturn, onCore_ok _ _ _ hc]
      simp only [he', hep, ne_eq, not_true, if_false]
      exact congrArg _ (messageGoOn_idle (by rw [core_setCore_self]; exact hprog))
    · rw [core_setCore_self]
      exact prodEnt_credited he n
  · have he' : (s.core c).prodEnt dest q = none := he
    change execCreditReturn c dest q ep n s = _
    rw [execCreditReturn, onCore_ok _ _ _ hc]
    simp only [he']
  · refine ⟨s.setCore c { k with prod := dropEnt k.prod dest q }, ?_, ?_, fun d' q' hne => ?_, rfl, (OtherCores.refl c s).setCore _⟩
    · change execStale c dest q s = _
      rw [execStale, onCore_ok _ _ _ hc]
      exact congrArg _ (messageGoOn_idle (by rw [core_setCore_self]; exact hprog))
    · rw [core_setCore_self]
      exact find_dropEnt_none ..
    · rw [core_setCore_self]
      exact find_dropEnt_other _ hne

/-! #### Items that arrive (R265, R271, R272) -/

theorem words_append (x : RecvQ) (i : Item) : ({ x with items := x.items ++ [i] } : RecvQ).words = x.words + itemWords i.len := by
  simp [RecvQ.words]

/-- The queue with an item at its tail, both copies of the tail pointer moved on. -/
def RecvQ.taking (x : RecvQ) (i : Item) : RecvQ := { x with items := x.items ++ [i] }.advance 0 (itemWords i.len)

theorem taking_words (x : RecvQ) (i : Item) : (x.taking i).words = x.words + itemWords i.len := words_append x i

theorem taking_ptr {x : RecvQ} (h : x.ptr = x.ptr2) (i : Item) : (x.taking i).ptr = (x.taking i).ptr2 := by
  simp [RecvQ.taking, RecvQ.advance, h]

/-- Words written to a spill region change memory only. -/
theorem spillPut_frame (s : State) (f : Nat) (x : RecvQ) (a b : Nat) :
    (spillPut s f x a b).cores = s.cores ∧ (spillPut s f x a b).out = s.out ∧ (spillPut s f x a b).helm = s.helm := by
  refine ⟨foldl_field State.cores _ ?_ _ s, foldl_field State.out _ ?_ _ s, foldl_field State.helm _ ?_ _ s⟩ <;> exact fun _ _ => rfl

/-- Where the spill region can be reached, the words of an arrival that leave the tail registers change memory only. -/
theorem spillItem_frame {s : State} {c : Nat} {q : Fin 8} (n : Nat)
    (h : ∀ f, spillOf s c q = some f → s.lostAt (frameAddr f) = false) :
    (spillItem s c q n).cores = s.cores ∧ (spillItem s c q n).out = s.out ∧ (spillItem s c q n).helm = s.helm := by
  unfold spillItem
  dsimp only
  split
  · exact ⟨rfl, rfl, rfl⟩
  split
  · exact ⟨rfl, rfl, rfl⟩
  next f hf =>
    rw [h f hf]
    exact spillPut_frame ..

theorem spillItem_short {s : State} {c : Nat} {q : Fin 8} {n : Nat} (h : ((s.core c).recvq q).words ≤ 8) : spillItem s c q n = s := by
  have h0 : spillWords ((s.core c).recvq q).words = 0 := Nat.sub_eq_zero_of_le h
  simp [spillItem, h0]

section
variable {s : State} {c : Nat} {q : Fin 8} {i : Item}

/-- Does an item that arrives reach the queue's threshold (R272)? -/
def RecvQ.hits (x : RecvQ) (i : Item) : Bool := x.armed && decide (x.thresh ≠ 0) && decide (x.thresh ≤ (x.taking i).words)

/-- The core after an item has joined its queue. -/
def Core.taking (k : Core) (q : Fin 8) (i : Item) : Core :=
  k.setRecvq q { (k.recvq q).taking i with armed := (k.recvq q).armed && !(k.recvq q).hits i }

theorem taking_recvq (k : Core) (q : Fin 8) (i : Item) :
    (k.taking q i).recvq q = { (k.recvq q).taking i with armed := (k.recvq q).armed && !(k.recvq q).hits i } :=
  recvq_setRecvq_self ..

theorem recvq_setSem (k : Core) (n : Fin 64) (v : Nat) (q : Fin 8) : (k.setSem n v).recvq q = k.recvq q := rfl

/-- The state after an item has joined its queue, its spilled words included, before a threshold's signal. -/
def itemJoined (s : State) (c : Nat) (q : Fin 8) (i : Item) : State :=
  spillItem ((s.setCore c ((s.core c).taking q i)).bump (coreCtr c 0xB0)
    (spillWords (((s.core c).recvq q).taking i).words - spillWords ((s.core c).recvq q).words)) c q ((s.core c).recvq q).words

theorem takeItem_eq : takeItem s c q i =
    if ((s.core c).recvq q).hits i = true ∧ ((itemJoined s c q i).core c).st ≠ .stopped then
      raiseSem (itemJoined s c q i) c 5 ((s.core c).recvq q).tsem 1 (s.core c).pos (s.core c).wordAt
    else itemJoined s c q i := rfl

theorem spillOf_congr {s t : State} {c : Nat} {q : Fin 8} (hhelm : t.helm = s.helm) (hpat : (t.core c).pat = (s.core c).pat) :
    spillOf t c q = spillOf s c q := by
  rw [spillOf, spillOf, State.corePat, State.corePat, hpat]
  simp only [State.pat, hhelm]

theorem lostAt_congr {s t : State} (hhelm : t.helm = s.helm) (a : Nat) : t.lostAt a = s.lostAt a := by
  rw [State.lostAt, State.lostAt, hhelm]

theorem itemJoined_frame (i : Item) (hspill : ∀ f, spillOf s c q = some f → s.lostAt (frameAddr f) = false) :
    (itemJoined s c q i).core c = (s.core c).taking q i ∧ OtherCores c s (itemJoined s c q i) ∧ (itemJoined s c q i).out = s.out
      ∧ (itemJoined s c q i).helm = s.helm := by
  rw [itemJoined]
  generalize hS : (s.setCore c ((s.core c).taking q i)).bump _ _ = S
  have hcore : S.core c = (s.core c).taking q i := hS ▸ core_setCore_self ..
  have hhelm : S.helm = s.helm := hS ▸ rfl
  obtain ⟨hcores, hout, hhelm'⟩ := spillItem_frame (s := S) (c := c) (q := q) ((s.core c).recvq q).words fun f hf => by
    rw [lostAt_congr hhelm]
    exact hspill f (by rwa [spillOf_congr hhelm (by rw [hcore]; rfl)] at hf)
  have hview (d : Nat) : (spillItem S c q ((s.core c).recvq q).words).core d = S.core d := by rw [State.core, hcores]; rfl
  exact ⟨(hview c).trans hcore, fun d hd => (hview d).trans (hS ▸ core_setCore_ne s hd _), hout.trans (hS ▸ rfl), hhelm'.trans hhelm⟩

theorem itemJoined_mem {i : Item} (h : (((s.core c).recvq q).taking i).words ≤ 8) : (itemJoined s c q i).mem = s.mem := by
  rw [itemJoined, spillItem_short]
  · rfl
  · rw [work_core (bump_work ..), core_setCore_self, Core.taking, recvq_setRecvq_self]
    exact h

/-- An item below the threshold joins its queue and does no more. -/
theorem takeItem_below (hh : ((s.core c).recvq q).hits i = false) : takeItem s c q i = itemJoined s c q i := by
  rw [takeItem_eq, hh]
  simp

/-- At the threshold the semaphore rises by one. -/
theorem takeItem_hits (hspill : ∀ f, spillOf s c q = some f → s.lostAt (frameAddr f) = false)
    (hh : ((s.core c).recvq q).hits i = true) (hrun : (s.core c).st = .running)
    (hsem : (s.core c).sem ((s.core c).recvq q).tsem < 65535) :
    takeItem s c q i = (itemJoined s c q i).setCore c (((s.core c).taking q i).setSem ((s.core c).recvq q).tsem
      ((s.core c).sem ((s.core c).recvq q).tsem + 1)) := by
  obtain ⟨hcore, -, -, -⟩ := itemJoined_frame i hspill
  have hst : ((itemJoined s c q i).core c).st ≠ .stopped := by
    rw [hcore]
    exact hrun ▸ by decide
  rw [takeItem_eq, if_pos ⟨hh, hst⟩, raiseSem_fits _ _ _ _ _ _ _ (by rw [hcore]; exact hsem), hcore]
  rfl

end

/-- Of a sound queue's own epoch an item is taken. -/
theorem exec_itemArrival {s : State} {c : Nat} {i : Item} {q : Fin 8} (hc : c < Config.nCores) (hq : q.val = i.dq % 8)
    (hptr : ((s.core c).recvq q).ptr = ((s.core c).recvq q).ptr2) (hdepth : ((s.core c).recvq q).depth ≠ 0)
    (hepoch : i.epoch = ((s.core c).recvq q).epoch) : exec (.itemArrival c i true) s = .next (messageGoOn (takeItem s c q i) c) := by
  obtain rfl : q = ⟨i.dq % 8, Nat.mod_lt _ (by decide)⟩ := Fin.ext hq
  have hsound : ¬ (true = false ∨ ((s.core c).recvq ⟨i.dq % 8, Nat.mod_lt _ (by decide)⟩).ptrOk = false) := by
    simp [RecvQ.ptrOk, hptr]
  have hown : ¬ (((s.core c).recvq ⟨i.dq % 8, Nat.mod_lt _ (by decide)⟩).depth = 0
      ∨ i.epoch ≠ ((s.core c).recvq ⟨i.dq % 8, Nat.mod_lt _ (by decide)⟩).epoch) := by
    simp [hdepth, hepoch]
  change execItemArrival c i true s = _
  rw [execItemArrival, onCore_ok _ _ _ hc]
  exact congrArg _ ((if_neg hsound).trans (if_neg hown))

/-! #### Pointer copies that disagree (R273) -/

/-- The stored items of a queue are told off one by one; cores and memory stay. -/
theorem discardStored_frame (s : State) (c : Nat) (q : Fin 8) :
    (discardStored s c q).cores = s.cores ∧ (discardStored s c q).mem = s.mem := by
  refine ⟨foldl_field State.cores _ ?_ _ s, foldl_field State.mem _ ?_ _ s⟩ <;> exact fun _ _ => rfl

theorem resetQueue_frame (s : State) (c : Nat) (q : Fin 8) :
    (resetQueue s c q).core c = (s.core c).setRecvq q ((s.core c).recvq q).newEpoch ∧ OtherCores c s (resetQueue s c q)
      ∧ (resetQueue s c q).mem = s.mem := by
  have hview (d : Nat) : (discardStored s c q).core d = s.core d := by rw [State.core, (discardStored_frame s c q).1]; rfl
  refine ⟨?_, fun d hd => (core_setCore_ne _ hd _).trans (hview d), (discardStored_frame s c q).2⟩
  rw [resetQueue, core_setCore_self, hview]

theorem Stopped.of_regs {s s' t : State} {c eng pos : Nat} {kind : Kind} {code : Code} (h : Stopped s' t c eng kind code pos)
    (hr : (s'.core c).regs = (s.core c).regs) (hs : (s'.core c).sems = (s.core c).sems) : Stopped s t c eng kind code pos := by
  rwa [Stopped, hr, hs] at h

theorem queuePtr_spec {s : State} {c : Nat} {q : Fin 8} (hrun : (s.core c).st ≠ .stopped) :
    Stopped s (queuePtr s c q) c 5 .faulted .queuePtr (s.core c).pos
      ∧ ((queuePtr s c q).core c).recvq q = ((s.core c).recvq q).newEpoch := by
  obtain ⟨hcore, -, -⟩ := resetQueue_frame s c q
  rw [queuePtr]
  generalize resetQueue s c q = t at hcore
  have hst : (t.core c).st ≠ .stopped := by rwa [hcore]
  have hstop := (cmdFault_stops t c 5 .faulted .queuePtr (t.core c).pos (t.core c).wordAt hst).1
  have hk := coreFault_core t c 5 .faulted .queuePtr (t.core c).pos (t.core c).wordAt
    (coreDetail (t.core c).wordAt (t.core c).pos 0xFF 0xFF 0 0) hst
  have hpos : (t.core c).pos = (s.core c).pos := by rw [hcore]; rfl
  have hregs : (t.core c).regs = (s.core c).regs := by rw [hcore]; rfl
  have hsems : (t.core c).sems = (s.core c).sems := by rw [hcore]; rfl
  rw [← hpos]
  refine ⟨hstop.of_regs hregs hsems, ?_⟩
  change ((coreFault t c 5 .faulted .queuePtr (t.core c).pos (t.core c).wordAt _).core c).recvq q = _
  rw [hk, hcore]
  exact recvq_setRecvq_self ..

/-- Settles O22: an arrival joins its queue, is stale, or finds the queue's pointers in disagreement. -/
theorem itemsArriveOrAreTurnedAway : Obligations.ItemsArriveOrAreTurnedAway := by
  intro s c i hc k q x hrun hprog w
  refine ⟨fun hdepth hepoch hthresh hptr hspill => ?_, fun hptr h => ?_, fun b hb => ?_⟩
  · have hbelow : ((s.core c).recvq q).hits i = false := by
      have h0 : ((s.core c).recvq q).thresh = 0 := hthresh
      simp [RecvQ.hits, h0]
    obtain ⟨hcore, hothers, hout, -⟩ := itemJoined_frame i hspill
    refine ⟨itemJoined s c q i, ?_, ?_, hothers, hout, fun hw => ?_⟩
    · rw [exec_itemArrival hc rfl hptr hdepth hepoch, takeItem_below hbelow, messageGoOn_idle]
      rw [hcore]
      exact hprog
    · rw [hcore, Core.taking, hbelow, Bool.not_false, Bool.and_true]
      rfl
    · exact itemJoined_mem (by rw [taking_words]; exact hw)
  · have hsound : ¬ (true = false ∨ ((s.core c).recvq q).ptrOk = false) := by
      have hptr' : ((s.core c).recvq q).ptr = ((s.core c).recvq q).ptr2 := hptr
      simp [RecvQ.ptrOk, hptr']
    refine ⟨(discardStale s c c i.src q i.epoch).emit (.stale i.src c q), ?_, rfl, rfl, rfl⟩
    change execItemArrival c i true s = _
    rw [execItemArrival, onCore_ok _ _ _ hc]
    exact congrArg _ ((if_neg hsound).trans (if_pos h))
  · have hbad : b = false ∨ ((s.core c).recvq q).ptrOk = false := hb.imp_right decide_eq_false
    obtain ⟨hstop, hq⟩ := queuePtr_spec (c := c) (q := q) (s := s) (by rw [hrun]; decide)
    refine ⟨queuePtr s c q, ?_, hstop, ?_⟩
    · change execItemArrival c i b s = _
      rw [execItemArrival, onCore_ok _ _ _ hc]
      exact congrArg _ (if_pos hbad)
    · rw [hq]
      exact ⟨rfl, rfl, rfl⟩

/-- Settles O23: the first item finds the queue armed and disarms it, so that the second raises nothing. -/
theorem thresholdRaisesItsSemaphoreOnce : Obligations.ThresholdRaisesItsSemaphoreOnce := by
  intro s c i j hc hij k q x hrun hprog hdepth hi hj harmed hthresh hptr hspill hreach hsem
  have hhit : ((s.core c).recvq q).hits i = true := by
    rw [RecvQ.hits, show ((s.core c).recvq q).armed = true from harmed, taking_words, ← words_append]
    simp only [Bool.true_and, Bool.and_eq_true, decide_eq_true_eq]
    exact ⟨hthresh, hreach⟩
  obtain ⟨hcore, -, -, hhelm⟩ := itemJoined_frame i hspill
  generalize ht : takeItem s c q i = t
  have htake := (takeItem_hits hspill hhit hrun hsem).symm.trans ht
  have hcoreT : t.core c = (k.taking q i).setSem x.tsem (k.sem x.tsem + 1) := by rw [← htake, core_setCore_self]
  have hhelmT : t.helm = s.helm := by rw [← htake]; simp only [setCore_frame, hhelm]
  have hqueueT : (t.core c).recvq q = { x.taking i with armed := false } := by
    rw [hcoreT, recvq_setSem, taking_recvq, hhit, Bool.not_true, Bool.and_false]
  have hprogT : ((t.core c).queue 4).prog = [] := by rw [hcoreT]; exact hprog
  refine ⟨t, by rw [exec_itemArrival hc rfl hptr hdepth hi, ht, messageGoOn_idle hprogT], ?_, fun n hn => ?_, ?_⟩
  · rw [hcoreT, sem_setSem_self]
    exact Nat.mod_eq_of_lt (by omega)
  · rw [hcoreT]
    exact sem_setSem_ne _ hn _
  have hbelow : ((t.core c).recvq q).hits j = false := by rw [hqueueT]; rfl
  obtain ⟨hcoreU, -, -, -⟩ := itemJoined_frame (s := t) (c := c) (q := q) j fun f hf => by
    rw [lostAt_congr hhelmT]
    exact hspill f (by rwa [spillOf_congr hhelmT (by rw [hcoreT]; rfl)] at hf)
  refine ⟨itemJoined t c q j, ?_, ?_, ?_⟩
  · rw [exec_itemArrival (q := q) hc (by rw [← hij]) (by rw [hqueueT]; exact taking_ptr hptr i) (by rw [hqueueT]; exact hdepth) (by rw [hqueueT]; exact hj),
      takeItem_below hbelow, messageGoOn_idle (by rw [hcoreU]; exact hprogT)]
  · rw [hcoreU]; rfl
  · rw [hcoreU]
    rw [taking_recvq, hqueueT]
    exact List.append_assoc x.items [i] [j]

end Sys2Proof.Machine

/-! ### RECV (R80, R270, R271) -/

namespace Sys2Proof.Machine

theorem startEntry_recv {s : State} {c : Nat} {k : Core} {h : QEntry} {q : Fin 8} {blk : Bool} {dsts maxlen : Nat} {lreg : Option Reg}
    (hop : h.op = .recv q blk dsts maxlen lreg) : startEntry s c k { h with stalled := none }
      = startRecv s c k { h with stalled := none } q blk dsts maxlen lreg := by
  simp only [startEntry, hop, startMessage]

section
variable {s : State} {c dsts maxlen : Nat} {q : Fin 8} {blk : Bool} {lreg : Option Reg} {fl : InFlight}

/-- With its destination in range and no rings a RECV makes its first try. -/
theorem startRecv_tries {k : Core} {h : QEntry} (hrange : dsts * 64 + (64 + (maxlen + 63) / 64 * 64) ≤ 0x2F0000)
    (hr : k.rings = []) :
    startRecv s c k h q blk dsts maxlen lreg = recvTry (s.setCore c k) c (inFlight h [] []) q blk dsts maxlen lreg := by
  have hrange' : ¬ Config.scratchTop < dsts * 64 + (64 + ceilDiv maxlen 64 * 64) := Nat.not_lt.2 hrange
  have hrings : ringsOf 5 true [] [[(dsts * 64, 64 + ceilDiv maxlen 64 * 64)]] = .ok [] := rfl
  have hk : ({ k with rings := slotsStart [] [] [] } : Core) = k := by rw [← hr]; rfl
  have hblock : slotBlocked [] [] [] = none := rfl
  simp only [startRecv, hrange', if_false, hr, hrings, hblock, hk]

theorem recvTry_broken (hp : ((s.core c).recvq q).ptr ≠ ((s.core c).recvq q).ptr2) :
    recvTry s c fl q blk dsts maxlen lreg = .stop (resetQueue s c q) (faultS .queuePtr) := by
  simp [recvTry, RecvQ.ptrOk, hp]

variable (hp : ((s.core c).recvq q).ptr = ((s.core c).recvq q).ptr2)
include hp

theorem recvTry_idle (hi : ((s.core c).recvq q).items = []) : recvTry s c fl q false dsts maxlen lreg
    = .go (s.setCore c { s.core c with scratch := wrBytes (s.core c).scratch (dsts * 64) idleBytes })
      { fl with held := false, result := lreg.map (fun r => (r, BitVec.allOnes 64)) } := by
  simp [recvTry, RecvQ.ptrOk, hp, hi]

theorem recvTry_waits (hi : ((s.core c).recvq q).items = []) :
    recvTry s c fl q true dsts maxlen lreg = .go s { fl with held := true } := by
  simp [recvTry, RecvQ.ptrOk, hp, hi]

variable {i : Item} {rest : List Item} (hi : ((s.core c).recvq q).items = i :: rest)
include hi

theorem recvTry_tooLong (hl : maxlen < i.len) : recvTry s c fl q blk dsts maxlen lreg = .stop s (faultS .msgTrunc) := by
  simp [recvTry, RecvQ.ptrOk, hp, hi, hl]

/-- The queue after its oldest item has been taken. -/
def RecvQ.taken (x : RecvQ) (rest : List Item) (w : Nat) : RecvQ :=
  let x' := { x with items := rest }.advance w 0
  { x' with armed := x'.armed || decide (x'.words < x'.thresh) }

/-- The core after a RECV has taken the oldest item of a queue. -/
def Core.received (k : Core) (q : Fin 8) (dsts src : Nat) (i : Item) (rest : List Item) : Core :=
  { k.setRecvq q ((k.recvq q).taken rest (itemWords i.len)) with scratch := wrBytes k.scratch (dsts * 64) (itemBytes src i) }

theorem recvTry_takes (hl : i.len ≤ maxlen)
    (hspill : spillLost s c q (min (itemWords i.len) (spillWords ((s.core c).recvq q).words)) = none) :
    recvTry s c fl q blk dsts maxlen lreg
      = .go ((giveBack (s.setCore c ((s.core c).received q dsts
          (((s.corePat (s.core c)).bind (fun p => p.coordOf i.src)).getD i.src) i rest)) c q i.src (itemWords i.len)).bump (coreCtr c 0xA8) 1)
        { fl with held := false, result := lreg.map (fun r => (r, BitVec.ofNat 64 i.len)) } := by
  have hptr : ((s.core c).recvq q).ptrOk = true := decide_eq_true hp
  simp only [recvTry, hptr, Bool.true_eq_false, if_false, hi, Nat.not_lt.2 hl, hspill]
  rfl

end

/-- The core after it has returned credits: at most the queue's return list has changed. -/
def Core.ReturnedFrom (k' k : Core) (q : Fin 8) : Prop :=
  k'.scratch = k.scratch ∧ k'.regs = k.regs ∧ k'.queues = k.queues ∧ (k'.recvq q).items = (k.recvq q).items

theorem Core.ReturnedFrom.setRecvq (k : Core) (q : Fin 8) (r : List (Nat × Nat)) :
    (k.setRecvq q { k.recvq q with ret := r }).ReturnedFrom k q :=
  ⟨rfl, rfl, rfl, by rw [recvq_setRecvq_self]⟩

/-- Returned credits leave the other cores and memory; on a CMODE 0 queue they are one message. -/
theorem giveBack_frame (s : State) (c : Nat) (q : Fin 8) (src w : Nat) :
    ((giveBack s c q src w).core c).ReturnedFrom (s.core c) q
      ∧ OtherCores c s (giveBack s c q src w) ∧ (giveBack s c q src w).mem = s.mem
      ∧ (((s.core c).recvq q).cmode = false →
        (giveBack s c q src w).out = s.out ++ [.creditReturn src c q ((s.core c).recvq q).epoch w]) := by
  have hset (r : List (Nat × Nat)) :
      ((s.setCore c ((s.core c).setRecvq q { (s.core c).recvq q with ret := r })).core c).ReturnedFrom (s.core c) q := by
    rw [core_setCore_self]
    exact .setRecvq ..
  by_cases hm : ((s.core c).recvq q).cmode = false
  · have heq : giveBack s c q src w = s.emit (.creditReturn src c q ((s.core c).recvq q).epoch w) := if_pos hm
    rw [heq]
    exact ⟨⟨rfl, rfl, rfl, rfl⟩, .refl c s, rfl, fun _ => rfl⟩
  refine and_assoc.1 (and_assoc.1 ⟨?_, fun h => absurd h hm⟩)
  rw [giveBack, if_neg hm]
  split
  · exact ⟨⟨hset _, (OtherCores.refl c s).setCore _⟩, rfl⟩
  split
  · exact ⟨⟨⟨rfl, rfl, rfl, rfl⟩, .refl c s⟩, rfl⟩
  · exact ⟨⟨hset _, (OtherCores.refl c s).setCore _⟩, rfl⟩

theorem spillLost_congr {s t : State} {c : Nat} {q : Fin 8} (hhelm : t.helm = s.helm) (hpat : (t.core c).pat = (s.core c).pat)
    (n : Nat) : spillLost t c q n = spillLost s c q n := by
  simp only [spillLost, spillOf_congr hhelm hpat, lostAt_congr hhelm]

theorem corePat_congr {s t : State} (hhelm : t.helm = s.helm) (k : Core) : t.corePat k = s.corePat k := by
  simp only [State.corePat, State.pat, hhelm]

/-- Settles O21: one lemma for each end of a RECV's first try. -/
theorem recvTakesTheOldestItem : Obligations.RecvTakesTheOldestItem := by
  intro s c dsts maxlen q blk lreg h hc k x ho hop hrange
  obtain ⟨hrun, -, -, hq, -, hr⟩ := Core.onlyHead_iff.1 ho
  have hst : (s.core c).st ≠ .stopped := by rw [hrun]; decide
  have hstart := (startEntry_recv (s := s.setCore c (s.core c)) (c := c) (k := s.core c) hop).trans (startRecv_tries hrange hr)
  -- The state in which the command tries: its core has been put back twice, unchanged.
  have hwork : ((s.setCore c (s.core c)).setCore c (s.core c)).out = s.out
      ∧ ((s.setCore c (s.core c)).setCore c (s.core c)).mem = s.mem
      ∧ ((s.setCore c (s.core c)).setCore c (s.core c)).helm = s.helm := ⟨rfl, rfl, rfl⟩
  have hothers : OtherCores c s ((s.setCore c (s.core c)).setCore c (s.core c)) := ((OtherCores.refl c s).setCore _).setCore _
  have hself : ((s.setCore c (s.core c)).setCore c (s.core c)).core c = s.core c := core_setCore_self ..
  generalize (s.setCore c (s.core c)).setCore c (s.core c) = T at hstart hwork hothers hself
  obtain ⟨hout, hmem, hhelm⟩ := hwork
  have hx : (T.core c).recvq q = x := by rw [hself]
  refine ⟨fun hp => ?_, fun hp => ?_⟩
  · obtain ⟨hcore, -, -⟩ := resetQueue_frame T c q
    have hbroken := hstart.trans (recvTry_broken (by rw [hx]; exact hp))
    generalize resetQueue T c q = R at hcore hbroken
    rw [hself] at hcore
    obtain ⟨hstop, -, -, -, f, hk⟩ := stopCore_stops (s := R) (c := c) (e := 4) (q := h) (st := faultS .queuePtr) rfl (by rwa [hcore])
    have hrecvq : ((stopCore R c 4 h (faultS .queuePtr)).core c).recvq q = x.newEpoch := by
      rw [hk, hcore]
      exact recvq_setRecvq_self ..
    refine ⟨_, start_stops ho hc hbroken, hstop.of_regs (by rw [hcore]; rfl) (by rw [hcore]; rfl), ?_, ?_, ?_⟩ <;> rw [hrecvq] <;> rfl
  have hpT : ((T.core c).recvq q).ptr = ((T.core c).recvq q).ptr2 := by rw [hx]; exact hp
  refine ⟨fun i rest hi hl hspill => ?_, fun i rest hi hl => ?_, fun hi => ⟨fun hb => ?_, fun hb => ?_⟩⟩
  · have htake := hstart.trans (recvTry_takes hpT (by rw [hx]; exact hi) hl (by
      rw [spillLost_congr hhelm (by rw [hself]), hx]
      exact hspill))
    rw [hself, corePat_congr hhelm] at htake
    change _ = StartOut.go ((giveBack (T.setCore c ((s.core c).received q dsts (((s.corePat k).bind fun p => p.coordOf i.src).getD i.src)
      i rest)) c q i.src (itemWords i.len)).bump _ _) _ at htake
    generalize ((s.corePat k).bind fun p => p.coordOf i.src).getD i.src = src at htake ⊢
    have hback := giveBack_frame (T.setCore c ((s.core c).received q dsts src i rest)) c q i.src (itemWords i.len)
    rw [core_setCore_self] at hback
    have hrecv : ((s.core c).received q dsts src i rest).recvq q = x.taken rest (itemWords i.len) := recvq_setRecvq_self ..
    generalize giveBack _ _ _ _ _ = B at htake hback
    obtain ⟨⟨hscratch, hregs, hqueues, hitems⟩, hothersB, hmemB, houtB⟩ := hback
    rw [hrecv] at hitems houtB
    obtain ⟨hcore, hothers', hout', hmem'⟩ := headStarted_spec (B.bump (coreCtr c 0xA8) 1) c 4
      { inFlight { h with stalled := none } [] [] with held := false, result := lreg.map (fun r => (r, BitVec.ofNat 64 i.len)) }
    have hscr : (B.core c).scratch = wrBytes k.scratch (dsts * 64) (itemBytes src i) := hscratch
    refine ⟨_, start_goes ho hc htake, ?_, ?_, fun a ha => ?_, ?_, fun hm => ?_, hmem'.trans (hmemB.trans hmem),
      ((hothers.setCore _).trans hothersB).trans hothers', ?_⟩
    · rw [hcore]
      exact hitems
    · rw [hcore]
      exact hscr
    · rw [hcore]
      exact (congrArg (rdByte · a) hscr).trans (rdByte_wrBytes_out _ _ _ _ ha)
    · have hqB : (B.core c).queue 4 = { issue := [h], prog := [] } := by
        rw [Core.queue, hqueues]
        exact hq
      rw [hcore, headGone_prog _ (by exact hqB)]
      rfl
    · refine hout'.trans ((houtB hm).trans ?_)
      exact congrArg (· ++ _) hout
    · rw [hcore]
      exact hregs
  · obtain ⟨hstop, -, -, -, f, hk⟩ := stopCore_stops (s := T) (c := c) (e := 4) (q := h) (st := faultS .msgTrunc) rfl (by rwa [hself])
    refine ⟨_, start_stops ho hc (hstart.trans (recvTry_tooLong hpT (by rw [hx]; exact hi) hl)), hstop.of_core hself, ?_, ?_⟩
    · rw [hk, hself]
      rfl
    · rw [hk, hself]
      rfl
  · subst hb
    have hidle := hstart.trans (recvTry_idle hpT (by rw [hx]; exact hi))
    rw [hself] at hidle
    have hbytes : List.replicate 64 (0xFF : Byte) = idleBytes := rfl
    rw [hbytes]
    generalize idleBytes = bytes at hidle ⊢
    obtain ⟨hcore, -, hout', hmem'⟩ := headStarted_spec
      (T.setCore c { s.core c with scratch := wrBytes (s.core c).scratch (dsts * 64) bytes }) c 4
      { inFlight { h with stalled := none } [] [] with held := false, result := lreg.map (fun r => (r, BitVec.allOnes 64)) }
    rw [core_setCore_self] at hcore
    refine ⟨_, start_goes ho hc hidle, ?_, ?_, hout'.trans hout, hmem'.trans hmem⟩
    · rw [hcore]
      rfl
    · rw [hcore, headGone_prog _ (by exact hq)]
      rfl
  · subst hb
    have hwait := hstart.trans (recvTry_waits hpT (by rw [hx]; exact hi))
    obtain ⟨hcore, -, hout', hmem'⟩ := headStarted_spec T c 4 { inFlight { h with stalled := none } [] [] with held := true }
    rw [hself] at hcore
    refine ⟨_, start_goes ho hc hwait, ?_, ?_, hout'.trans hout, hmem'.trans hmem⟩
    · rw [hcore]
      rfl
    · rw [hcore, headGone_prog _ hq]
      rfl

end Sys2Proof.Machine

/-! ### The reset state, and the management buses (R511 to R515) -/

namespace Sys2Proof.Machine

/-- After reset no core is listed, so each is as after reset. -/
theorem core_reset (c : Nat) : State.reset.core c = Core.init := rfl

/-- Settles O59, by evaluation of the reset state. -/
theorem resetStateHoldsTheResetValues : Obligations.ResetStateHoldsTheResetValues := by
  refine ⟨rfl, fun _ => rfl, fun e he => absurd he List.not_mem_nil, fun c => ?_, rfl, rfl, fun _ => rfl, rfl, rfl, rfl, rfl,
    fun l => ?_, fun p => ?_, rfl, rfl, rfl, rfl, rfl, rfl, rfl, rfl, rfl⟩
  · rw [core_reset]
    refine ⟨rfl, fun i => ?_, rfl, fun e => ?_⟩
    · simp [Core.sem, Core.init]
    · exact Vector.get_replicate ..
  · exact congrArg Link.st (Vector.get_replicate ..)
  · exact congrArg EthPort.up (Vector.get_replicate ..)

/-! #### The management SMBus (R511) -/

section
variable {s : State} (v : Nat)

theorem smbRead_before (h : s.start.stage = 0 ∨ s.power.rails = false) :
    smbRead s v = .next (s.emit (.smbus [0, 0, 0, 0])) := congrArg Host.Outcome.next (if_pos h)

theorem smbRead_serves (hs : s.start.stage ≠ 0) (hr : s.power.rails = true) (ha : s.lode.activeOk = true) :
    smbRead s v = .next (s.emit (.smbus (toBytes 4 v))) := by
  simp [smbRead, hs, hr, ha]

end

/-! #### The test port (R515) -/

theorem tapUp_of {s : State} (hr : s.power.rails = true) (ha : s.lode.activeOk = true) : s.tapUp = true := by
  simp [State.tapUp, hr, ha]

/-- Settles O57: each command is its own answer; the SMBus reads and the test port first look at rails and Lodestar. -/
theorem managementBusesAnswer : Obligations.ManagementBusesAnswer := by
  intro s
  refine ⟨fun h => smbRead_before _ h, fun hs hr ha => ?_, rfl, ⟨_, rfl, rfl, rfl, rfl, rfl, rfl, rfl, rfl, rfl⟩, rfl, rfl, rfl, rfl,
    rfl, rfl, rfl, rfl, ⟨_, rfl⟩, rfl, rfl, rfl, ⟨_, rfl⟩, rfl, rfl, rfl, rfl, rfl, rfl, fun h => ?_, fun h => ?_, fun hr ha => ?_, rfl⟩
  · have h (v : Nat) := smbRead_serves v hs hr ha
    exact ⟨h 0x4C4D9032, h _, h _, h _, h _, h _, h _⟩
  · exact congrArg Host.Outcome.next (if_pos h)
  · exact congrArg Host.Outcome.next (if_neg (by simp [h]))
  · have h := tapUp_of hr ha
    refine ⟨congrArg Host.Outcome.next (if_pos h), congrArg Host.Outcome.next (if_pos h), fun c => congrArg Host.Outcome.next (if_pos h),
      ⟨_, congrArg Host.Outcome.next (if_pos h)⟩, congrArg Host.Outcome.next ((if_pos h).trans ?_)⟩
    by_cases h8 : s.start.stage = 8 <;> simp [h8, tapTake]

end Sys2Proof.Machine

/-! ### Power, temperature, and the device's resets (R427 to R432, R444, R495 to R506) -/

namespace Sys2Proof.Machine

/-! #### Interrupts change the interrupt words and what is sent, and nothing else (R454, R455) -/

/-- `t` is `s` but for the interrupt status, the pending bits and more MSI-X messages. -/
def Signalled (s t : State) : Prop :=
  ∃ (q b : BitVec 16) (p : BitVec 32) (l : List Emit),
    t = { s with host := { s.host with irqSeq := q, irqBits := b, pba := p }, out := s.out ++ l }

theorem Signalled.refl (s : State) : Signalled s s :=
  ⟨s.host.irqSeq, s.host.irqBits, s.host.pba, [], by rw [List.append_nil]⟩

theorem Signalled.trans {s t u : State} (h : Signalled s t) (h' : Signalled t u) : Signalled s u := by
  obtain ⟨q, b, p, l, rfl⟩ := h
  obtain ⟨q', b', p', l', rfl⟩ := h'
  exact ⟨q', b', p', l ++ l', by simp only [List.append_assoc]⟩

theorem raiseIrq_signalled (s : State) (n : Nat) : Signalled s (raiseIrq s n) := by
  rw [raiseIrq]
  split
  · exact ⟨_, _, s.host.pba, [], by rw [List.append_nil]⟩
  split
  · exact ⟨_, _, s.host.pba, [.msix n], rfl⟩
  · exact ⟨s.host.irqSeq + 1, s.host.irqBits ||| BitVec.ofNat 16 (2 ^ n), s.host.pba ||| BitVec.ofNat 32 (2 ^ n), [],
      by rw [List.append_nil]⟩

theorem signalled_if {s t : State} {p : Prop} [Decidable p] (h : Signalled s t) (n : Nat) :
    Signalled s (if p then t else raiseIrq t n) := by
  split
  · exact h
  · exact h.trans (raiseIrq_signalled t n)

theorem note_signalled (s s' : State) : Signalled s' (note s s') := by
  have hports (l : List (Fin 8)) : ∀ t, Signalled s' t →
      Signalled s' (l.foldl (fun t p => if portChanged s s' p then raiseIrq t (8 + p.val) else t) t) := by
    induction l with
    | nil => exact fun t h => h
    | cons p l ih =>
      refine fun t h => ih _ ?_
      dsimp only
      split
      · exact h.trans (raiseIrq_signalled ..)
      · exact h
  exact hports _ _ (signalled_if (signalled_if (signalled_if (.refl s') 4) 5) 6)

/-- A command with its interrupts ends in its effect, signalled. -/
theorem noted_signalled {s s' : State} {o : Host.Outcome State Fault Refusal} (h : o = noted s (.next s')) :
    ∃ t, o = .next t ∧ Signalled s' t :=
  ⟨note s s', h.trans (noted_next s s'), note_signalled s s'⟩

/-! #### Pending messages (R444, R455) -/

theorem sendPending_signalled (s : State) (n : Nat) : Signalled s (sendPending s n) := by
  rw [sendPending]
  split
  · exact ⟨s.host.irqSeq, s.host.irqBits, _, [.msix n], rfl⟩
  · exact .refl s

theorem sendPendings_signalled (l : List Nat) (s : State) : Signalled s (l.foldl sendPending s) := by
  induction l generalizing s with
  | nil => exact .refl s
  | cons n l ih => exact (sendPending_signalled s n).trans (ih _)

theorem Signalled.mayMsi {s t : State} (h : Signalled s t) (n : Nat) : t.mayMsi n = s.mayMsi n := by
  obtain ⟨q, b, p, l, rfl⟩ := h
  rfl

theorem Signalled.out_mono {s t : State} (h : Signalled s t) {e : Emit} (he : e ∈ s.out) : e ∈ t.out := by
  obtain ⟨q, b, p, l, rfl⟩ := h
  exact List.mem_append_left _ he

theorem getLsbD_twoPow_mask {x : BitVec 32} {m n : Nat} (hn : n < 32) :
    (x &&& ~~~(BitVec.ofNat 32 (2 ^ m))).getLsbD n = (x.getLsbD n && !decide (m = n)) := by
  simp only [BitVec.getLsbD_and, BitVec.getLsbD_not, BitVec.getLsbD_ofNat, hn, Nat.testBit_two_pow, decide_true, Bool.true_and]

theorem sendPending_pba (s : State) {m n : Nat} (hn : n < 32) :
    (sendPending s m).host.pba.getLsbD n = (s.host.pba.getLsbD n && !(decide (m = n) && s.mayMsi m)) := by
  rw [sendPending]
  by_cases hs : s.host.pba.getLsbD m && s.mayMsi m
  · rw [if_pos hs]
    simp only [Bool.and_eq_true] at hs
    rw [hs.2, Bool.and_true]
    exact getLsbD_twoPow_mask hn
  · rw [if_neg hs]
    by_cases hm : m = n
    · subst hm
      simp only [decide_true, Bool.true_and]
      revert hs
      cases s.host.pba.getLsbD m <;> cases s.mayMsi m <;> decide
    · simp [hm]

/-- A pending bit that is clear stays clear. -/
theorem sendPendings_keeps_clear {n : Nat} (hn : n < 32) (l : List Nat) (s : State) (h : s.host.pba.getLsbD n = false) :
    (l.foldl sendPending s).host.pba.getLsbD n = false := by
  induction l generalizing s with
  | nil => exact h
  | cons m l ih => exact ih _ (by rw [sendPending_pba s hn, h, Bool.false_and])

/-- Every pending message that may be sent is sent, and its pending bit is cleared. -/
theorem sendPendings_sends {n : Nat} (hn : n < 32) (l : List Nat) (hl : n ∈ l) (s : State) (hp : s.host.pba.getLsbD n = true)
    (hm : s.mayMsi n = true) :
    .msix n ∈ (l.foldl sendPending s).out ∧ (l.foldl sendPending s).host.pba.getLsbD n = false := by
  induction l generalizing s with
  | nil => exact absurd hl List.not_mem_nil
  | cons m l ih =>
    by_cases hmn : m = n
    · subst hmn
      have hsent : .msix m ∈ (sendPending s m).out := by
        rw [sendPending, if_pos (by rw [hp, hm]; rfl)]
        exact List.mem_append_right _ (List.mem_singleton.2 rfl)
      exact ⟨(sendPendings_signalled l _).out_mono hsent, sendPendings_keeps_clear hn l _ (by rw [sendPending_pba s hn]; simp [hm])⟩
    · refine ih ((List.mem_cons.1 hl).resolve_left (Ne.symm hmn)) _ ?_ ?_
      · rw [sendPending_pba s hn, hp]
        simp [hmn]
      · rw [(sendPending_signalled s m).mayMsi, hm]

/-! #### Resets -/

theorem hostReset_device (s : State) (up : Bool) : (hostReset s up).cores = s.cores ∧ (hostReset s up).mem = s.mem
    ∧ (hostReset s up).helm = s.helm ∧ (hostReset s up).keys = s.keys ∧ (hostReset s up).groups = s.groups
    ∧ (hostReset s up).ports = s.ports ∧ (hostReset s up).links = s.links ∧ (hostReset s up).start = s.start
    ∧ (hostReset s up).power = s.power := ⟨rfl, rfl, rfl, rfl, rfl, rfl, rfl, rfl, rfl⟩

/-- Settles O54: each reset is one branch of its command; the pending messages are those of `sendPendings_sends`. -/
theorem resetsKeepWhatTheyShould : Obligations.ResetsKeepWhatTheyShould := by
  intro s blank device
  refine ⟨fun hr ht => ?_, fun h => ?_, fun hr => ?_, fun hr => ?_, fun hr => ?_, fun high hr => ?_,
    fun n => ⟨fun hn => ?_, fun hn hp hr => ?_⟩, fun hh => ?_, fun hh => ?_, ?_, ?_, fun hp => ?_, rfl, ?_,
    fun rate width flit hr ha hp hh => ?_⟩
  · exact ⟨_, congrArg Host.Outcome.next (if_neg (by simp [hr, ht])), rfl, rfl, rfl, rfl, rfl, rfl⟩
  · exact congrArg Host.Outcome.next (if_pos (by simpa using h))
  · exact ⟨_, congrArg Host.Outcome.next (if_neg (by simp [hr])), ⟨rfl, rfl, rfl, rfl, rfl, rfl, rfl, rfl, rfl, rfl, rfl, rfl, rfl⟩, rfl,
      List.mem_append_right _ (List.mem_singleton.2 rfl)⟩
  · exact congrArg Host.Outcome.next (if_pos hr)
  · refine ⟨_, rfl, ?_⟩
    rw [if_pos hr]
    exact ⟨rfl, rfl, rfl, rfl, rfl, rfl, rfl, rfl⟩
  · refine ⟨_, rfl, ?_⟩
    rw [if_pos hr]
    exact ⟨rfl, rfl, fun h => by simp [h], fun h => by simp [h], rfl, rfl⟩
  · exact congrArg Host.Outcome.next (if_pos (.inl hn))
  · exact ⟨_, congrArg Host.Outcome.next (if_neg (by simp [hp, hr, hn])),
      ⟨rfl, rfl, rfl, rfl, rfl, rfl, rfl, rfl, rfl, rfl, rfl, rfl, rfl⟩, rfl, rfl⟩
  · exact ⟨_, congrArg Host.Outcome.next (if_neg (by simp [hh])), rfl, rfl, rfl⟩
  · exact congrArg Host.Outcome.next (if_pos hh)
  · exact ⟨_, rfl, hostReset_device s false, rfl, rfl, rfl⟩
  · exact ⟨_, rfl, hostReset_device s true, rfl, rfl, rfl⟩
  · exact ⟨_, congrArg Host.Outcome.next (if_neg (by simp [hp])), ⟨rfl, rfl, rfl, rfl, rfl, rfl, rfl, rfl, rfl⟩, rfl, rfl⟩
  · have hsends {n : Nat} (hn : n < 32) := sendPendings_sends hn (List.range 32) (List.mem_range.2 hn)
      { s with host := { s.host with d3hot := false } }
    obtain ⟨q, b, p, l, h⟩ := sendPendings_signalled (List.range 32) { s with host := { s.host with d3hot := false } }
    refine ⟨_, rfl, ?_, ?_, fun n hn hp hm hl hpe => hsends hn hp ?_⟩
    · rw [sendAllPending, h]
      exact ⟨rfl, rfl, rfl, rfl, rfl, rfl, rfl, rfl, rfl⟩
    · rw [sendAllPending, h]
    · change (!s.masked n && s.host.linkUp && !false && !s.host.perst) = true
      rw [hm, hl, hpe]
      rfl
  · obtain ⟨q, b, p, l, h⟩ := sendPendings_signalled (List.range 32)
      { s with host := { s.host with linkUp := true, rate := rate, width := width, flit := flit } }
    refine ⟨_, congrArg Host.Outcome.next (if_pos (by simp [hr, ha, hp, hh])), ?_⟩
    rw [sendAllPending, h]
    exact ⟨⟨rfl, rfl, rfl, rfl, rfl, rfl, rfl, rfl, rfl⟩, rfl, rfl, rfl, rfl⟩

/-! #### The input voltage and the power loop (R495, R501) -/

theorem insertNat_eq (n : Nat) (l : List Nat) : insertNat n l = l.orderedInsert (· ≤ ·) n := by
  induction l with
  | nil => rfl
  | cons a l ih => rw [insertNat, List.orderedInsert_cons, ih]

theorem sortNat_eq (l : List Nat) : sortNat l = l.insertionSort (· ≤ ·) := by
  induction l with
  | nil => rfl
  | cons a l ih =>
    rw [List.insertionSort_cons, ← ih, ← insertNat_eq]
    rfl

/-- A full window's two middle samples stand in order. -/
theorem sortNat_middle {l : List Nat} (h : l.length = 64) : (sortNat l).getD 31 0 ≤ (sortNat l).getD 32 0 := by
  have hlen : (sortNat l).length = 64 := by rw [sortNat_eq, List.length_insertionSort, h]
  have hsorted : (sortNat l).Pairwise (· ≤ ·) := sortNat_eq l ▸ List.pairwise_insertionSort (· ≤ ·) l
  rw [List.getD_eq_getElem _ _ (by omega), List.getD_eq_getElem _ _ (by omega)]
  exact List.pairwise_iff_getElem.1 hsorted 31 32 (by omega) (by omega) (by decide)

theorem vinMedian_between {win : List Nat} (h : win.length = 64) (d : Nat) :
    (sortNat win).getD 31 0 ≤ vinMedian win d ∧ vinMedian win d ≤ (sortNat win).getD 32 0 := by
  have hle := sortNat_middle h
  have hmod := Nat.mod_lt (Config.freeWord d).toNat (y := (sortNat win).getD 32 0 - (sortNat win).getD 31 0 + 1) (by omega)
  simp only [vinMedian]
  split <;> omega

/-! #### The thermal loop and the sensors (R504 to R506) -/

section
variable {s : State} {d ms : Nat}

/-- Sensors with a reading have not all failed. -/
theorem not_allFailed_of_reading {l : List SensorId} {v : Int} (h : hottest (readings s l) = some v) : s.allFailed l = false := by
  refine Bool.eq_false_iff.2 fun hall => ?_
  have hnil : readings s l = [] := by
    refine List.filterMap_eq_nil_iff.2 fun i hi => if_pos ?_
    exact List.all_eq_true.1 hall i hi
  rw [hnil] at h
  cases h

theorem nextDTh_read {tj td : Int} (hj : hottest (readings s (junctionsOf d)) = some tj)
    (hl : hottest (readings s (layersOf d)) = some td) : nextDTh s d ms
      = if 95 ≤ tj ∨ 95 ≤ td then 2 else if 90 ≤ tj ∨ 93 ≤ td then max 2 (s.dTh d - 1)
        else if tj < 88 ∧ td < 91 ∧ 10 ≤ ms then min 16 (s.dTh d + 1) else s.dTh d := by
  rw [nextDTh, not_allFailed_of_reading hj, not_allFailed_of_reading hl, hj, hl]
  rfl

theorem nextDTh_failed (h : s.allFailed (junctionsOf d) = true ∨ s.allFailed (layersOf d) = true) : nextDTh s d ms = 4 :=
  if_pos (by simpa using h)

/-- The thermal loop sets the one die's level. -/
theorem exec_dutyThermalUpdate (hd : d < 24) (hr : s.power.rails = true) : ∃ t, exec (.dutyThermalUpdate d ms) s = .next t
    ∧ t.power.dPwr = s.power.dPwr ∧ t.cores = s.cores ∧ (∀ e, e ≠ d → t.dTh e = s.dTh e) ∧ t.dTh d = nextDTh s d ms := by
  have hexec : execDutyThermalUpdate d ms s = noted s _ := (if_neg (Nat.not_le.2 hd)).trans (congrArg _ (congrArg _ (if_pos hr)))
  obtain ⟨t, ht, q, b, p, l, rfl⟩ := noted_signalled hexec
  exact ⟨_, ht, rfl, rfl, fun e he => Sparse.get_set_ne 16 s.power.dTh he _, Sparse.get_set_self 16 s.power.dTh d _⟩

/-- The sensor's entry is replaced. -/
def State.withSensor (s : State) (i : SensorId) (x : Sensor) : State :=
  { s with power := { s.power with sensors := Sparse.set Sensor.init s.power.sensors (sensorKey i) x } }

theorem sensor_withSensor (s : State) (i : SensorId) (x : Sensor) : (s.withSensor i x).sensor i = x :=
  Sparse.get_set_self Sensor.init s.power.sensors (sensorKey i) x

/-- A sample changes at most the refresh window beside its sensor. -/
theorem refreshAfter_frame (s : State) (i : SensorId) : (refreshAfter s i).power.sensors = s.power.sensors
    ∧ (refreshAfter s i).power.rails = s.power.rails ∧ (refreshAfter s i).cores = s.cores := by
  cases i <;> exact ⟨rfl, rfl, rfl⟩

variable {i : SensorId} {v : Int} (hi : sensorExists i = true) (hr : s.power.rails = true)
include hi hr

/-- A sample below the trip is the sensor's new state. -/
theorem exec_sensorSample_below (hx : ((s.sensor i).take (sensorTripAt i) v).hot < 2) :
    ∃ t, exec (.sensorSample i v) s = .next t ∧ t.sensor i = (s.sensor i).take (sensorTripAt i) v ∧ t.power.rails = true
      ∧ t.cores = s.cores := by
  have hexec : execSensorSample i v s = noted s (.next (refreshAfter (s.withSensor i ((s.sensor i).take (sensorTripAt i) v)) i)) :=
    (if_neg (by simp [hi])).trans (congrArg _ (congrArg _ ((if_pos hr).trans (if_neg (Nat.not_le.2 hx)))))
  obtain ⟨hsens, hrails, hcores⟩ := refreshAfter_frame (s.withSensor i ((s.sensor i).take (sensorTripAt i) v)) i
  obtain ⟨t, ht, q, b, p, l, rfl⟩ := noted_signalled hexec
  exact ⟨_, ht, (congrArg (Sparse.get Sensor.init · (sensorKey i)) hsens).trans (sensor_withSensor ..), hrails.trans hr, hcores⟩

/-- The second sample in a row at the trip level takes the rails down. -/
theorem exec_sensorSample_trips (hx : 2 ≤ ((s.sensor i).take (sensorTripAt i) v).hot) :
    ∃ t, exec (.sensorSample i v) s = .next t ∧ t.power.rails = false ∧ t.power.tripLatched = true ∧ t.power.otFault = true
      ∧ t.cores = [] ∧ t.keys = [] := by
  have hexec : execSensorSample i v s
      = noted s (.next (thermalTrip (refreshAfter (s.withSensor i ((s.sensor i).take (sensorTripAt i) v)) i))) :=
    (if_neg (by simp [hi])).trans (congrArg _ (congrArg _ ((if_pos hr).trans (if_pos hx))))
  obtain ⟨t, ht, q, b, p, l, rfl⟩ := noted_signalled hexec
  exact ⟨_, ht, rfl, rfl, rfl, rfl, rfl⟩

end

/-! #### A sensor's sample (R504) -/

section
variable {x : Sensor} {trip : Option Int} {v : Int} (hf : x.failed = false)
include hf

theorem take_discarded (hd : x.discard v = true) :
    x.take trip v = { x with discards := x.discards + 1, failed := decide (16 ≤ x.discards + 1) } := by
  simp [Sensor.take, hf, hd]

theorem take_cool (hd : x.discard v = false) (hv : ∀ n, trip = some n → v < n) :
    x.take trip v = { last := some v, discards := 0, failed := false, hot := 0 } := by
  cases trip with
  | none => simp [Sensor.take, hf, hd]
  | some n => simp [Sensor.take, hf, hd, hv n rfl]

theorem take_hot {n : Int} (hd : x.discard v = false) (hv : n ≤ v) :
    x.take (some n) v = { last := some v, discards := 0, failed := false, hot := x.hot + 1 } := by
  simp [Sensor.take, hf, hd, hv]

end

/-- Settles O55: each command ends in its effect, signalled; the loops and samples are the lemmas above. -/
theorem powerAndTemperatureSetTheDuty : Obligations.PowerAndTemperatureSetTheDuty := by
  intro s
  refine ⟨fun x hlen => ?_, fun x hlen => ?_, fun hr => ⟨?_, fun p => ?_, fun d ms tj td hd hj hl => ?_, fun d ms hd hf => ?_,
    fun i v hi hf => ⟨fun hdis hhot => ?_, fun hdis hv => ?_, fun n hdis htrip hv hhot => ?_⟩⟩⟩
  · have hwin : (s.power.vinWin ++ [x]).drop (s.power.vinWin.length - 63) = s.power.vinWin.drop 1 ++ [x] := by
      rw [hlen, List.drop_append_of_le_length (by omega)]
    have hwinlen : (s.power.vinWin.drop 1 ++ [x]).length = 64 := by simp [hlen]
    refine ⟨_, congrArg Host.Outcome.next (if_neg (by rw [hwin, hwinlen]; decide)), hwin, ?_, rfl, rfl⟩
    dsimp only
    rw [hwin]
    exact vinMedian_between hwinlen s.drawn
  · have hwin : (s.power.vinWin ++ [x]).drop (s.power.vinWin.length - 63) = s.power.vinWin ++ [x] := by
      rw [Nat.sub_eq_zero_of_le (by omega), List.drop_zero]
    change execVinSample x s = _
    simp only [execVinSample, hwin]
    exact congrArg Host.Outcome.next (if_pos (by simp; omega))
  · have hexec : execFastCurrentLimit s = noted s _ := congrArg (noted s) (congrArg _ (if_pos hr))
    obtain ⟨t, ht, q, b, p, l, rfl⟩ := noted_signalled hexec
    exact ⟨_, ht, rfl, rfl⟩
  · have hexec : execDutyPowerUpdate p s = noted s _ := congrArg (noted s) (congrArg _ (if_pos hr))
    obtain ⟨t, ht, q, b, p, l, rfl⟩ := noted_signalled hexec
    exact ⟨_, ht, rfl, rfl⟩
  · obtain ⟨t, ht, hp, hc, ho, hd'⟩ := exec_dutyThermalUpdate (ms := ms) hd hr
    exact ⟨t, ht, hp, hc, ho, hd'.trans (nextDTh_read hj hl)⟩
  · obtain ⟨t, ht, -, -, -, hd'⟩ := exec_dutyThermalUpdate (ms := ms) hd hr
    exact ⟨t, ht, hd'.trans (nextDTh_failed hf)⟩
  · have htake := take_discarded (trip := sensorTripAt i) hf hdis
    obtain ⟨t, ht, hs, -, hc⟩ := exec_sensorSample_below hi hr (by rw [htake]; exact hhot)
    exact ⟨t, ht, hc, hs.trans htake⟩
  · have htake := take_cool hf hdis hv
    obtain ⟨t, ht, hs, hrails, hc⟩ := exec_sensorSample_below hi hr (by rw [htake]; exact Nat.zero_lt_two)
    exact ⟨t, ht, hs.trans htake, hrails, hc⟩
  · refine exec_sensorSample_trips hi hr ?_
    rw [htrip, take_hot hf hdis hv]
    exact Nat.succ_le_succ hhot

end Sys2Proof.Machine

/-! ### The flash devices (R411, R463) -/

namespace Sys2Proof.Machine

/-! #### Bytes written to a flash device -/

/-- The first `n` bytes of a list written to a flash device from `a` on. -/
def flashBytes (m : Sparse Byte) (a : Nat) (l : List Byte) (n : Nat) : Sparse Byte :=
  (List.range n).foldl (fun m i => Sparse.set 0xFF m (a + i) (l.getD i 0xFF)) m

theorem get_flashBytes (m : Sparse Byte) (a : Nat) (l : List Byte) (n x : Nat) :
    Sparse.get 0xFF (flashBytes m a l n) x = if a ≤ x ∧ x < a + n then l.getD (x - a) 0xFF else Sparse.get 0xFF m x := by
  induction n with
  | zero => exact (if_neg (by omega)).symm
  | succ n ih =>
    rw [flashBytes, List.range_succ, List.foldl_append]
    change Sparse.get 0xFF (Sparse.set 0xFF (flashBytes m a l n) (a + n) (l.getD n 0xFF)) x = _
    by_cases hx : x = a + n
    · rw [hx, Sparse.get_set_self, if_pos (by omega), Nat.add_sub_cancel_left]
    · rw [Sparse.get_set_ne 0xFF _ hx, ih]
      exact if_congr (by omega) rfl rfl

/-- Writing to the first device. -/
theorem flashPut_first (s : State) {dev : Fin 2} (hd : dev = 0) (a : Nat) (l : List Byte) :
    flashPut s dev a l = { s with flashA := flashBytes s.flashA a l l.length } := if_pos hd

theorem getElem_rdBytes (m : Memory) (a n i : Nat) (h : i < (rdBytes m a n).length) : (rdBytes m a n)[i] = rdByte m (a + i) := by
  induction n generalizing a i with
  | zero => exact absurd h (Nat.not_lt_zero i)
  | succ n ih =>
    cases i with
    | zero => rfl
    | succ i =>
      have h' : i < (rdBytes m (a + 1) n).length := Nat.lt_of_succ_lt_succ h
      exact (ih (a + 1) i h').trans (congrArg _ (by omega))

/-! #### The start and the end of an operation -/

section
variable {s : State} {dev : Fin 2} {erase : Bool}

theorem flashStart_busy (h : s.host.flBusy = true) : flashStart s dev erase = s := if_pos (by simp [h])

variable (hb : s.host.flBusy = false) (ho : s.flashOp = none)
include hb ho

theorem flashStart_starts (ht : s.flashTakes dev = true) : flashStart s dev erase = { s with
    flashOp := some { dev := dev, erase := erase,
                      addr := if erase then s.host.flAddr.toNat / 65536 * 65536 else s.host.flAddr.toNat / 4096 * 4096,
                      data := if erase then [] else s.host.progBuf },
    flashUsed := true, host := { s.host with flBusy := true, flDenied := false, flTimeout := false } } :=
  (if_neg (by simp [hb, ho])).trans (if_pos ht)

theorem flashStart_denied (ht : s.flashTakes dev = false) : flashStart s dev erase = raiseIrq
    (if s.start.stage = 6 then ({ s with host := { s.host with flDenied := true, flTimeout := false } } : State).event 0 .flashDeny 0
      else { s with host := { s.host with flDenied := true, flTimeout := false } }) 7 :=
  (if_neg (by simp [hb, ho])).trans (if_neg (by simp [ht]))

end

/-- An interrupt's status bit is set once it has been raised. -/
theorem raiseIrq_bit (s : State) {n : Nat} (hn : n < 16) : (raiseIrq s n).host.irqBits.getLsbD n = true := by
  have hbits : (raiseIrq s n).host.irqBits = s.host.irqBits ||| BitVec.ofNat 16 (2 ^ n) := by
    simp only [raiseIrq]
    split
    · rfl
    split <;> rfl
  rw [hbits]
  simp only [BitVec.getLsbD_or, BitVec.getLsbD_ofNat, hn, Nat.testBit_two_pow_self, decide_true, Bool.true_and, Bool.or_true]

/-- The end of an operation: its bytes stay, and BUSY clears with the status given. -/
theorem flashDone_frame (s : State) (timeout : Bool) : (flashDone s timeout).flashOp = none ∧ (flashDone s timeout).host.flBusy = false
    ∧ (flashDone s timeout).flashA = s.flashA ∧ (flashDone s timeout).flashB = s.flashB
    ∧ (s.host.flBusy = true → (flashDone s timeout).host.flTimeout = timeout) := by
  by_cases h : s.host.flBusy
  · have hs : Signalled { s with flashOp := none, host := { s.host with flBusy := false, flTimeout := timeout } } (flashDone s timeout) := by
      rw [flashDone, if_pos h]
      exact raiseIrq_signalled ..
    generalize flashDone s timeout = t at hs
    obtain ⟨q, b, p, l, rfl⟩ := hs
    exact ⟨rfl, rfl, rfl, rfl, fun _ => rfl⟩
  · rw [flashDone, if_neg h]
    exact ⟨rfl, by simpa using h, rfl, rfl, fun h' => absurd h' h⟩

/-- What an operation has written when it ends. -/
def FlashOp.written (o : FlashOp) : List Byte := if o.erase then List.replicate 65536 0xFF else rdBytes o.data 0 4096

theorem FlashOp.written_length (o : FlashOp) : o.written.length = o.size := by
  rw [written, size]
  split
  · exact List.length_replicate
  · exact rdBytes_length ..

theorem FlashOp.written_byte (o : FlashOp) {i : Nat} (h : i < o.size) :
    o.written.getD i 0xFF = if o.erase then 0xFF else rdByte o.data i := by
  rw [List.getD_eq_getElem _ _ (by rw [o.written_length]; exact h)]
  by_cases he : o.erase
  · simp only [written, he, if_true, List.getElem_replicate]
  · simp only [written, he, if_false, getElem_rdBytes, Nat.zero_add, Bool.false_eq_true]

/-- Settles O45: the bytes of an operation are those of `get_flashBytes`. -/
theorem flashOperationsChangeOnlyTheirBytes : Obligations.FlashOperationsChangeOnlyTheirBytes := by
  intro s dev
  refine ⟨fun hb => ⟨congrArg Host.Outcome.next (flashStart_busy hb), congrArg Host.Outcome.next (flashStart_busy hb)⟩,
    fun hb ho ht => ⟨⟨_, congrArg Host.Outcome.next (flashStart_starts hb ho ht), rfl, rfl, rfl, rfl, rfl⟩,
      ⟨_, congrArg Host.Outcome.next (flashStart_starts hb ho ht), rfl, rfl, rfl, rfl, rfl⟩⟩, fun hb ho ht => ?_,
    fun o hop hdev => ⟨?_, ?_⟩⟩
  · obtain ⟨t, ht, hop, hden, hA, hB⟩ : ∃ t, flashStart s dev true = raiseIrq t 7 ∧ t.flashOp = s.flashOp ∧ t.host.flDenied = true
        ∧ t.flashA = s.flashA ∧ t.flashB = s.flashB := by
      refine ⟨_, flashStart_denied hb ho ht, ?_⟩
      split
      · simp only [event_frame, and_self]
      · exact ⟨rfl, rfl, rfl, rfl⟩
    have hbit := raiseIrq_bit t (n := 7) (by decide)
    have hs := raiseIrq_signalled t 7
    refine ⟨_, congrArg Host.Outcome.next ht, ?_⟩
    generalize raiseIrq t 7 = u at hbit hs
    obtain ⟨q, b, p, l, rfl⟩ := hs
    exact ⟨hop.trans ho, hden, hbit, hA, hB⟩
  · have hwrite := flashPut_first s hdev o.addr o.written
    obtain ⟨hop', hbusy, hA, hB, -⟩ := flashDone_frame (flashPut s o.dev o.addr o.written) false
    have hexec : execFlashOpEnd s = .next (flashDone (flashPut s o.dev o.addr o.written) false) := by
      rw [execFlashOpEnd, hop]
      rfl
    refine ⟨_, hexec, hop', hbusy, hB.trans (by rw [hwrite]), fun i hi => ?_, fun a ha => ?_⟩
    · rw [hA, hwrite, get_flashBytes, o.written_length, if_pos (by omega), Nat.add_sub_cancel_left, o.written_byte hi]
    · rw [hA, hwrite, get_flashBytes, o.written_length, if_neg (by omega)]
  · have hlen : ((List.range o.size).map (fun i => Config.freeByte (s.drawn + i))).length = o.size := by simp
    have hexec : execFlashOpTimeout s = .next (flashDone
        { flashPut s o.dev o.addr ((List.range o.size).map (fun i => Config.freeByte (s.drawn + i))) with drawn := s.drawn + o.size } true) := by
      rw [execFlashOpTimeout, hop]
    rw [flashPut_first s hdev] at hexec
    generalize (List.range o.size).map (fun i => Config.freeByte (s.drawn + i)) = l at hlen hexec
    obtain ⟨hop', -, hA, hB, htime⟩ := flashDone_frame
      { s with flashA := flashBytes s.flashA o.addr l l.length, drawn := s.drawn + o.size } true
    refine ⟨_, hexec, hop', hB, htime, fun a ha => ?_⟩
    rw [hA, get_flashBytes, hlen, if_neg (by omega)]

end Sys2Proof.Machine

/-! ### The start-up sequence (R386, R412 to R421) -/

namespace Sys2Proof.Machine

/-! #### Placement leaves the cores, memory and the vaults as they are -/

/-- What the placement of cores does not touch. -/
def State.stores (s : State) : List (Nat × Core) × Memory × Sparse Vault := (s.cores, s.mem, s.vaults)

@[simp] theorem logRec_stores (s : State) (r : EventRec) : (s.logRec r).stores = s.stores := rfl
@[simp] theorem event_stores (s : State) (b : Nat) (c : Code) (d : Nat) : (s.event b c d).stores = s.stores := rfl
@[simp] theorem dieEvent_stores (s : State) (d : Nat) (c : Code) : (dieEvent s d c).stores = s.stores := rfl
@[simp] theorem setMark_stores (s : State) (t : Nat) (m : SiteMark) : (s.setMark t m).stores = s.stores := rfl

@[simp] theorem seatCore_stores (s : State) (c : Nat) : (seatCore s c).stores = s.stores := by
  rw [seatCore]
  split
  · rfl
  split
  · rfl
  split <;> rfl

@[simp] theorem absentMore_stores (d n : Nat) (s : State) : (absentMore d n s).stores = s.stores := by
  induction n generalizing s with
  | zero => rfl
  | succ n ih =>
    rw [absentMore]
    split
    · rfl
    · exact ih _

@[simp] theorem retireDie_stores (s : State) (d : Nat) : (retireDie s d).stores = s.stores := by
  have h := absentMore_stores d 176 s
  rw [retireDie]
  generalize absentMore d 176 s = u at h
  split
  · rfl
  dsimp only
  split <;> exact h

@[simp] theorem dieCheck_stores (s : State) (d : Nat) : (dieCheck s d).stores = s.stores := by
  simp only [dieCheck]
  split
  · rfl
  split
  · exact retireDie_stores s d
  split
  · rfl
  split <;> exact absentMore_stores ..

theorem judgeSite_stores (marked failed : List Nat) (s : State) (t : Nat) : (judgeSite marked failed s t).stores = s.stores := by
  simp only [judgeSite]
  generalize hm : (if decide (t ∈ marked) || decide (t ∈ failed) then s.setMark t { s.mark t with retired := true } else s) = u
  have hu : u.stores = s.stores := by
    rw [← hm]
    split <;> rfl
  split
  · exact hu
  split <;> exact hu

theorem reconcile_stores (s : State) (marked : List Nat) (t : SelfTest) (bad : List Nat) :
    (reconcile s marked t bad).stores = s.stores := by
  rw [reconcile, foldl_field _ _ seatCore_stores, foldl_field _ _ dieCheck_stores, foldl_field _ _ retireDie_stores]
  refine foldl_field State.stores _ (fun s d => ?_) _ s
  exact foldl_field State.stores _ (judgeSite_stores marked t.badSites) _ s

/-! #### Failures (R421) -/

theorem failStart_frame (s : State) (code : Code) (log : Bool) : (failStart s code log).stores = s.stores
    ∧ (failStart s code log).start = { s.start with stage := 7, failcode := codeValue code }
    ∧ (failStart s code log).helm.admission = false ∧ (failStart s code log).lode = s.lode ∧ (failStart s code log).chart = s.chart := by
  cases log <;> exact ⟨rfl, rfl, rfl, rfl, rfl⟩

/-- What follows once the cores are placed. -/
def seatedStage (s : State) : State :=
  if s.diesIn.length < 8 then failStart s .deviceFailed false
  else if areasFit { s with helm := { s.helm with areaDies := s.diesIn } } then
    startLinks { s with helm := { s.helm with areaDies := s.diesIn } }
  else failStart { s with helm := { s.helm with areaDies := s.diesIn } } .resvShort true

/-- The placement ends with the links in training, or in FAILED. -/
theorem seatedStage_spec (s : State) : ((seatedStage s).start.stage = 5 ∨ (seatedStage s).start.stage = 7)
    ∧ (seatedStage s).stores = s.stores := by
  have hfail (u : State) (code : Code) (log : Bool) := failStart_frame u code log
  rw [seatedStage]
  split
  · exact ⟨.inr (congrArg StartUp.stage (hfail ..).2.1), (hfail ..).1⟩
  split
  · exact ⟨.inl rfl, rfl⟩
  · exact ⟨.inr (congrArg StartUp.stage (hfail ..).2.1), (hfail ..).1⟩

theorem reconcileStage_spec {s : State} {bad : List Nat} (hc : s.chart.isSome = true) (ht : s.start.selfTest.isSome = true) :
    ((reconcileStage s bad).start.stage = 5 ∨ (reconcileStage s bad).start.stage = 7) ∧ (reconcileStage s bad).stores = s.stores := by
  obtain ⟨c, hc⟩ := Option.isSome_iff_exists.1 hc
  obtain ⟨t, ht⟩ := Option.isSome_iff_exists.1 ht
  have heq : reconcileStage s bad = seatedStage (reconcile s c.badSites t bad) := by
    rw [reconcileStage, hc, ht]
    rfl
  obtain ⟨hstage, hstores⟩ := seatedStage_spec (reconcile s c.badSites t bad)
  rw [heq]
  exact ⟨hstage, hstores.trans (reconcile_stores ..)⟩

/-! #### The stack tests (R420) -/

theorem vault_vaultFails_self (s : State) (v : Nat) : ((vaultFails s v).vault v).out = true :=
  congrArg Vault.out (Sparse.get_set_self Vault.init s.vaults v { s.vault v with out := true })

theorem vault_vaultFails_ne (s : State) {v w : Nat} (h : w ≠ v) : (vaultFails s v).vault w = s.vault w :=
  Sparse.get_set_ne Vault.init s.vaults h { s.vault v with out := true }

theorem vaultsFail_out (l : List Nat) (s : State) {v : Nat} (h : v ∈ l ∨ (s.vault v).out = true) :
    ((l.foldl vaultFails s).vault v).out = true := by
  induction l generalizing s with
  | nil => exact h.resolve_left List.not_mem_nil
  | cons w l ih =>
    refine ih _ ?_
    by_cases hvw : v = w
    · rw [hvw]
      exact .inr (vault_vaultFails_self s w)
    · exact h.imp (fun h => (List.mem_cons.1 h).resolve_left hvw) (fun h => by rwa [vault_vaultFails_ne s hvw])

theorem vaultsFail_frame (l : List Nat) (s : State) : (l.foldl vaultFails s).chart = s.chart ∧ (l.foldl vaultFails s).start = s.start
    ∧ (l.foldl vaultFails s).mem = s.mem ∧ (l.foldl vaultFails s).cores = s.cores :=
  ⟨foldl_field State.chart vaultFails (fun _ _ => rfl) l s, foldl_field State.start vaultFails (fun _ _ => rfl) l s,
    foldl_field State.mem vaultFails (fun _ _ => rfl) l s, foldl_field State.cores vaultFails (fun _ _ => rfl) l s⟩

/-! #### Nothing changes, so nothing is signalled -/

theorem note_self (s : State) : note s s = s := by
  have hports (l : List (Fin 8)) : ∀ t : State, l.foldl (fun t p => if portChanged s s p then raiseIrq t (8 + p.val) else t) t = t := by
    induction l with
    | nil => exact fun _ => rfl
    | cons p l ih => exact fun t => (ih _).trans (if_neg (by simp [portChanged]))
  rw [note]
  simp only [if_true]
  exact hports _ s

theorem noted_same {s : State} {o : Host.Outcome State Fault Refusal} (h : o = noted s (.next s)) : o = .next s :=
  h.trans ((noted_next s s).trans (congrArg _ (note_self s)))

theorem Signalled.device {s t : State} (h : Signalled s t) : t.stores = s.stores ∧ t.chart = s.chart ∧ t.start = s.start := by
  obtain ⟨q, b, p, l, rfl⟩ := h
  exact ⟨rfl, rfl, rfl⟩

/-! #### The image (R412, R417) -/

theorem imageFails_spec (s : State) (n : Fin 2) (code : Code) :
    (if n = 0 then (imageFails s n code).start.codeA else (imageFails s n code).start.codeB) = codeValue code
      ∧ (imageFails s n code).start.tried n = true
      ∧ (imageFails s n code).start.stage = (if s.start.tried (otherLode n) then 8 else s.start.stage)
      ∧ (imageFails s n code).chart = s.chart ∧ (imageFails s n code).cores = s.cores := by
  by_cases ht : s.start.tried (otherLode n)
  · rw [imageFails, if_pos ht, if_pos ht]
    by_cases hn : n = 0 <;> simp [hn, StartUp.tried]
  · rw [imageFails, if_neg ht, if_neg ht]
    by_cases hn : n = 0 <;> simp [hn, StartUp.tried]

/-- The end of the stack tests: the failed vaults leave use, and placement follows. -/
theorem stackTestEnd_goes {s : State} {bv bs : List Nat} (h3 : s.start.stage = 3) (hv : ∀ v ∈ bv, v < Config.nSites)
    (hb : ∀ d ∈ bs, d < 24) :
    let s2 := note s ((bv ++ stackVaults bs).dedup.foldl vaultFails { s with mem := [], start := { s.start with stage := 4 } })
    execStackTestEnd bv bs s = noted s2 (.next (reconcileStage s2 bs)) := by
  have hv' : bv.any (fun v => decide (Config.nSites ≤ v)) = false := by simpa using hv
  have hb' : bs.any (fun d => decide (24 ≤ d)) = false := by simpa using hb
  intro s2
  rw [execStackTestEnd, if_neg (by rw [hv']; decide), if_neg (by rw [hb']; decide), if_neg (not_not.2 h3)]
  rfl

/-- Settles O56: each command ends in one branch of its effect, signalled; the stack tests are the lemmas above. -/
theorem startUpGoesStageByStage : Obligations.StartUpGoesStageByStage := by
  intro s
  refine ⟨fun la lb h0 hh hr ha => ⟨fun hok => ?_, ?_, ?_⟩, fun n x keys h1 hk => ⟨fun hturn => ?_, fun hturn => ⟨fun himg => ?_,
    fun code himg => ?_⟩⟩, fun n h1 hk ht => ?_, fun x h2 => ⟨fun hh hp => ?_, fun hh => ?_, fun hh hp => ?_⟩,
    fun bv bs h3 hc ht hv hb => ?_, fun h5 => ?_, fun h5 => ?_, fun h2 h4 => ?_, fun h => ?_⟩
  · have hexec : execRomStageEnd la lb true true s = noted s _ := congrArg (noted s) (congrArg _
      ((if_neg (by simp [h0, hh, hr, ha])).trans ((if_neg (by cases la <;> simp_all)).trans (if_neg (by decide)))))
    obtain ⟨t, ht, q, b, p, l, rfl⟩ := noted_signalled hexec
    exact ⟨_, ht, rfl, by simpa using hok, rfl, rfl, rfl⟩
  · have hexec : execRomStageEnd false false true true s = noted s _ := congrArg (noted s) (congrArg _
      ((if_neg (by simp [h0, hh, hr, ha])).trans (if_pos (by decide))))
    obtain ⟨t, ht, q, b, p, l, rfl⟩ := noted_signalled hexec
    exact ⟨_, ht, rfl, h0⟩
  · have hexec : execRomStageEnd true lb false true s = noted s _ := congrArg (noted s) (congrArg _
      ((if_neg (by simp [h0, hh, hr, ha])).trans ((if_neg (by simp)).trans (if_pos (by decide)))))
    obtain ⟨t, ht, q, b, p, l, rfl⟩ := noted_signalled hexec
    exact ⟨_, ht, rfl, rfl⟩
  · have hexec : execChartImageCheck n x keys s = noted s (.next s) := by
      rw [execChartImageCheck, if_neg (not_not.2 h1), hk]
      exact congrArg (noted s) (congrArg _ (if_pos hturn))
    exact noted_same hexec
  · have hexec : execChartImageCheck n x keys s
        = noted s (.next (inForce s n.val (chartOf (s.flash n)) (s.start.romLA && keys.1) (s.start.romLB && keys.2))) := by
      rw [execChartImageCheck, if_neg (not_not.2 h1), hk]
      refine congrArg (noted s) (congrArg _ ((if_neg (by rw [hturn]; decide)).trans ?_))
      rw [himg]
    obtain ⟨t, ht, q, b, p, l, rfl⟩ := noted_signalled hexec
    exact ⟨_, ht, rfl, rfl, rfl, rfl, rfl⟩
  · have hexec : execChartImageCheck n x keys s = noted s (.next (imageFails s n code)) := by
      rw [execChartImageCheck, if_neg (not_not.2 h1), hk]
      refine congrArg (noted s) (congrArg _ ((if_neg (by rw [hturn]; decide)).trans ?_))
      rw [himg]
    obtain ⟨hcode, htried, hstage, hchart, hcores⟩ := imageFails_spec s n code
    obtain ⟨t, ht, q, b, p, l, rfl⟩ := noted_signalled hexec
    exact ⟨_, ht, hchart, hcode, htried, hstage.trans (by rw [h1]), hcores⟩
  · have hexec : execFlashReadTimeout n s = noted s (.next (imageFails s n .flashRead)) :=
      congrArg (noted s) (congrArg _ (if_neg (by simp [h1, hk, ht])))
    obtain ⟨hcode, -, hstage, hchart, -⟩ := imageFails_spec s n .flashRead
    obtain ⟨t, ht, q, b, p, l, rfl⟩ := noted_signalled hexec
    exact ⟨_, ht, hcode, hstage.trans (by rw [h1]), hchart⟩
  · have hexec : execSelfTestEnd x s = noted s _ := congrArg (noted s) (congrArg _
      ((if_neg (not_not.2 h2)).trans ((if_neg (by simp [hh])).trans (if_neg (by simp [hp])))))
    obtain ⟨t, ht, q, b, p, l, rfl⟩ := noted_signalled hexec
    exact ⟨_, ht, rfl, rfl⟩
  · have hexec : execSelfTestEnd x s = noted s _ := congrArg (noted s) (congrArg _ ((if_neg (not_not.2 h2)).trans (if_pos hh)))
    obtain ⟨t, ht, q, b, p, l, rfl⟩ := noted_signalled hexec
    exact ⟨_, ht, rfl, rfl⟩
  · have hexec : execSelfTestEnd x s = noted s _ := congrArg (noted s) (congrArg _
      ((if_neg (not_not.2 h2)).trans ((if_neg (by simp [hh])).trans (if_pos hp))))
    obtain ⟨t, ht, q, b, p, l, rfl⟩ := noted_signalled hexec
    exact ⟨_, ht, rfl, rfl⟩
  · have hexec := stackTestEnd_goes h3 hv hb
    obtain ⟨hchart, hstart, hmem, hcores⟩ := vaultsFail_frame (bv ++ stackVaults bs).dedup
      { s with mem := [], start := { s.start with stage := 4 } }
    have hout (v : Nat) (h : v ∈ bv) := vaultsFail_out (bv ++ stackVaults bs).dedup
      { s with mem := [], start := { s.start with stage := 4 } } (v := v) (.inl (List.mem_dedup.2 (List.mem_append_left _ h)))
    generalize (bv ++ stackVaults bs).dedup.foldl vaultFails _ = s1 at hexec hchart hstart hmem hcores hout
    have hs2 := note_signalled s s1
    generalize note s s1 = s2 at hexec hs2
    obtain ⟨hstores2, hchart2, hstart2⟩ := hs2.device
    obtain ⟨hstage, hstores⟩ := reconcileStage_spec (s := s2) (bad := bs) (by rw [hchart2, hchart]; exact hc)
      (by rw [hstart2, hstart]; exact ht)
    obtain ⟨t, hgo, q, b, p, l, rfl⟩ := noted_signalled hexec
    have hstores' := hstores.trans hstores2
    refine ⟨_, hgo, hstage, (congrArg (·.2.1) hstores').trans hmem, fun v h => ?_, (congrArg (·.1) hstores').trans hcores⟩
    have hvaults : (reconcileStage s2 bs).vaults = s1.vaults := congrArg (·.2.2) hstores'
    exact (congrArg (fun m => (Sparse.get Vault.init m v).out) hvaults).trans (hout v h)
  · have hexec : execLinkStageEnd s = noted s _ := congrArg (noted s) (congrArg _ (if_neg (not_not.2 h5)))
    obtain ⟨t, ht, q, b, p, l, rfl⟩ := noted_signalled hexec
    exact ⟨_, ht, rfl, rfl, rfl⟩
  · have hexec : execLinkStageEnd s = noted s (.next s) := congrArg (noted s) (congrArg _ (if_pos h5))
    exact noted_same hexec
  · have hexec : execStartTimeout s = noted s _ := congrArg (noted s) (congrArg _ (if_pos ⟨h2, h4⟩))
    obtain ⟨t, ht, q, b, p, l, rfl⟩ := noted_signalled hexec
    exact ⟨_, ht, rfl, rfl, rfl⟩
  · have hexec : execStartTimeout s = noted s (.next s) := congrArg (noted s) (congrArg _ (if_neg (by omega)))
    exact noted_same hexec

end Sys2Proof.Machine

/-! ### The low-power states (R436 to R442) -/

namespace Sys2Proof.Machine

/-! #### The power request (R437) -/

section
variable {s : State} {v : W32}

/-- The power registers with the fields of a request. -/
def PowerRegs.requested (p : PowerRegs) (w : Nat) : PowerRegs :=
  { p with pcap := bitsOf w 0 12, lpmax := min 2 (bitsOf w 12 2), park := bitOf w 14, l2idle := max 1 (bitsOf w 16 8),
           l3idle := bitsOf w 24 8 }

/-- `t` is `s` with a request in its power registers, whose entry and wake may have begun. -/
def PwrAsked (s : State) (p : PowerRegs) (t : State) : Prop :=
  ∃ e w : Bool, t = { s with pwr := { p with entering := e, waking := w } }

theorem PwrAsked.startWake {p : PowerRegs} {t : State} (h : PwrAsked s p t) : PwrAsked s p (startWake t) := by
  obtain ⟨e, w, rfl⟩ := h
  rw [Machine.startWake]
  split
  · exact ⟨e, w, rfl⟩
  · exact ⟨e, true, rfl⟩

theorem startWake_asleep {t : State} (h : t.pwr.state ≠ 0) : startWake t = { t with pwr := { t.pwr with waking := true } } := if_neg h

theorem parkRise_asked {p : PowerRegs} {t : State} (h : PwrAsked s p t) : PwrAsked s p (parkRise t) := by
  obtain ⟨e, w, rfl⟩ := h
  rw [parkRise]
  split
  · exact ⟨e, w, rfl⟩
  · exact ⟨true, w, rfl⟩

theorem parkFall_asked {p : PowerRegs} {t : State} (h : PwrAsked s p t) : PwrAsked s p (parkFall t) := by
  obtain ⟨e, w, rfl⟩ := h
  exact PwrAsked.startWake ⟨false, w, rfl⟩

/-- What PARK's edges make of a request. -/
def parkEdge (s : State) (p : PowerRegs) : State :=
  if p.park && !s.pwr.park then parkRise { s with pwr := p } else if s.pwr.park && !p.park then parkFall { s with pwr := p }
  else { s with pwr := p }

theorem parkEdge_asked (s : State) (p : PowerRegs) : PwrAsked s p (parkEdge s p) := by
  have h : PwrAsked s p { s with pwr := p } := ⟨p.entering, p.waking, rfl⟩
  rw [parkEdge]
  split
  · exact parkRise_asked h
  split
  · exact parkFall_asked h
  · exact h

theorem pwrReqWrite_eq (s : State) (v : W32) : pwrReqWrite s v
    = if !(s.pwr.requested v.toNat).park && decide ((s.pwr.requested v.toNat).lpmax < (parkEdge s (s.pwr.requested v.toNat)).pwr.state)
      then startWake (parkEdge s (s.pwr.requested v.toNat)) else parkEdge s (s.pwr.requested v.toNat) := rfl

theorem pwrReqWrite_asked (s : State) (v : W32) : PwrAsked s (s.pwr.requested v.toNat) (pwrReqWrite s v) := by
  rw [pwrReqWrite_eq]
  split
  · exact (parkEdge_asked ..).startWake
  · exact parkEdge_asked ..

end

/-! #### The vaults in self-refresh -/

theorem Sparse.get_eq_or_mem {α : Type} (d : α) (m : Sparse α) (k : Nat) : Sparse.get d m k = d ∨ ∃ e ∈ m, Sparse.get d m k = e.2 := by
  induction m with
  | nil => exact .inl rfl
  | cons e m ih =>
    rw [Sparse.get]
    split
    · exact .inr ⟨e, List.mem_cons_self, rfl⟩
    · exact ih.imp id fun ⟨f, hf, h⟩ => ⟨f, List.mem_cons_of_mem e hf, h⟩

theorem selfRefresh_rows (s : State) (v : Nat) : ((selfRefresh s).vault v).openRows = [] := by
  rcases Sparse.get_eq_or_mem Vault.init (selfRefresh s).vaults v with h | ⟨e, he, h⟩
  · exact (congrArg Vault.openRows h).trans rfl
  · obtain ⟨f, -, rfl⟩ := List.mem_map.1 (List.mem_of_mem_filter he)
    exact congrArg Vault.openRows h

/-! #### The parked-list area (R291, R315, R440) -/

/-- `t` has the device areas where `s` has them. -/
def SameAreas (s t : State) : Prop :=
  t.helm.areaDies = s.helm.areaDies ∧ t.helm.areaMap = s.helm.areaMap ∧ t.chart = s.chart ∧ ∀ v, (t.vault v).out = (s.vault v).out

theorem SameAreas.reserveOf {s t : State} (h : SameAreas s t) (v : Nat) : t.reserveOf v = s.reserveOf v := by
  obtain ⟨-, -, hchart, hout⟩ := h
  have hbad : t.badFrame = s.badFrame := by
    funext f
    rw [State.badFrame, hchart, State.badFrame]
  simp only [State.reserveOf, hout v, State.resvTop, hchart, hbad]

theorem SameAreas.reserveAt {s t : State} (h : SameAreas s t) (d fuel i n : Nat) :
    Machine.reserveAt t d fuel i n = Machine.reserveAt s d fuel i n := by
  induction fuel generalizing i n with
  | zero => rfl
  | succ fuel ih => simp only [Machine.reserveAt, h.reserveOf, ih]

theorem SameAreas.parkFrame {s t : State} (h : SameAreas s t) (k j : Nat) : Machine.parkFrame t k j = Machine.parkFrame s k j := by
  have hres := h.reserveAt
  obtain ⟨hdies, hmap, -, -⟩ := h
  simp only [Machine.parkFrame, State.movedTo, hdies, hmap, hres]

theorem openRow_out (s : State) (a v : Nat) : ((openRow s a).vault v).out = (s.vault v).out := by
  by_cases h : v = physVault a
  · subst h
    have hself : (openRow s a).vault (physVault a) = { s.vault (physVault a) with
        openRows := Sparse.set none (s.vault (physVault a)).openRows (physBank a) (some (physRow a)) } := Sparse.get_set_self ..
    rw [hself]
  · exact congrArg Vault.out (Sparse.get_set_ne Vault.init s.vaults h _)

/-- `t` is `s` with at most the parked-list area's bytes changed, and rows opened. -/
def ParkOnly (s t : State) : Prop :=
  SameAreas s t ∧ t.helm = s.helm ∧ t.cores = s.cores ∧ t.pwr = s.pwr
    ∧ ∀ x, (∀ k j, x / 65536 ≠ parkFrame s k j) → rdByte t.mem x = rdByte s.mem x

theorem ParkOnly.refl (s : State) : ParkOnly s s := ⟨⟨rfl, rfl, rfl, fun _ => rfl⟩, rfl, rfl, rfl, fun _ _ => rfl⟩

theorem ParkOnly.trans {s t u : State} (h : ParkOnly s t) (h' : ParkOnly t u) : ParkOnly s u := by
  have hpark := h.1.parkFrame
  obtain ⟨⟨ha, hb, hc, hd⟩, hhelm, hcores, hpwr, hmem⟩ := h
  obtain ⟨⟨ha', hb', hc', hd'⟩, hhelm', hcores', hpwr', hmem'⟩ := h'
  exact ⟨⟨ha'.trans ha, hb'.trans hb, hc'.trans hc, fun v => (hd' v).trans (hd v)⟩, hhelm'.trans hhelm, hcores'.trans hcores,
    hpwr'.trans hpwr, fun x hx => (hmem' x fun k j => by rw [hpark]; exact hx k j).trans (hmem x hx)⟩

/-- At most 64 bytes of one place of a frame, written with its row opened. -/
theorem ParkOnly.write {s : State} {k j m : Nat} {l : List Byte} (hl : l.length ≤ 64) :
    ParkOnly s (openRow { s with mem := wrBytes s.mem (frameAddr (Machine.parkFrame s k j) + m * 64 % 65536) l }
      (frameAddr (Machine.parkFrame s k j) + m * 64 % 65536)) := by
  refine ⟨⟨rfl, rfl, rfl, fun v => openRow_out _ _ v⟩, rfl, rfl, rfl, fun x hx => ?_⟩
  have hne := hx k j
  refine rdByte_wrBytes_out _ _ _ _ ?_
  rw [frameAddr]
  omega

theorem parkWrite_parkOnly (s : State) (i : Nat) (x : Stream) : ParkOnly s (parkWrite s i x) := by
  have hdata := ParkOnly.write (s := s) (k := i % parkRecords * 64 / 65536 / 7) (j := i % parkRecords * 64 / 65536 % 7)
    (m := i % parkRecords) (l := toBytes 64 x.bits) (by rw [toBytes_length])
  simp only [parkWrite]
  generalize openRow _ (frameAddr (parkFrame s (i % parkRecords * 64 / 65536 / 7) (i % parkRecords * 64 / 65536 % 7))
    + i % parkRecords * 64 % 65536) = s1 at hdata ⊢
  rw [← hdata.1.parkFrame _ 7]
  refine hdata.trans (ParkOnly.write ?_)
  simp

theorem setParked_parkOnly (s : State) (head : Nat) (l : List Stream) : ∃ t, ParkOnly s t
    ∧ s.setParked head l = { t with helm := { t.helm with parked := l, parkHead := head % parkRecords } } := by
  refine ⟨_, ?_, rfl⟩
  have hwrites (is : List Nat) : ∀ t, ParkOnly s t → ParkOnly s (is.foldl (fun s' i => match l[i]? with
      | none => s'
      | some x => if (s.helm.parked)[(head + i + parkRecords - s.helm.parkHead % parkRecords) % parkRecords]? = some x then s'
        else parkWrite s' (head + i) x) t) := by
    induction is with
    | nil => exact fun _ h => h
    | cons i is ih =>
      refine fun t h => ih _ ?_
      dsimp only
      split
      · exact h
      split
      · exact h
      · exact h.trans (parkWrite_parkOnly ..)
  exact hwrites _ s (.refl s)

/-! #### The entry to L3 (R440) -/

theorem poweredDown_st (k : Core) : k.poweredDown.st = .reset := rfl

theorem enterL3_spec (s : State) (auto : Bool) : (enterL3 s auto).pwr = { s.pwr with
      state := 2, entering := false, l3parked := s.active.length, autoEntry := auto }
    ∧ (enterL3 s auto).helm.streams = []
    ∧ (enterL3 s auto).helm.parked = s.active.map (fun e => parkStream e.1 e.2) ++ s.helm.parked
    ∧ (∀ c, ((enterL3 s auto).core c).st = .reset)
    ∧ ∀ x, (∀ k j, x / 65536 ≠ parkFrame s k j) → rdByte (enterL3 s auto).mem x = rdByte s.mem x := by
  obtain ⟨t, ⟨-, hhelm, hcores, hpwr, hmem⟩, ht⟩ := setParked_parkOnly s
    (s.helm.parkHead + parkRecords - s.active.length % parkRecords) (s.active.map (fun e => parkStream e.1 e.2) ++ s.helm.parked)
  refine ⟨?_, rfl, ?_, fun c => ?_, fun x hx => ?_⟩
  · simp only [enterL3, ht]
    exact congrArg (fun p : PowerRegs => { p with state := 2, entering := false, l3parked := s.active.length, autoEntry := auto }) hpwr
  · simp only [enterL3, ht]
    rfl
  · rcases Sparse.get_eq_or_mem Core.init (enterL3 s auto).cores c with h | ⟨e, he, h⟩
    · exact (congrArg Core.st h).trans rfl
    · obtain ⟨f, -, rfl⟩ := List.mem_map.1 (List.mem_of_mem_filter he)
      exact congrArg Core.st h
  · refine Eq.trans ?_ (hmem x hx)
    simp only [enterL3, ht]
    rfl

/-! #### The wake (R441, R442) -/

/-- What a wake keeps. -/
def State.rested (s : State) : Memory × PowerRegs := (s.mem, s.pwr)

theorem discardStored_rested (s : State) (c : Nat) (q : Fin 8) : (discardStored s c q).rested = s.rested := by
  rw [discardStored]
  refine foldl_field State.rested _ ?_ _ s
  exact fun _ _ => rfl

theorem discardAll_rested (s : State) (c : Nat) : (discardAll s c).rested = s.rested := by
  rw [discardAll]
  exact foldl_field State.rested _ (fun s q => discardStored_rested s c q) _ s

theorem setCore_rested (s : State) (c : Nat) (k : Core) : (s.setCore c k).rested = s.rested := rfl

theorem placeCore_rested (s : State) (c pi ri : Nat) (m : Manifest) (img : CoreImage) (atLoad : Bool) :
    (placeCore s c pi ri m img atLoad).rested = s.rested := rfl

theorem wakeCore_rested (s : State) (pi ri : Nat) (m : Manifest) (c : Nat) (img : CoreImage) :
    (wakeCore s pi ri m c img).rested = s.rested := by
  rw [wakeCore]
  split
  · rfl
  · rw [setCore_rested, placeCore_rested, setCore_rested, discardAll_rested]
    rfl

theorem wakeRegion_rested (s : State) (pi ri : Nat) (p : Pattern) (r : Region) : (wakeRegion s pi ri p r).rested = s.rested := by
  have hcores := foldl_field State.rested (fun s i => match r.image.cores[i]? with
    | none => s
    | some img => wakeCore s pi ri p.manifest (r.cores.getD i 0) img) (fun s i => by
      split
      · rfl
      · exact wakeCore_rested ..) (List.range r.cores.length) s
  simp only [wakeRegion]
  split
  · exact hcores
  · exact hcores

theorem wakeCores_rested (s : State) : (wakeCores s).rested = s.rested := by
  refine foldl_field State.rested _ (fun s e => ?_) _ s
  split
  · rfl
  split
  · exact foldl_field State.rested _ (fun s r => wakeRegion_rested ..) _ s
  · rfl

/-- Settles O46: the request's registers are `pwrReqWrite_asked`, the entry to L3 is `enterL3_spec`. -/
theorem lowPowerStatesAreEnteredAndLeft : Obligations.LowPowerStatesAreEnteredAndLeft := by
  intro s
  refine ⟨fun v => ⟨?_, fun hw hp hs hwk h2 => ?_, fun hw hp h0 => ?_⟩, fun b hb => if_pos hb, fun hi => ?_,
    fun hs hi hl h0 he hw => ?_, fun hp he => ⟨fun hd => ?_, fun hd => ?_⟩, fun cause => ⟨fun hp => ?_, fun hp h1 => ?_⟩,
    fun hw => ?_⟩
  · have hexec : execLpmaxWrite v s = noted s (.next (pwrReqWrite s v)) := rfl
    have hasked := pwrReqWrite_asked s v
    have hwake (hp : s.pwr.park = false) (hw : bitOf v.toNat 14 = false) (hl : min 2 (bitsOf v.toNat 12 2) < s.pwr.state) :
        (pwrReqWrite s v).pwr.waking = true := by
      have hedge : parkEdge s (s.pwr.requested v.toNat) = { s with pwr := s.pwr.requested v.toNat } := by
        have hreq : (s.pwr.requested v.toNat).park = false := hw
        simp only [parkEdge, hreq, hp, Bool.false_and, Bool.false_eq_true, if_false]
      have hcond : (!(s.pwr.requested v.toNat).park && decide ((s.pwr.requested v.toNat).lpmax < s.pwr.state)) = true := by
        have hreq : (s.pwr.requested v.toNat).park = false := hw
        rw [hreq, decide_eq_true (by exact hl)]
        rfl
      rw [pwrReqWrite_eq, hedge, if_pos (by exact hcond), startWake_asleep (by exact Nat.ne_of_gt (Nat.zero_lt_of_lt hl))]
    obtain ⟨t, ht, hsig⟩ := noted_signalled hexec
    generalize pwrReqWrite s v = u at hasked hwake hsig
    obtain ⟨e, w, rfl⟩ := hasked
    obtain ⟨q, b, p, l, rfl⟩ := hsig
    exact ⟨_, ht, rfl, rfl, rfl, rfl, rfl, rfl, rfl, hwake⟩
  · have hreq : (s.pwr.requested v.toNat).park = true := hw
    have hrise : pwrReqWrite s v = { s with pwr := { s.pwr.requested v.toNat with entering := true } } := by
      have hno : ¬ (s.serving = false ∨ s.pwr.waking = true ∨ s.pwr.state = 2) := by simp [hs, hwk, h2]
      rw [pwrReqWrite_eq, if_neg (by rw [hreq]; exact Bool.false_ne_true), parkEdge, if_pos (by rw [hreq, hp]; rfl)]
      exact if_neg hno
    have hexec : execParkSet v s = noted s (.next _) := congrArg (noted s) (congrArg _ hrise)
    obtain ⟨t, ht, q, b, p, l, rfl⟩ := noted_signalled hexec
    exact ⟨_, ht, hw, rfl, rfl, rfl⟩
  · have hreq : (s.pwr.requested v.toNat).park = false := hw
    have hfall : parkEdge s (s.pwr.requested v.toNat)
        = { s with pwr := { s.pwr.requested v.toNat with entering := false, waking := true } } := by
      rw [parkEdge, if_neg (by rw [hreq]; exact Bool.false_ne_true), if_pos (by rw [hreq, hp]; rfl)]
      exact startWake_asleep h0
    have hwrite : pwrReqWrite s v = { s with pwr := { s.pwr.requested v.toNat with entering := false, waking := true } } := by
      rw [pwrReqWrite_eq, hfall]
      split
      · exact startWake_asleep h0
      · rfl
    have hexec : execParkClear v s = noted s (.next _) := congrArg (noted s) (congrArg _ hwrite)
    obtain ⟨t, ht, q, b, p, l, rfl⟩ := noted_signalled hexec
    exact ⟨_, ht, hw, rfl, rfl, rfl⟩
  · have hexec : execL2Entry s = noted s (.next s) := congrArg (noted s) (congrArg _ (if_neg (by simp [hi])))
    exact noted_same hexec
  · have hexec : execL2Entry s = noted s _ := congrArg (noted s) (congrArg _ (if_pos (by simp [hs, hi, hl, h0, he, hw])))
    obtain ⟨t, ht, q, b, p, l, rfl⟩ := noted_signalled hexec
    exact ⟨_, ht, rfl, selfRefresh_rows s, rfl, rfl⟩
  · have hexec : execL3Entry s = noted s (.next s) :=
      congrArg (noted s) (congrArg _ ((if_pos (by simp [hp, he])).trans (if_neg (by simp [hd]))))
    exact noted_same hexec
  · have hexec : execL3Entry s = noted s (.next (enterL3 s false)) :=
      congrArg (noted s) (congrArg _ ((if_pos (by simp [hp, he])).trans (if_pos hd)))
    obtain ⟨hpwr, hstreams, hparked, hcores, hmem⟩ := enterL3_spec s false
    obtain ⟨t, ht, hsig⟩ := noted_signalled hexec
    generalize enterL3 s false = u at hpwr hstreams hparked hcores hmem hsig
    obtain ⟨q, b, p, l, rfl⟩ := hsig
    exact ⟨_, ht, congrArg PowerRegs.state hpwr, congrArg PowerRegs.entering hpwr, congrArg PowerRegs.l3parked hpwr, hstreams, hparked,
      hcores, hmem⟩
  · have hexec : execWakeTrigger cause s = noted s (.next s) := congrArg (noted s) (congrArg _ (if_pos hp))
    exact noted_same hexec
  · have hwake : (if s.pwr.park then s else if s.pwr.state = 1 ∨ s.pwr.autoEntry then startWake s else s)
        = { s with pwr := { s.pwr with waking := true } } := by
      rw [if_neg (by rw [hp]; decide), if_pos (.inl h1), startWake_asleep (by rw [h1]; decide)]
    have hexec : execWakeTrigger cause s = noted s (.next _) := congrArg (noted s) (congrArg _ hwake)
    obtain ⟨t, ht, q, b, p, l, rfl⟩ := noted_signalled hexec
    exact ⟨_, ht, rfl, rfl, rfl⟩
  · have hwoken : ∃ u, (if s.pwr.state = 2 then wakeCores s else s) = u ∧ u.rested = s.rested ∧ (s.pwr.state = 1 → u.cores = s.cores) := by
      split
      next h2 => exact ⟨_, rfl, wakeCores_rested s, fun h1 => absurd (h1.symm.trans h2) (by decide)⟩
      next => exact ⟨s, rfl, rfl, fun _ => rfl⟩
    obtain ⟨u, hu, hrested, hcores⟩ := hwoken
    have hexec : execWakeEnd s = noted s (.next { u with pwr := { u.pwr with
        state := 0, waking := false, autoEntry := false, entering := u.pwr.park } }) := by
      rw [execWakeEnd, if_neg (by rw [hw]; decide), hu]
    obtain ⟨t, ht, q, b, p, l, rfl⟩ := noted_signalled hexec
    exact ⟨_, ht, rfl, rfl, congrArg (fun x => x.2.park) hrested, congrArg (·.1) hrested, hcores⟩

end Sys2Proof.Machine

/-! ### Registers: staged writes, strobes, copies and reads (R409, R446 to R458, R477) -/

namespace Sys2Proof.Machine

/-- A change that no status word and no port shows raises no interrupt. -/
theorem note_quiet {s t : State} (hh : s.glbHealth = t.glbHealth) (hs : s.start.stage = t.start.stage)
    (hp : s.glbPwrState = t.glbPwrState) (hports : ∀ p, portChanged s t p = false) : note s t = t := by
  have hfold (l : List (Fin 8)) : ∀ u : State, l.foldl (fun u p => if portChanged s t p then raiseIrq u (8 + p.val) else u) u = u := by
    induction l with
    | nil => exact fun _ => rfl
    | cons p l ih => exact fun u => (ih _).trans (if_neg (by simp [hports p]))
  simp only [note, hh, hs, hp, if_true]
  exact hfold _ t

theorem noted_quiet {s t : State} {o : Host.Outcome State Fault Refusal} (h : o = noted s (.next t)) (hh : s.glbHealth = t.glbHealth)
    (hs : s.start.stage = t.start.stage) (hp : s.glbPwrState = t.glbPwrState) (hports : ∀ p, portChanged s t p = false) :
    o = .next t :=
  h.trans ((noted_next s t).trans (congrArg _ (note_quiet hh hs hp hports)))

theorem portChanged_same (s t : State) (hp : t.ports = s.ports) (hl : t.links = s.links) (p : Fin 8) : portChanged s t p = false := by
  simp [portChanged, State.ethUp, State.nzUp, hp, hl]

theorem noted_stageReg {s : State} {o : Host.Outcome State Fault Refusal} {ofs : Nat} {v : W32}
    (h : o = noted s (.next (stageReg s ofs v))) : o = .next (stageReg s ofs v) :=
  noted_quiet h rfl rfl rfl (portChanged_same s _ rfl rfl)

theorem noted_badHost {s : State} {o : Host.Outcome State Fault Refusal} (h : o = noted s (.next (badHost s))) : o = .next (badHost s) :=
  noted_quiet h rfl rfl rfl (portChanged_same s _ rfl rfl)

/-- A write of TEL_BASE_LO is staged. -/
theorem writeWord_telBase (s : State) (v : W32) : writeWord s .host 0x100010 v = stageReg s 0x100010 v := rfl

/-! #### Strobes (R449, R450) -/

/-- The groups that one bit of UPD_STROBE names. -/
theorem strobeGroups_one (g : Fin 16) :
    (List.range 16).filter (fun x => isGroup x && bitOf (2 ^ g.val) x) = if isGroup g.val then [g.val] else [] := by
  revert g
  decide

section
variable (s : State) (g : Nat)

/-- The strobes that a group sends to its blocks. -/
def strobesOf : List (Nat × Nat × List (Nat × W32)) :=
  (groupBlocks g).filterMap (fun b => if (s.stagedFor g b).isEmpty then none else some (b, g, s.stagedFor g b))

/-- The state after a strobe of a group with something staged. -/
def struck : State :=
  ({ s with reg := { s.reg with
      staged := s.reg.staged.filter (fun e => !((groupBlocks g).any (fun b => inGroup g b e.1))),
      strobed := s.reg.strobed ++ strobesOf s g } }).emit (.strobe g)

variable {s g}

theorem strobe_nothing (h : strobesOf s g = []) : strobe s g = s := if_pos (by exact (List.isEmpty_iff.2 h))

theorem strobe_sends (h : strobesOf s g ≠ []) : strobe s g = struck s g :=
  if_neg (by exact fun hx => h (List.isEmpty_iff.1 hx))

/-- What was staged for a group's blocks has gone with the strobe. -/
theorem struck_staged {b : Nat} (hb : b ∈ groupBlocks g) : (struck s g).stagedFor g b = [] := by
  refine List.filterMap_eq_nil_iff.2 fun e he => if_neg fun hin => ?_
  have hnone := List.of_mem_filter he
  rw [Bool.not_eq_true', List.any_eq_false] at hnone
  exact hnone b hb hin

theorem updStrobe_priv {g : Fin 16} (hg : isGroup g.val = true) : updStrobe s .priv (2 ^ g.val) = strobe s g.val := by
  simp only [updStrobe, strobeGroups_one, hg, if_true]
  rfl

/-- A host that names a privileged group is denied. -/
theorem updStrobe_denied {v : View} (hv : v ≠ .priv) {g : Fin 16} (hg : isGroup g.val = true) (h0 : g ≠ 0) :
    updStrobe s v (2 ^ g.val) = denyHost s := by
  have hbit : bitOf (2 ^ g.val) 0 = false := by
    revert g
    decide
  have hne : g.val ≠ 0 := fun h => h0 (Fin.ext h)
  simp [updStrobe, strobeGroups_one, hg, hv, hbit, hne]

theorem updStrobe_host (v : View) : updStrobe s v (2 ^ 0) = strobe s 0 := by
  have hgroups : (List.range 16).filter (fun x => isGroup x && bitOf (2 ^ 0) x) = [0] := strobeGroups_one 0
  have hbit : bitOf (2 ^ 0) 0 = true := by decide
  simp only [updStrobe, hgroups, hbit]
  split <;> rfl

end

/-- The two Helms' tables are staged together. -/
theorem stagedFor_helms (s : State) : s.stagedFor 4 3 = s.stagedFor 4 2 := by simp [State.stagedFor, inGroup]

theorem mem_groupBlocks_thresh (k : Fin 4) : 4 + k.val ∈ groupBlocks 5 := by
  revert k
  decide

theorem groupBlocks_port (p : Fin 8) : groupBlocks (8 + p.val) = [4 + p.val / 2] := by
  revert p
  decide

/-- Thresholds are taken where both are in range (R275, R477). -/
theorem applyThresh_one (s : State) (k : Fin 4) (o : Nat) (v : W32) : (applyThresh s k [(o, v)]).pd k
    = if threshOk (bitsOf v.toNat 0 11) = true ∧ threshOk (bitsOf v.toNat 16 11) = true
      then { s.pd k with threshA := bitsOf v.toNat 0 11, threshB := bitsOf v.toNat 16 11 } else s.pd k := by
  simp only [applyThresh, List.all_cons, List.all_nil, Bool.and_true, Bool.and_eq_true]
  split
  · exact pd_setPd_self ..
  · rfl

/-! #### Copies of counters (R453, R468) -/

section
variable {α : Type} [DecidableEq α] (d : α) (k : Nat)

theorem get_foldl_set_absent (l m : Sparse α) (h : ∀ e ∈ l, e.1 ≠ k) :
    Sparse.get d (l.foldl (fun m e => Sparse.set d m e.1 e.2) m) k = Sparse.get d m k := by
  induction l generalizing m with
  | nil => rfl
  | cons e l ih =>
    rw [List.foldl_cons, ih _ fun f hf => h f (List.mem_cons_of_mem e hf)]
    exact Sparse.get_set_ne d m (Ne.symm (h e List.mem_cons_self)) e.2

/-- Writing the entries of a canonical map, one by one, into one that does not list the key. -/
theorem get_foldl_set (l m : Sparse α) (hl : l.Pairwise (fun a b => a.1 < b.1)) (hm : Sparse.get d m k = d) :
    Sparse.get d (l.foldl (fun m e => Sparse.set d m e.1 e.2) m) k = Sparse.get d l k := by
  induction l generalizing m with
  | nil => exact hm
  | cons e l ih =>
    obtain ⟨he, hl⟩ := List.pairwise_cons.1 hl
    rw [List.foldl_cons, Sparse.get]
    by_cases hk : e.1 = k
    · rw [if_pos hk, get_foldl_set_absent d k l _ fun f hf => by have := he f hf; omega, hk, Sparse.get_set_self]
    · rw [if_neg hk]
      exact ih _ hl ((Sparse.get_set_ne d m (Ne.symm hk) e.2).trans hm)

end

/-- A port die's counters lie in its first 64 KiB. -/
theorem lt_of_portCtrBits {rel : Nat} (h : portCtrBits rel ≠ 0) : rel < 0x10000 := by
  by_contra hge
  refine h ?_
  simp only [portCtrBits, List.mem_cons, List.not_mem_nil, or_false]
  rw [if_neg (by omega), if_neg (by omega)]

theorem ctrHeld_snapBlock {s : State} {b rel : Nat} (hb : 4 ≤ b) (hb8 : b < 8) (hr : ctrBits b rel ≠ 0)
    (hc : Sparse.wf 0 s.reg.ctrs = true) : (snapBlock s b).ctrHeld b rel = s.countNow b rel := by
  have hrel : rel < 0x10000 := by
    refine lt_of_portCtrBits ?_
    rwa [ctrBits, if_neg (by omega), if_neg (by omega), if_neg (by omega), if_pos hb8] at hr
  have htime : timeDriven b rel = false := by simp [timeDriven]; omega
  have hnow : s.countNow b rel = s.ctr (blockBase b + rel) := by
    rw [State.countNow, if_neg (by omega), if_neg (by omega), if_neg (by omega), if_neg (by omega)]
  have hderived : derivedCtrs b = [] := by rw [derivedCtrs, if_neg (by omega), if_neg (by omega)]
  have hoff (x : Nat) : s.recordOff b x = false := by rw [State.recordOff, if_pos (.inl hb8)]
  have hheld : heldOf s b = s.reg.ctrs.filter (fun e => decide (blockBase b ≤ e.1 ∧ e.1 < blockBase b + 0x10000)) := by
    simp only [heldOf, hderived, List.foldl_nil, hoff, Bool.not_false, Bool.and_true]
  have hsorted : (heldOf s b).Pairwise (fun a b => a.1 < b.1) := by
    rw [hheld]
    exact ((Sparse.wf_iff 0 s.reg.ctrs).1 hc).1.filter _
  rw [State.ctrHeld, htime, hnow]
  refine (get_foldl_set 0 _ _ _ hsorted ?_).trans ?_
  · exact Sparse.get_filter_drop 0 _ _ _ fun e _ he => by simp [he]; omega
  · rw [hheld]
    exact Sparse.get_filter 0 _ _ _ fun e _ he => by simp [he]; omega

/-! #### Reads (R409, R452) -/

theorem readWord_counter {s : State} {vw : View} {o : W32} {b : Nat} (hvw : vw ≠ .bar2) (hb : blockOf (o.toNat / 4 * 4) = some b)
    (hs : s.serves b = true) (hrel : o.toNat / 4 * 4 - blockBase b < 0x10000) (hw : ctrBits b (o.toNat / 4 * 4 - blockBase b) = 64)
    (ht : timeDriven b (o.toNat / 4 * 4 - blockBase b) = false) (ho : s.recordOff b (o.toNat / 4 * 4 - blockBase b) = false) :
    readWord s vw o = (latchShadow s vw (o.toNat / 4 * 4)
      (BitVec.ofNat 32 ((s.countNow b (o.toNat / 4 * 4 - blockBase b)).toNat / 2 ^ 32)),
      (s.countNow b (o.toNat / 4 * 4 - blockBase b)).toNat % 2 ^ 32) := by
  generalize hx : o.toNat / 4 * 4 = x at *
  generalize hr : x - blockBase b = rel at *
  have hlive : s.ctrLive b rel = s.countNow b rel := by simp [State.ctrLive, ho, ht]
  simp [readWord, hvw, hx, hb, hr, hs, hrel, readLive, readCtr, hw, ht, hlive]

theorem readWord_denied {s : State} {o : W32} {b : Nat} (hb : blockOf (o.toNat / 4 * 4) = some b) (hs : s.serves b = true)
    (hp : 0x20000 ≤ o.toNat / 4 * 4 - blockBase b) (hr : (s.privReg b (o.toNat / 4 * 4 - blockBase b)).isSome = true) :
    readWord s .host o = (denyHost s, 0) := by
  obtain ⟨x, hx⟩ := Option.isSome_iff_exists.1 hr
  have h1 : ¬ o.toNat / 4 * 4 - blockBase b < 0x10000 := by omega
  have h2 : ¬ o.toNat / 4 * 4 - blockBase b < 0x20000 := by omega
  simp [readWord, hb, hs, h1, h2, hx]

theorem bar0PrivAccess_denied {s : State} {o : W32} {b : Nat} (hb : blockOf (o.toNat / 4 * 4) = some b) (hs : s.serves b = true)
    (hp : 0x20000 ≤ o.toNat / 4 * 4 - blockBase b) (hr : (s.privReg b (o.toNat / 4 * 4 - blockBase b)).isSome = true) (w : Bool) :
    exec (.bar0PrivAccess o w) s = .next (if w then denyHost s else (denyHost s).emit (.readData 0)) := by
  change execBar0PrivAccess o w s = _
  rw [execBar0PrivAccess, hb]
  have hin : (true && decide (0x20000 ≤ o.toNat / 4 * 4 - blockBase b)) = true := by rw [decide_eq_true hp]; rfl
  dsimp only [Option.getD, Option.isSome]
  simp only [hin, if_true, readWord_denied hb hs hp hr]

/-! #### The telemetry ring's control (R457, R458) -/

theorem bitOf_eq_getLsbD (v : W32) (i : Nat) : bitOf v.toNat i = v.getLsbD i := by
  simp [bitOf, BitVec.getLsbD, Nat.testBit_eq_decide_div_mod_eq]

theorem bitOf_mask (v : W32) : bitOf (v.toNat / 2 ^ 16) 0 = v.getLsbD 16 := by
  simp [bitOf, BitVec.getLsbD, Nat.testBit_eq_decide_div_mod_eq]

/-- A write whose mask names ENABLE sets it as given, unless it would set it while TEL_SIZE is reserved. -/
theorem telCtrlWrite_enable {s : State} {v : W32} (h16 : v.getLsbD 16 = true) (h : v.getLsbD 0 = true → s.host.telN ≠ 0) :
    ∃ n, telCtrlWrite s v = { s with host := { s.host with telEnable := v.getLsbD 0, telThresh := n } } := by
  have hgo : ¬ (bitOf (v.toNat / 2 ^ 16) 0 && bitOf v.toNat 0 && decide (s.host.telN = 0)) = true := by
    rw [bitOf_mask, bitOf_eq_getLsbD, h16]
    simpa using h
  have hen : (if bitOf (v.toNat / 2 ^ 16) 0 then bitOf v.toNat 0 else s.host.telEnable) = v.getLsbD 0 := by
    rw [bitOf_mask, h16, if_pos rfl, bitOf_eq_getLsbD]
  have hwrite : telCtrlWrite s v = _ := if_neg hgo
  rw [hen] at hwrite
  exact ⟨_, hwrite⟩

/-- Settles O44: a lemma for each kind of write, strobe, read and copy. -/
theorem registersAreStagedStrobedAndCopied : Obligations.RegistersAreStagedStrobedAndCopied := by
  intro s
  refine ⟨fun v => ⟨?_, ?_, fun vw o => ?_⟩, fun h vw hvw => ?_, fun h vw hvw => ?_, fun p => ⟨?_, ?_, ?_⟩, fun h => ?_, fun k h => ?_,
    fun p h => ?_, fun b g e hb he => ?_, fun k o v => ?_, fun vw o b hvw hb hs hrel hw ht ho => ?_, fun o b hb hs hp hr => ⟨?_, ?_⟩,
    fun b hb hs => ⟨?_, fun h => ?_, fun h => ?_⟩, fun b rel hb hb8 hr hc _ => ctrHeld_snapBlock hb hb8 hr hc,
    fun v => ⟨fun h0 h16 => ⟨fun hn => ?_, fun hn => ?_⟩, fun h0 h16 => ?_, fun h => ?_, fun h => ?_⟩⟩
  · exact noted_stageReg (congrArg (noted s) (congrArg Host.Outcome.next (writeWord_telBase s v)))
  · exact noted_stageReg (congrArg (noted s) (congrArg Host.Outcome.next (writeWord_telBase s v)))
  · exact noted_badHost rfl
  · have hnone : strobesOf s 0 = [] := by simp [strobesOf, groupBlocks, h]
    exact congrArg Host.Outcome.next ((updStrobe_host vw).trans (strobe_nothing hnone))
  · have hsome : strobesOf s 0 = [(1, 0, s.stagedFor 0 1)] := by simp [strobesOf, groupBlocks, h]
    refine ⟨_, congrArg Host.Outcome.next ((updStrobe_host vw).trans (strobe_sends (by simp [hsome]))), rfl, ?_,
      struck_staged (by decide), rfl⟩
    rw [← hsome]
    rfl
  · exact congrArg Host.Outcome.next (updStrobe_denied (g := 4) (by decide) (by decide) (by decide))
  · exact congrArg Host.Outcome.next (updStrobe_denied (g := 5) (by decide) (by decide) (by decide))
  · exact congrArg Host.Outcome.next (updStrobe_denied (g := ⟨8 + p.val, by omega⟩) (by decide) (by simp [isGroup]; omega) (Fin.ne_of_val_ne (by change 8 + p.val ≠ 0; omega)))
  · have hsome : strobesOf s 4 = [(2, 4, s.stagedFor 4 2), (3, 4, s.stagedFor 4 3)] := by
      simp [strobesOf, groupBlocks, h, stagedFor_helms]
    refine ⟨_, congrArg Host.Outcome.next ((updStrobe_priv (g := 4) (by decide)).trans (strobe_sends (g := 4) (by simp [hsome]))), ?_,
      struck_staged (by decide), rfl⟩
    rw [← hsome]
    rfl
  · have hmem : (4 + k.val, 5, s.stagedFor 5 (4 + k.val)) ∈ strobesOf s 5 :=
      List.mem_filterMap.2 ⟨4 + k.val, mem_groupBlocks_thresh k, by simp [h]⟩
    refine ⟨_, congrArg Host.Outcome.next ((updStrobe_priv (g := 5) (by decide)).trans (strobe_sends (g := 5) (List.ne_nil_of_mem hmem))),
      List.mem_append_right _ hmem, struck_staged (mem_groupBlocks_thresh k), rfl⟩
  · have hsome : strobesOf s (8 + p.val) = [(4 + p.val / 2, 8 + p.val, s.stagedFor (8 + p.val) (4 + p.val / 2))] := by
      simp [strobesOf, groupBlocks_port, h]
    refine ⟨_, congrArg Host.Outcome.next ((updStrobe_priv (g := ⟨8 + p.val, by omega⟩) (by simp [isGroup]; omega)).trans
      (strobe_sends (by simp [hsome]))), ?_, rfl⟩
    rw [← hsome]
    rfl
  · change onBlock b _ = _
    rw [onBlock, if_pos hb, he]
  · exact applyThresh_one s k o v
  · exact congrArg (fun r : State × Nat => Host.Outcome.next (r.1.emit (.readData r.2))) (readWord_counter hvw hb hs hrel hw ht ho)
  · exact bar0PrivAccess_denied hb hs hp hr true
  · exact bar0PrivAccess_denied hb hs hp hr false
  · exact (if_pos hb).trans (congrArg _ (if_pos hs))
  · exact (if_pos hb).trans (congrArg _ ((if_neg (by simp [hs])).trans (if_neg h)))
  · subst h
    change onBlock 0 (blkSnap s 0) = _
    rw [onBlock, if_pos hb]
    exact congrArg _ ((if_neg (by simp [hs])).trans (if_pos rfl))
  · refine congrArg Host.Outcome.next (if_pos ?_)
    rw [bitOf_mask, bitOf_eq_getLsbD, h0, h16, hn]
    rfl
  · obtain ⟨n, h⟩ := telCtrlWrite_enable h16 fun _ => hn
    exact ⟨n, congrArg Host.Outcome.next (h.trans (by rw [h0]))⟩
  · obtain ⟨n, h⟩ := telCtrlWrite_enable (s := s) h16 fun h1 => absurd (h0.symm.trans h1) Bool.false_ne_true
    exact ⟨n, congrArg Host.Outcome.next (h.trans (by rw [h0]))⟩
  · exact congrArg Host.Outcome.next (if_neg (Nat.not_lt.2 h))
  · exact congrArg Host.Outcome.next (if_pos h)

end Sys2Proof.Machine

/-! ### Losses of clocks, hangs and preemptions (R30, R279 to R284, R333) -/

namespace Sys2Proof.Machine

/-! #### A die's cores are lost (R333) -/

/-- Every core of a list is lost with its die. -/
def coresLost (l : List Nat) (s : State) : State := l.foldl (fun s c => s.setCore c (s.core c).lostWithDie) s

theorem coresLost_reset (l : List Nat) (s : State) {c : Nat} (h : c ∈ l ∨ (s.core c).st = .reset) :
    ((coresLost l s).core c).st = .reset := by
  induction l generalizing s with
  | nil => exact h.resolve_left List.not_mem_nil
  | cons d l ih =>
    refine ih _ ?_
    by_cases hcd : c = d
    · rw [hcd, core_setCore_self]
      exact .inr rfl
    · rw [core_setCore_ne s hcd]
      exact h.imp_left fun h => (List.mem_cons.1 h).resolve_left hcd

theorem coresLost_other (l : List Nat) (s : State) {c : Nat} (h : c ∉ l) : (coresLost l s).core c = s.core c := by
  induction l generalizing s with
  | nil => rfl
  | cons d l ih =>
    obtain ⟨hd, hl⟩ := not_or.1 (fun hx => h (List.mem_cons.2 hx))
    exact (ih _ hl).trans (core_setCore_ne s hd _)

theorem coresLost_frame (l : List Nat) (s : State) : (coresLost l s).helm = s.helm ∧ (coresLost l s).mem = s.mem := by
  refine ⟨foldl_field State.helm _ ?_ l s, foldl_field State.mem _ ?_ l s⟩ <;> exact fun _ _ => rfl

theorem stores_core {s t : State} (h : t.stores = s.stores) (c : Nat) : t.core c = s.core c := by
  have hcores : t.cores = s.cores := congrArg (·.1) h
  rw [State.core, hcores]
  rfl

theorem stores_mem {s t : State} (h : t.stores = s.stores) : t.mem = s.mem := congrArg (·.2.1) h

theorem loseAbsent_noPattern {s : State} (h : s.helm.pats = []) : loseAbsent s = s := by
  rw [loseAbsent, State.regionsWith, h]
  rfl

theorem loseKv_noStream {s : State} (h : s.helm.streams = []) (d : Nat) : loseKv s d = s := by
  rw [loseKv, h]
  rfl

/-- Retiring a die moves no Pattern and no stream. -/
theorem absentMore_pats (d n : Nat) (s : State) : (absentMore d n s).helm.pats = s.helm.pats ∧ (absentMore d n s).helm.streams = s.helm.streams := by
  induction n generalizing s with
  | zero => exact ⟨rfl, rfl⟩
  | succ n ih =>
    rw [absentMore]
    split
    · exact ⟨rfl, rfl⟩
    · exact ih _

theorem retireDie_spec {s : State} {d : Nat} (h : s.dieIn d = true) : (retireDie s d).dieIn d = false
    ∧ (retireDie s d).helm.pats = s.helm.pats ∧ (retireDie s d).helm.streams = s.helm.streams := by
  have hmore := absentMore_pats d 176 s
  rw [retireDie, if_neg (by simp [h])]
  generalize absentMore d 176 s = u at hmore
  have hout : (!Sparse.get false (Sparse.set false u.helm.diesOut d true) d) = false := by rw [Sparse.get_set_self]; rfl
  dsimp only
  split <;> exact ⟨hout, hmore⟩

/-- A die's cores are lost and the loss is noted. -/
def lostDie (r : State) (d : Nat) : State :=
  { coresLost (dieCores d) r with helm := { (coresLost (dieCores d) r).helm with
      diesLost := Sparse.set false (coresLost (dieCores d) r).helm.diesLost d true } }

/-- What noting the loss of a die leaves. -/
theorem notedLoss_frame (u : State) (d : Nat) :
    let v : State := { u with helm := { u.helm with diesLost := Sparse.set false u.helm.diesLost d true } }
    v.helm.diesOut = u.helm.diesOut ∧ v.helm.pats = u.helm.pats ∧ v.helm.streams = u.helm.streams
      ∧ Sparse.get false v.helm.diesLost d = true ∧ (∀ c, v.core c = u.core c) ∧ v.mem = u.mem :=
  ⟨rfl, rfl, rfl, Sparse.get_set_self false u.helm.diesLost d true, fun _ => rfl, rfl⟩

theorem lostDie_pats {r : State} {d : Nat} (hp : r.helm.pats = []) (hs : r.helm.streams = []) :
    (lostDie r d).helm.pats = [] ∧ (lostDie r d).helm.streams = [] := by
  obtain ⟨-, hpats, hstreams, -⟩ := notedLoss_frame (coresLost (dieCores d) r) d
  obtain ⟨hhelm, -⟩ := coresLost_frame (dieCores d) r
  rw [hhelm] at hpats hstreams
  exact ⟨hpats.trans hp, hstreams.trans hs⟩

theorem lostDie_spec (r : State) (d : Nat) : (lostDie r d).helm.diesOut = r.helm.diesOut
    ∧ Sparse.get false (lostDie r d).helm.diesLost d = true ∧ (∀ c, c ∈ dieCores d → ((lostDie r d).core c).st = .reset)
    ∧ (∀ c, c ∉ dieCores d → (lostDie r d).core c = r.core c) ∧ (lostDie r d).mem = r.mem := by
  obtain ⟨hdies, -, -, hlost, hcore, hmem⟩ := notedLoss_frame (coresLost (dieCores d) r) d
  obtain ⟨hhelm, hmem'⟩ := coresLost_frame (dieCores d) r
  refine ⟨hdies.trans (by rw [hhelm]), hlost, fun c h => ?_, fun c h => ?_, hmem.trans hmem'⟩
  · exact (congrArg Core.st (hcore c)).trans (coresLost_reset (dieCores d) r (.inl h))
  · exact (hcore c).trans (coresLost_other (dieCores d) r h)

theorem execComputePllLoss_in {s : State} {d : Nat} (hd : d < 24) (hin : s.dieIn d = true) :
    execComputePllLoss d s = noted s (.next (loseKv (loseAbsent (lostDie (retireDie s d) d)) d)) := by
  rw [execComputePllLoss, if_neg (Nat.not_le.2 hd), if_neg (by simp [hin])]
  rfl

/-- The loss of a die's clock ends in the state given, signalled. -/
theorem computePllLoss_end {s v : State} {d : Nat} (h : execComputePllLoss d s = noted s (.next v)) (hin : v.dieIn d = false)
    (hlost : Sparse.get false v.helm.diesLost d = true) (hreset : ∀ c, c ∈ dieCores d → (v.core c).st = .reset)
    (hother : ∀ c, c ∉ dieCores d → v.core c = s.core c) (hmem : v.mem = s.mem) :
    ∃ t, exec (.computePllLoss d) s = .next t ∧ t.dieIn d = false ∧ Sparse.get false t.helm.diesLost d = true
      ∧ (∀ c, c ∈ dieCores d → (t.core c).st = .reset) ∧ (∀ c, c ∉ dieCores d → t.core c = s.core c) ∧ t.mem = s.mem := by
  obtain ⟨t, ht, q, b, p, l, rfl⟩ := noted_signalled h
  exact ⟨_, ht, hin, hlost, hreset, hother, hmem⟩

/-! #### The reference clock (R30, R421) -/

theorem holdCores_reset (s : State) (c : Nat) : ((holdCores s).core c).st = .reset := by
  rcases Sparse.get_eq_or_mem Core.init (holdCores s).cores c with h | ⟨e, he, h⟩
  · exact (congrArg Core.st h).trans rfl
  · obtain ⟨f, -, rfl⟩ := List.mem_map.1 (List.mem_of_mem_filter he)
    exact congrArg Core.st h

theorem closePorts_down (s : State) (p : Fin 8) : (closePorts s).ethUp p = false ∧ ((closePorts s).links.get p).st = .down := by
  simp [closePorts, State.ethUp, Vector.get_eq_getElem]

/-! #### A running core faulted at one of its engines (R87, R282) -/

theorem faultEngine_stops {s : State} {c : Nat} {eng : Fin 6} (code : Code) (x56 : Nat) (h : (s.core c).st = .running) :
    Stopped s (faultEngine s c eng code x56) c eng.val .faulted code (engineAt (s.core c) eng).1
      ∧ OtherCores c s (faultEngine s c eng code x56) ∧ (faultEngine s c eng code x56).mem = s.mem := by
  have heq : faultEngine s c eng code x56 = coreFault s c eng.val .faulted code (engineAt (s.core c) eng).1
      (engineAt (s.core c) eng).2 (coreDetail (engineAt (s.core c) eng).2 (engineAt (s.core c) eng).1 0xFF 0xFF 0 x56) :=
    if_neg (not_not.2 h)
  rw [heq]
  exact coreFault_stops s c eng.val .faulted code _ _ _ (by rw [h]; decide)

/-- Settles O35: the cores of a lost die, the reference clock, and the fault of a hanging engine are the lemmas above. -/
theorem clockLossesAndHangs : Obligations.ClockLossesAndHangs := by
  intro s
  refine ⟨fun d hd => ⟨fun hin => ?_, fun hin hp hs _ => ?_⟩, fun cause => ⟨fun hl => ?_, fun hl => ?_⟩, fun res c eng hc hr => ?_,
    fun v held waited progress hv => ⟨fun h => ?_, fun hh hw => ?_⟩⟩
  · have hexec : execComputePllLoss d s = noted s (.next s) :=
      (if_neg (Nat.not_le.2 hd)).trans (congrArg (noted s) (congrArg _ (if_pos hin)))
    exact noted_same hexec
  · obtain ⟨hout, hpats, hstreams⟩ := retireDie_spec hin
    obtain ⟨hdies, hlost, hreset, hother, hmem⟩ := lostDie_spec (retireDie s d) d
    have hgo := execComputePllLoss_in hd hin
    obtain ⟨hp', hs'⟩ := lostDie_pats (hpats.trans hp) (hstreams.trans hs) (d := d)
    rw [loseAbsent_noPattern hp', loseKv_noStream hs'] at hgo
    refine computePllLoss_end hgo ?_ hlost hreset (fun c h => (hother c h).trans (stores_core (retireDie_stores s d) c))
      (hmem.trans (stores_mem (retireDie_stores s d)))
    rw [State.dieIn, hdies]
    exact hout
  · have hexec : execRefclkLoss cause s = noted s (.next s) := congrArg (noted s) (congrArg _ (if_pos hl))
    exact noted_same hexec
  · have hexec : execRefclkLoss cause s = noted s _ := congrArg (noted s) (congrArg _ (if_neg (by simp [hl])))
    obtain ⟨t, ht, q, b, p, l, rfl⟩ := noted_signalled hexec
    refine ⟨_, ht, rfl, rfl, closePorts_down s, holdCores_reset (closePorts s), ?_, rfl⟩
    by_cases h : s.start.stage = 7 ∨ s.start.stage = 8
    · rw [if_pos h]
      exact if_pos h
    · rw [if_neg h]
      exact ⟨congrArg StartUp.stage (if_neg h), congrArg StartUp.failcode (if_neg h)⟩
  · obtain ⟨hstop, hothers, hmem⟩ := faultEngine_stops (s := { s with preempted := s.preempted.filter (fun e => decide (e.1 ≠ res)) })
      (eng := eng) .resourceHang 0 hr
    refine ⟨_, ?_, hstop.of_core rfl, hothers, hmem⟩
    change execResourceHang res (.engine c eng) s = _
    rw [execResourceHang]
    exact onCore_ok _ _ _ hc
  · have hok : resourceOk (.vaultPort v) = true := decide_eq_true hv
    exact (if_neg (by simp [hok])).trans (congrArg _ (if_pos h))
  · have hok : resourceOk (.vaultPort v) = true := decide_eq_true hv
    exact (if_neg (by simp [hok])).trans (congrArg _ (if_neg (by omega)))

end Sys2Proof.Machine

/-! ### The event log and the Lodestar pair (R29, R387 to R389, R404, R457, R464, R484) -/

namespace Sys2Proof.Machine

/-! #### Logging changes the host side's ring and interrupts beside the log -/

/-- `t` is `s` but for the interrupts, the ring's head and what is sent to the host. -/
def Reported (s t : State) : Prop :=
  ∃ (q b : BitVec 16) (p : BitVec 32) (n : W32) (l : List Emit),
    t = { s with host := { s.host with irqSeq := q, irqBits := b, pba := p, telHead := n }, out := s.out ++ l }

theorem Signalled.reported {s t : State} (h : Signalled s t) : Reported s t := by
  obtain ⟨q, b, p, l, rfl⟩ := h
  exact ⟨q, b, p, s.host.telHead, l, rfl⟩

theorem Reported.trans {s t u : State} (h : Reported s t) (h' : Reported t u) : Reported s u := by
  obtain ⟨q, b, p, n, l, rfl⟩ := h
  obtain ⟨q', b', p', n', l', rfl⟩ := h'
  exact ⟨q', b', p', n', l ++ l', by simp only [List.append_assoc]⟩

theorem telWrite_reported (s : State) (r : EventRec) : Reported s (telWrite s r) := by
  have hring (n : W32) (e : Emit) : Reported s (({ s with host := { s.host with telHead := n } } : State).emit e) :=
    ⟨s.host.irqSeq, s.host.irqBits, s.host.pba, n, [e], rfl⟩
  rw [telWrite]
  split
  · exact (Signalled.refl s).reported
  dsimp only
  split
  · exact (hring ..).trans (raiseIrq_signalled ..).reported
  · exact hring ..

/-- The log with one more record. -/
def State.logged (s : State) (r : EventRec) : State :=
  { s with log := { s.log with log := Sparse.set none s.log.log (s.log.evNext.toNat % 65536) (some { r with evseq := s.log.evNext }),
                               evNext := s.log.evNext + 1 } }

theorem toLog_reported (s : State) (r : EventRec) : Reported (s.logged r) (toLog s r) := by
  have h := telWrite_reported (s.logged r) { r with evseq := s.log.evNext }
  rw [toLog]
  dsimp only
  split
  · exact h
  · exact h.trans (raiseIrq_signalled ..).reported

/-- A fault, rejection or refusal raises FAULT_EVENT. -/
theorem toLog_fault (s : State) {r : EventRec} (h : r.kind ≠ .event) : (toLog s r).host.irqBits.getLsbD 3 = true := by
  rw [toLog]
  dsimp only
  rw [if_neg h]
  exact raiseIrq_bit _ (by decide)

theorem logged_entry (s : State) (r : EventRec) :
    Sparse.get none (s.logged r).log.log (s.log.evNext.toNat % 65536) = some { r with evseq := s.log.evNext } :=
  Sparse.get_set_self none s.log.log (s.log.evNext.toNat % 65536) (some { r with evseq := s.log.evNext })

/-! #### The port dies without management traffic (R389) -/

theorem closePd_spec (s : State) (k : Fin 4) (p : Fin 8) : if p.val / 2 = k.val
    then (closePd s k).ethUp p = false ∧ ((closePd s k).links.get p).st = .down
    else (closePd s k).ports.get p = s.ports.get p ∧ (closePd s k).links.get p = s.links.get p := by
  by_cases h : p.val / 2 = k.val <;> simp [closePd, State.ethUp, Vector.get_eq_getElem, h]

/-- Settles O41: what is logged and sent is `toLog_reported`; the rest is one branch of each command. -/
theorem eventsAreLoggedInOrder : Obligations.EventsAreLoggedInOrder := by
  intro s
  refine ⟨fun b r rs hb ha hr => ?_, fun b code w hb hw hc hl => ?_, fun b code w hb hw hc => ?_, fun ha => ?_,
    fun ha hs => ⟨?_, fun self => ?_, ?_⟩, fun ha hs => ⟨?_, ?_, ?_⟩, fun k => ⟨fun ha => ?_, fun ha => ?_⟩⟩
  · have hexec : execEventRecordArrival b s
        = .next (toLog (s.setBuf b { s.buf b with recs := rs, lost := 0 }) { r with lost := min 255 (s.buf b).lost }) := by
      rw [execEventRecordArrival, if_neg (by rw [ha]; decide), hr, onBlock, if_pos hb]
    have hfault := toLog_fault (s.setBuf b { s.buf b with recs := rs, lost := 0 }) (r := { r with lost := min 255 (s.buf b).lost })
    have hentry := logged_entry (s.setBuf b { s.buf b with recs := rs, lost := 0 }) { r with lost := min 255 (s.buf b).lost }
    have hbuf := buf_setBuf_self s b { s.buf b with recs := rs, lost := 0 }
    have hrep := toLog_reported (s.setBuf b { s.buf b with recs := rs, lost := 0 }) { r with lost := min 255 (s.buf b).lost }
    generalize toLog _ _ = t at hexec hfault hrep
    obtain ⟨q, bits, p, n, l, rfl⟩ := hrep
    exact ⟨_, hexec, rfl, hentry, congrArg EvBuf.recs hbuf, congrArg EvBuf.lost hbuf, hfault, rfl, rfl⟩
  · change execFoldWindowEnd b code s = _
    rw [execFoldWindowEnd, hw]
    dsimp only
    rw [if_neg hc, EvBuf.push, if_pos hl]
    exact if_pos hb
  · change execFoldWindowEnd b code s = _
    rw [execFoldWindowEnd, hw]
    dsimp only
    rw [if_pos hc]
    exact if_pos hb
  · exact ⟨_, congrArg Host.Outcome.next (if_pos ha), rfl, rfl, rfl, rfl, rfl, rfl⟩
  · exact ⟨_, congrArg Host.Outcome.next (if_pos (by rw [ha, hs]; rfl)), rfl, rfl, rfl, rfl, rfl, rfl⟩
  · have hexec : execLodestarTakeover self s = noted s (.next (takeOver s)) := congrArg (noted s) (congrArg _ (if_pos (by rw [ha, hs]; rfl)))
    obtain ⟨t, ht, hsig⟩ := noted_signalled hexec
    obtain ⟨q, bits, p, n, l, rfl⟩ := (toLog_reported ..).trans hsig.reported
    exact ⟨_, ht, rfl, rfl, rfl, rfl, rfl, rfl, List.mem_append_left _ (List.mem_append_right _ (List.mem_singleton.2 rfl)), rfl, rfl,
      rfl, rfl⟩
  · have hexec : execLodestarStandbyLost s = noted s _ := congrArg (noted s) (congrArg _ (if_pos (by rw [ha, hs]; rfl)))
    obtain ⟨t, ht, q, b, p, l, rfl⟩ := noted_signalled hexec
    exact ⟨_, ht, rfl, rfl, rfl⟩
  · have hexec : execLodestarTakeover false s = noted s (.next s) :=
      congrArg (noted s) (congrArg _ ((if_neg (by simp [hs])).trans (if_neg (by simp))))
    exact noted_same hexec
  · have hexec : execLodestarStandbyLost s = noted s (.next s) := congrArg (noted s) (congrArg _ (if_neg (by simp [hs])))
    exact noted_same hexec
  · have hexec : execLodestarTakeover true s = noted s _ :=
      congrArg (noted s) (congrArg _ ((if_neg (by simp [hs])).trans (if_pos (by simp [ha]))))
    obtain ⟨t, ht, q, b, p, l, rfl⟩ := noted_signalled hexec
    exact ⟨_, ht, rfl, rfl, rfl⟩
  · have hexec : execLodestarSilence k s = noted s (.next s) := congrArg (noted s) (congrArg _ (if_pos ha))
    exact noted_same hexec
  · have hexec : execLodestarSilence k s = noted s _ := congrArg (noted s) (congrArg _ (if_neg (by simp [ha])))
    obtain ⟨t, ht, q, b, p, l, rfl⟩ := noted_signalled hexec
    refine ⟨_, ht, by simp [Vector.get_eq_getElem], rfl, closePd_spec s k⟩

end Sys2Proof.Machine

/-! ### What sending leaves alone (R338 to R340, R367, R375, R376), and what the end of a stream does (R305 to R307) -/

namespace Sys2Proof.Machine

/-! #### The inside of the device: all but its ports, links, counters, log and what it sends -/

/-- The state with the outside blanked: ports, links, connections, counters, log, Lodestar reports and what is sent. -/
def State.inside (s : State) : State :=
  { s with out := [], drawn := 0, reg := RegSt.init, log := { bufs := [], log := [], evNext := 0 }, lode := Lodestar.init 0,
           ports := Vector.replicate 8 EthPort.init, pds := Vector.replicate 4 PortDie.init,
           links := Vector.replicate 8 Link.init, routed := [] }

section
variable {s t : State} (h : t.inside = s.inside)
include h

theorem inside_cores : t.cores = s.cores := by
  change t.inside.cores = s.inside.cores
  rw [h]

theorem inside_mem : t.mem = s.mem := by
  change t.inside.mem = s.inside.mem
  rw [h]

theorem inside_helm : t.helm = s.helm := by
  change t.inside.helm = s.inside.helm
  rw [h]

theorem inside_groups : t.groups = s.groups := by
  change t.inside.groups = s.inside.groups
  rw [h]


end

@[simp] theorem emit_inside (s : State) (e : Emit) : (s.emit e).inside = s.inside := rfl
@[simp] theorem emits_inside (s : State) (l : List Emit) : (s.emits l).inside = s.inside := rfl
@[simp] theorem bump_inside (s : State) (o n : Nat) : (s.bump o n).inside = s.inside := rfl
@[simp] theorem bump32_inside (s : State) (o n : Nat) : (s.bump32 o n).inside = s.inside := rfl
@[simp] theorem logRec_inside (s : State) (r : EventRec) : (s.logRec r).inside = s.inside := rfl
@[simp] theorem event_inside (s : State) (b : Nat) (c : Code) (d : Nat) : (s.event b c d).inside = s.inside := rfl
@[simp] theorem refusal_inside (s : State) (b : Nat) (c : Code) (d : Nat) : (s.refusal b c d).inside = s.inside := rfl
@[simp] theorem setPort_inside (s : State) (p : Fin 8) (x : EthPort) : (s.setPort p x).inside = s.inside := rfl
@[simp] theorem setPd_inside (s : State) (k : Fin 4) (x : PortDie) : (s.setPd k x).inside = s.inside := rfl
@[simp] theorem setConn_inside (s : State) (k : Fin 4) (n : Nat) (x : Option Conn) : (s.setConn k n x).inside = s.inside := rfl

@[simp] theorem setLink_inside (s : State) (i : LinkId) (x : Link) : (s.setLink i x).inside = s.inside := by
  cases i <;> rfl

@[simp] theorem transmit_inside (s : State) (p : Fin 8) (e : Emit) : (s.transmit p e).inside = s.inside := by
  simp only [State.transmit]
  split
  · rfl
  split <;> rfl

@[simp] theorem transmits_inside (s : State) (p : Fin 8) (es : List Emit) : (s.transmits p es).inside = s.inside :=
  foldl_field State.inside _ (fun s e => transmit_inside s p e) es s

@[simp] theorem wireOut_inside (s : State) (i : LinkId) (es : List Emit) : (wireOut s i es).inside = s.inside := by
  cases i with
  | direct l => rfl
  | routed k node slot => exact transmits_inside ..

@[simp] theorem nzOut_inside (s : State) (i : LinkId) (x : Link) (seq : BitVec 16) (vc ftype len : Nat) (msg : Option Emit) :
    (nzOut s i x seq vc ftype len msg).inside = s.inside := by
  rw [nzOut, wireOut_inside, bump_inside, setLink_inside]

@[simp] theorem sendControl_inside (s : State) (i : LinkId) (x : Link) (ftype : Nat) : (sendControl s i x ftype).inside = s.inside :=
  nzOut_inside ..

@[simp] theorem sendFrame_inside (s : State) (i : LinkId) (x : Link) (f : NzFrame) : (sendFrame s i x f).inside = s.inside :=
  nzOut_inside ..

@[simp] theorem pump_inside (i : LinkId) (n : Nat) (s : State) : (pump i n s).inside = s.inside := by
  induction n generalizing s with
  | zero => rfl
  | succ n ih =>
    rw [pump]
    split
    · rfl
    split
    · rfl
    split
    · rfl
    · rw [ih, sendFrame_inside]

@[simp] theorem pumpAll_inside (s : State) (i : LinkId) : (pumpAll s i).inside = s.inside := by
  rw [pumpAll]
  split
  · rfl
  · exact pump_inside ..

@[simp] theorem sendBytes_inside (s : State) (i : LinkId) (vc n : Nat) (e : Emit) : (sendBytes s i vc n e).inside = s.inside := by
  rw [sendBytes]
  split
  · rfl
  · rw [pumpAll_inside, setLink_inside]

@[simp] theorem sendHandshake_inside (s : State) (i : LinkId) (st : LinkState) : (sendHandshake s i st).inside = s.inside := by
  unfold sendHandshake
  split
  · simp only [wireOut_inside, bump_inside, setLink_inside]
    rfl
  · rfl

@[simp] theorem sendBacklog_inside (s : State) (k : Fin 4) (n : Nat) : (sendBacklog s k n).inside = s.inside := by
  rw [sendBacklog]
  split
  · rfl
  · rw [transmits_inside, setConn_inside]

@[simp] theorem respond_inside (s : State) (k : Fin 4) (n kind : Nat) (body : List Byte) : (respond s k n kind body).inside = s.inside := by
  simp only [respond]
  split
  · rfl
  split
  · rw [sendBytes_inside, setConn_inside]
  · rw [sendBacklog_inside, setConn_inside]

@[simp] theorem finalStatus_inside (s : State) (k : Fin 4) (n : Nat) (c : Code) : (finalStatus s k n c).inside = s.inside := by
  simp only [finalStatus]
  split
  · rfl
  split
  · rw [respond_inside]
  split <;> rw [setConn_inside, respond_inside]

@[simp] theorem reportEnd_inside (s : State) (x : Stream) (code : Option Code) : (reportEnd s x code).inside = s.inside := by
  unfold reportEnd
  split
  · rfl
  split
  · rfl
  split
  · rfl
  · exact finalStatus_inside ..

/-! #### Streams end without a word to the cores and the Patterns -/

/-- The cores and the Patterns. -/
def State.workers (s : State) : List (Nat × Core) × Sparse (Option Pattern) := (s.cores, s.helm.pats)

theorem workers_of_inside {s t : State} (h : t.inside = s.inside) : t.workers = s.workers := by
  rw [State.workers, State.workers, inside_cores h, inside_helm h]

@[simp] theorem setStream_workers (s : State) (slot : Nat) (x : Option Stream) : (s.setStream slot x).workers = s.workers := rfl
@[simp] theorem refusal_workers (s : State) (b : Nat) (c : Code) (d : Nat) : (s.refusal b c d).workers = s.workers := rfl
@[simp] theorem setSteps_workers (s : State) (l : List Step) : (s.setSteps l).workers = s.workers := rfl
@[simp] theorem mapSteps_workers (s : State) (f : Step → Step) : (s.mapSteps f).workers = s.workers := rfl

@[simp] theorem reportEnd_workers (s : State) (x : Stream) (code : Option Code) : (reportEnd s x code).workers = s.workers :=
  workers_of_inside (reportEnd_inside ..)

@[simp] theorem endStream_workers (s : State) (slot : Nat) (code : Option Code) : (endStream s slot code).workers = s.workers := by
  rw [endStream]
  split
  · rfl
  split
  · rfl
  split
  · rfl
  · rw [reportEnd_workers, setStream_workers]

@[simp] theorem endStreams_workers (s : State) (slots : List Nat) (code : Option Code) :
    (endStreams s slots code).workers = s.workers := by
  rw [endStreams]
  exact foldl_field State.workers _ (fun s q => endStream_workers s q code) slots s

@[simp] theorem reportEnded_workers (s : State) (slots : List Nat) : (reportEnded s slots).workers = s.workers := by
  refine foldl_field State.workers _ (fun s q => ?_) slots s
  split
  · rfl
  split
  · rw [reportEnd_workers, setStream_workers]
  · rfl

@[simp] theorem setStreams_workers (s : State) (slots : List Nat) (st : StreamState) : (setStreams s slots st).workers = s.workers := by
  refine foldl_field State.workers _ (fun s q => ?_) slots s
  split
  · rfl
  split <;> rfl

theorem lzPut_workers (s : State) (a : Nat) (b : Byte) : (lzPut s a b).workers = s.workers := by
  simp only [lzPut, State.workers, wrMem_frame]

@[simp] theorem lzRelease_workers (s : State) (b n : Nat) : (lzRelease s b n).workers = s.workers := by
  refine foldl_field State.workers _ (fun s i => ?_) _ s
  split
  · rfl
  · exact lzPut_workers ..

@[simp] theorem dropParked_workers (s : State) (x : Stream) (code : Option Code) : (dropParked s x code).workers = s.workers := by
  rw [dropParked]
  split
  · rw [endStream_workers, setStream_workers]
    rfl
  · rw [lzRelease_workers, reportEnd_workers]

@[simp] theorem setParked_workers (s : State) (head : Nat) (l : List Stream) : (s.setParked head l).workers = s.workers := by
  obtain ⟨t, ⟨-, hhelm, hcores, -, -⟩, ht⟩ := setParked_parkOnly s head l
  rw [ht, State.workers, State.workers, ← hcores, ← hhelm]

@[simp] theorem refuseParked_workers (s : State) (pi : Nat) : (refuseParked s pi).workers = s.workers := by
  rw [refuseParked]
  refine (foldl_field State.workers _ (fun s x => ?_) _ _).trans (setParked_workers ..)
  rw [dropParked_workers, refusal_workers]

/-! #### The end of a cancellation (R249) -/

/-- `t` has the cores of `s`, and its Patterns but for the group steps that they wait for. -/
def Settled (s t : State) : Prop :=
  t.cores = s.cores ∧ ∀ pi, (t.pat pi).map (fun p => { p with updateHold := [] }) = (s.pat pi).map (fun p => { p with updateHold := [] })

theorem Settled.of_workers {s t : State} (h : t.workers = s.workers) : Settled s t := by
  have hpats : t.helm.pats = s.helm.pats := congrArg (·.2) h
  exact ⟨congrArg (·.1) h, fun pi => by simp only [State.pat, hpats]⟩

theorem Settled.trans {s t u : State} (h : Settled s t) (h' : Settled t u) : Settled s u :=
  ⟨h'.1.trans h.1, fun pi => (h'.2 pi).trans (h.2 pi)⟩

theorem dropHold_settled (s : State) (pi : Nat) : Settled s (dropHold s pi) := by
  rw [dropHold]
  split
  · exact ⟨rfl, fun _ => rfl⟩
  next p hp =>
    refine ⟨rfl, fun q => ?_⟩
    by_cases hq : q = pi
    · rw [hq, pat_setPat_self, hp]
      rfl
    · rw [pat_setPat_ne s hq]

theorem settle_settled (s : State) : Settled s (settle s) := by
  have hsteps (l : List Step) : ∀ t, Settled s t → Settled s (l.foldl (fun s t =>
      reportEnded (setStreams (dropHold s t.pat) t.slots .ready) t.slots) t) := by
    induction l with
    | nil => exact fun _ h => h
    | cons x l ih =>
      refine fun t h => ih _ (h.trans ((dropHold_settled t x.pat).trans (.of_workers ?_)))
      rw [reportEnded_workers, setStreams_workers]
  exact hsteps _ _ (.of_workers (setSteps_workers ..))

theorem drainDone_settled (s : State) (pi : Nat) : Settled s (drainDone s pi) := by
  simp only [drainDone]
  split
  · exact settle_settled s
  split
  · refine Settled.trans (.of_workers ?_) (settle_settled _)
    rfl
  · exact .of_workers rfl

theorem haltSteps_settled (s : State) (pi : Nat) (p : Pattern) (ph : Step → StepPhase) : Settled s (haltSteps s pi p ph) := by
  simp only [haltSteps]
  refine Settled.trans (.of_workers ?_) (drainDone_settled _ pi)
  split <;> rfl

end Sys2Proof.Machine

/-! ### Sealed commands and attestation (R404 to R409, R426, R430, R460, R462) -/

namespace Sys2Proof.Machine

/-! #### The end of a sealed command -/

section
variable (s : State) (op : Nat) (code : Code) (data : List Byte) (tk : Bool)

/-- `s` with the end of a sealed command logged and counted. -/
def State.sealedLogged : State :=
  let t := s.event 0 .sealedCmd (op + codeValue code * 2 ^ 16 + b2n tk * 2 ^ 32)
  { t with lode := { t.lode with bells := t.lode.bells.drop 1, committed := t.lode.committed + b2n (decide (code = .scOk)) } }

variable {s} in
/-- The mailbox stands: MBX_DONE rises on the result. -/
theorem sealedEnd_mailbox (h : s.lode.bells = [] ∨ (s.lode.bells.head?.map (·.2)) = some true) : sealedEnd s op code data tk
    = raiseIrq (newChallenge { s.sealedLogged op code tk with
        host := { s.host with result := resultBytes op code tk data, cmdBusy := false } }) 0 := by
  rw [sealedEnd]
  dsimp only
  split
  · exact if_pos rfl
  next b bs hb =>
    rw [hb] at h
    exact if_pos (Option.some.inj (h.resolve_left (List.cons_ne_nil b bs)))

variable {s} in
/-- The mailbox has been cleared: there is a new challenge all the same. -/
theorem sealedEnd_noMailbox (h : ¬ (s.lode.bells = [] ∨ (s.lode.bells.head?.map (·.2)) = some true)) :
    sealedEnd s op code data tk = newChallenge (s.sealedLogged op code tk) := by
  rw [sealedEnd]
  dsimp only
  split
  next hb => exact absurd (.inl hb) h
  next b bs hb =>
    refine if_neg fun h2 => h (.inr ?_)
    rw [hb]
    exact congrArg some h2

/-- `t` is `s` but for the host side, the log, and what the Lodestar holds of its commands. -/
def SealEnded (s t : State) : Prop :=
  ∃ (h : HostIf) (b : List (BitVec 256 × Bool)) (n : Nat) (ch : BitVec 256) (l : LogSt) (d : Nat) (o : List Emit),
    t = { s with host := h, lode := { s.lode with bells := b, committed := n, challenge := ch }, log := l, drawn := d, out := o }

theorem sealedEnd_frame : SealEnded s (sealedEnd s op code data tk) := by
  by_cases h : s.lode.bells = [] ∨ (s.lode.bells.head?.map (·.2)) = some true
  · rw [sealedEnd_mailbox op code data tk h]
    obtain ⟨q, i, p, o, h⟩ := raiseIrq_signalled (newChallenge { s.sealedLogged op code tk with
      host := { s.host with result := resultBytes op code tk data, cmdBusy := false } }) 0
    exact ⟨_, _, _, _, _, _, _, h⟩
  · rw [sealedEnd_noMailbox op code data tk h]
    exact ⟨_, _, _, _, _, _, _, rfl⟩

end

/-! #### A sealed command that passes its checks -/

section
variable {s : State} {c : Sealed} {op : Nat} {f : SealedEffect} (ha : s.lode.activeOk = true)
include ha

theorem sealedRun_fails {code : Code} (h : sealedCheck s c op = some code) :
    sealedRun s c op f = sealedEnd s c.opcode code [] false := by
  rw [sealedRun, if_neg (by rw [ha]; decide), h]

theorem sealedRun_refuses (h : sealedCheck s c op = none) {code : Code} (hf : f s = .error code) :
    sealedRun s c op f = sealedEnd s op code [] false := by
  rw [sealedRun, if_neg (by rw [ha]; decide), h]
  dsimp only
  rw [hf]

theorem sealedRun_commits (h : sealedCheck s c op = none) {t : State} {data : List Byte} (hf : f s = .ok (t, data)) :
    sealedRun s c op f = sealedEnd t op .scOk data false := by
  rw [sealedRun, if_neg (by rw [ha]; decide), h]
  dsimp only
  rw [hf]

end

/-- Each of the 32 registers of the slot table may be written by REG_WRITE, which stages it (R406, R474). -/
theorem slotTable_writable {r : Nat} (hr : r < 32) : regWritable (BitVec.ofNat 32 (0x220000 + 4 * r)) = true := by
  revert hr; revert r; decide

theorem writeWord_slotTable {s : State} (h2 : 2 ≤ s.start.stage) (h8 : s.start.stage ≠ 8) {r : Nat} (hr : r < 32) (v : W32) :
    writeWord s .priv (BitVec.ofNat 32 (0x220000 + 4 * r)) v = stageReg s (0x220000 + 4 * r) v := by
  have hat : (BitVec.ofNat 32 (0x220000 + 4 * r)).toNat / 4 * 4 = 0x220000 + 4 * r := by
    rw [BitVec.toNat_ofNat, Nat.mod_eq_of_lt (by omega)]
    omega
  have hblock : blockOf (0x220000 + 4 * r) = some 2 := by
    rw [blockOf, if_pos (by omega)]
    congr 1
    omega
  have hserves : s.serves 2 = true := by simp [State.serves, h2, h8]
  have hrel : 0x220000 + 4 * r - blockBase 2 = 0x20000 + 4 * r := by
    rw [show blockBase 2 = 0x200000 from rfl]
    omega
  have hreg : (s.privReg 2 (0x20000 + 4 * r)).isNone = false := by
    rw [State.privReg, if_neg (by decide), if_neg (by decide), if_pos (by decide), State.helmPriv, if_pos (by omega)]
    rfl
  have hpriv : privWritable 2 (0x20000 + 4 * r) = true := by
    rw [privWritable, if_pos (.inl rfl)]
    exact decide_eq_true (by omega)
  rw [writeWord, if_neg (by decide), hat, hblock]
  dsimp only
  rw [hrel, if_neg (by rw [hserves]; decide), if_neg (by omega), if_pos (by omega), if_neg (by rw [hreg]; decide), if_pos rfl, privWrite,
    if_neg (by rw [hpriv]; decide), if_pos (by decide),
    show 0x200000 + (0x20000 + 4 * r) = 0x220000 + 4 * r by omega]

theorem startUnload_spec {s : State} {pi : Nat} {p : Pattern} (hp : s.pat pi = some p) :
    ((startUnload s pi p).pat pi).map (·.unloading) = some true ∧ (startUnload s pi p).cores = s.cores := by
  rw [startUnload]
  split
  next hu => exact ⟨by rw [hp, Option.map_some, hu], rfl⟩
  dsimp only
  have hw : (refuseParked (endStreams (s.setPat pi { p with unloading := true }) (s.slotsOf pi) (some .endUnload)) pi).workers
      = (s.setPat pi { p with unloading := true }).workers := by
    rw [refuseParked_workers, endStreams_workers]
  generalize refuseParked _ pi = s1 at hw
  have hq : s1.pat pi = some { p with unloading := true } := by
    rw [State.pat, show s1.helm.pats = _ from congrArg (·.2) hw]
    exact pat_setPat_self s pi _
  rw [hq]
  obtain ⟨hcores, hpats⟩ := haltSteps_settled s1 pi { p with unloading := true } (fun _ => .cancelling)
  refine ⟨?_, hcores.trans (congrArg (·.1) hw)⟩
  have hpat := congrArg (Option.map Pattern.unloading) ((hpats pi).trans (congrArg _ hq))
  simpa only [Option.map_map, Function.comp_def, Option.map_some] using hpat

/-- `s` with a report written. -/
def State.attested (s : State) (ch : ChartImage) : State :=
  { s with host := { s.host with report := reportBytes s ch, attBusy := false }, lode := { s.lode with rseq := s.lode.rseq + 1 } }

/-- Settles O42: the end of every sealed command is `sealedEnd_frame`; the effects are one branch of each command. -/
theorem sealedCommandsTakeEffectOnce : Obligations.SealedCommandsTakeEffectOnce := by
  intro s c ha
  refine ⟨fun op code data tk hb => ?_, fun w code h => ?_, fun w h hw => ?_, fun w n h => ?_, fun id h => ?_, fun r v hr h h2 h8 => ?_,
    fun pairs h hp => ?_, fun o h => ?_, fun h pi p hc hh hp hres => ?_, fun h hc => ?_, fun hc => ⟨fun hs => ?_, fun hs => ?_⟩,
    fun hb => ?_, fun hb => ?_, fun ch hch hb => ?_⟩
  · have hdone : (sealedEnd s op code data tk).host.irqBits.getLsbD 0 = true := by
      rw [sealedEnd_mailbox op code data tk hb]
      exact raiseIrq_bit _ (by decide)
    have hend := sealedEnd_mailbox op code data tk hb
    obtain ⟨q, i, p, o, hsig⟩ := raiseIrq_signalled (newChallenge { s.sealedLogged op code tk with
      host := { s.host with result := resultBytes op code tk data, cmdBusy := false } }) 0
    have hend := hend.trans hsig
    generalize sealedEnd s op code data tk = t at hdone hend
    subst hend
    exact ⟨rfl, rfl, hdone, rfl, rfl, rfl, rfl, rfl, rfl, rfl⟩
  · exact congrArg Host.Outcome.next (sealedRun_fails ha h)
  · exact congrArg Host.Outcome.next (sealedRun_refuses ha h (if_pos hw))
  · intro p h1 h2 h3 h4 h5
    refine congrArg Host.Outcome.next (sealedRun_commits ha h ?_)
    rw [keyInstall, if_neg (not_or.2 ⟨h1, not_or.2 ⟨h2, ne_of_eq_of_ne h3 (by decide)⟩⟩), if_neg (by simpa using h4), h5]
  · exact congrArg Host.Outcome.next (sealedRun_commits ha h rfl)
  · have hrun : sealedRun s c 3 (regWrite [(BitVec.ofNat 32 (0x220000 + 4 * r), v)])
        = sealedEnd (stageReg s (0x220000 + 4 * r) v) 3 .scOk [] false := by
      refine sealedRun_commits ha h ?_
      rw [regWrite, if_pos (by simpa using slotTable_writable hr), List.foldl_cons, List.foldl_nil, writeWord_slotTable h2 h8 hr]
    obtain ⟨hh, b, n, ch, l, d, o, hend⟩ := sealedEnd_frame (stageReg s (0x220000 + 4 * r) v) 3 .scOk [] false
    obtain ⟨t, ht, q, i, p, o', rfl⟩ := noted_signalled (congrArg (fun t => noted s (.next t)) (hrun.trans hend))
    exact ⟨_, ht, rfl, rfl, rfl⟩
  · have hrun : sealedRun s c 3 (regWrite pairs) = sealedEnd s 3 .regDenied [] false :=
      sealedRun_refuses ha h (if_neg (by rw [hp]; decide))
    obtain ⟨hh, b, n, ch, l, d, o, hend⟩ := sealedEnd_frame s 3 .regDenied [] false
    obtain ⟨t, ht, q, i, p, o', rfl⟩ := noted_signalled (congrArg (fun t => noted s (.next t)) (hrun.trans hend))
    exact ⟨_, ht, rfl, rfl, rfl⟩
  · exact congrArg Host.Outcome.next (sealedRun_commits ha h rfl)
  · have hrun : sealedRun s c 7 (patternUnload h) = sealedEnd (startUnload s pi p) 7 .scOk [] false := by
      refine sealedRun_commits ha hc ?_
      rw [patternUnload, hh]
      dsimp only
      rw [hp]
      dsimp only
      rw [if_pos hres]
    obtain ⟨hunload, hcores⟩ := startUnload_spec hp
    generalize startUnload s pi p = u at hrun hunload hcores
    obtain ⟨hh, b, n, ch, l, d, o, hend⟩ := sealedEnd_frame u 7 .scOk [] false
    exact ⟨_, congrArg Host.Outcome.next (hrun.trans hend), hunload, hcores⟩
  · obtain ⟨hh, b, n, ch, l, d, o, hend⟩ := sealedEnd_frame s 8 .scOk [] false
    have hexec : execWarmRestart c h s = noted s (.next (warmRestart (sealedEnd s 8 .scOk [] false) h)) := by
      rw [execWarmRestart, if_neg (by rw [ha]; decide), hc]
    rw [hend] at hexec
    by_cases hf : s.refLost = true ∨ s.start.stage = 7
    · rw [warmRestart, if_pos hf] at hexec
      obtain ⟨t, ht, q, i, p, o', rfl⟩ := noted_signalled hexec
      refine ⟨_, ht, rfl, rfl, rfl, rfl, rfl, ?_, rfl, rfl⟩
      rw [if_pos hf]
      exact ⟨rfl, rfl⟩
    · rw [warmRestart, if_neg hf] at hexec
      obtain ⟨t, ht, q, i, p, o', rfl⟩ := noted_signalled hexec
      refine ⟨_, ht, rfl, rfl, rfl, rfl, rfl, ?_, rfl, rfl⟩
      rw [if_neg hf]
      exact ⟨rfl, rfl⟩
  · have hexec : execLodestarSwitch c s = noted s (.next (sealedEnd (takeOver s) 9 .scOk [] true)) := by
      rw [execLodestarSwitch, if_neg (by rw [ha]; decide), hc]
      exact congrArg (noted s) (congrArg _ (if_pos hs))
    obtain ⟨q, bits, p, n, l, htake⟩ := toLog_reported ((newChallenge (hostReset { s with lode := { s.lode with
      active := otherLode s.lode.active, activeOk := true, standbyOk := false, bells := [] } } false)).emit .pcieTrain)
      (mkRec 0 .event .lodestarTakeover)
    obtain ⟨hh, b, n, ch, l, d, o, hend⟩ := sealedEnd_frame (takeOver s) 9 .scOk [] true
    rw [hend, takeOver, htake] at hexec
    obtain ⟨t, ht, q, i, p, o', rfl⟩ := noted_signalled hexec
    exact ⟨_, ht, rfl, rfl, rfl, rfl⟩
  · have hexec : execLodestarSwitch c s = noted s (.next (sealedEnd s 9 .scNostandby [] false)) := by
      rw [execLodestarSwitch, if_neg (by rw [ha]; decide), hc]
      exact congrArg (noted s) (congrArg _ (if_neg (by rw [hs]; decide)))
    obtain ⟨hh, b, n, ch, l, d, o, hend⟩ := sealedEnd_frame s 9 .scNostandby [] false
    rw [hend] at hexec ⊢
    exact noted_quiet hexec rfl rfl rfl fun p => portChanged_same _ _ rfl rfl p
  · exact congrArg Host.Outcome.next (if_neg (by rw [hb]; decide))
  · exact congrArg Host.Outcome.next (if_pos hb)
  · have hexec : execAttestationDone s = .next (raiseIrq (s.attested ch) 1) := by
      rw [execAttestationDone]
      split
      next h => exact nomatch h.symm.trans hch
      next c' h =>
        cases h.symm.trans hch
        exact congrArg Host.Outcome.next (if_neg (by simp [hb, ha]))
    have hbit := raiseIrq_bit (s.attested ch) (n := 1) (by decide)
    obtain ⟨q, i, p, o, hsig⟩ := raiseIrq_signalled (s.attested ch) 1
    rw [hsig] at hexec hbit
    exact ⟨_, hexec, rfl, rfl, hbit, rfl, rfl⟩

end Sys2Proof.Machine

/-! ### What the device sends only grows -/

namespace Sys2Proof.Machine

/-- `t` has sent what `s` had, and more. -/
def Grows (s t : State) : Prop := ∃ l, t.out = s.out ++ l

theorem Grows.refl (s : State) : Grows s s := ⟨[], (List.append_nil _).symm⟩

theorem Grows.of_out {s t : State} (h : t.out = s.out) : Grows s t := ⟨[], h.trans (List.append_nil _).symm⟩

theorem Grows.trans {s t u : State} (h : Grows s t) (h' : Grows t u) : Grows s u := by
  obtain ⟨l, hl⟩ := h
  obtain ⟨l', hl'⟩ := h'
  exact ⟨l ++ l', by rw [hl', hl, List.append_assoc]⟩

theorem Grows.mem {s t : State} (h : Grows s t) {e : Emit} (he : e ∈ s.out) : e ∈ t.out := by
  obtain ⟨l, hl⟩ := h
  exact hl ▸ List.mem_append_left l he

theorem Signalled.grows {s t : State} (h : Signalled s t) : Grows s t := by
  obtain ⟨q, b, p, l, rfl⟩ := h
  exact ⟨l, rfl⟩

/-- A loop whose every round only sends, only sends. -/
theorem foldl_grows {α : Type} {f : State → α → State} (h : ∀ s a, Grows s (f s a)) (l : List α) (s : State) : Grows s (l.foldl f s) := by
  induction l generalizing s with
  | nil => exact .refl s
  | cons a l ih => exact (h s a).trans (ih _)

theorem emit_grows (s : State) (e : Emit) : Grows s (s.emit e) := ⟨[e], rfl⟩
theorem emits_grows (s : State) (l : List Emit) : Grows s (s.emits l) := ⟨l, rfl⟩

theorem setLink_grows (s : State) (i : LinkId) (x : Link) : Grows s (s.setLink i x) := by
  cases i <;> exact .of_out rfl

theorem transmit_grows (s : State) (p : Fin 8) (e : Emit) : Grows s (s.transmit p e) := by
  simp only [State.transmit]
  split
  · exact .of_out rfl
  split
  · exact .of_out rfl
  · exact ⟨[e], rfl⟩

theorem transmits_grows (s : State) (p : Fin 8) (es : List Emit) : Grows s (s.transmits p es) :=
  foldl_grows (fun s e => transmit_grows s p e) es s

theorem wireOut_grows (s : State) (i : LinkId) (es : List Emit) : Grows s (wireOut s i es) := by
  cases i with
  | direct l => exact ⟨es, rfl⟩
  | routed k node slot => exact transmits_grows ..

theorem nzOut_grows (s : State) (i : LinkId) (x : Link) (seq : BitVec 16) (vc ftype len : Nat) (msg : Option Emit) :
    Grows s (nzOut s i x seq vc ftype len msg) := by
  rw [nzOut]
  exact (setLink_grows ..).trans (Grows.trans (.of_out rfl) (wireOut_grows ..))

theorem sendControl_grows (s : State) (i : LinkId) (x : Link) (ftype : Nat) : Grows s (sendControl s i x ftype) := nzOut_grows ..

theorem sendFrame_grows (s : State) (i : LinkId) (x : Link) (f : NzFrame) : Grows s (sendFrame s i x f) := nzOut_grows ..

theorem pump_grows (i : LinkId) (n : Nat) (s : State) : Grows s (pump i n s) := by
  induction n generalizing s with
  | zero => exact .refl s
  | succ n ih =>
    rw [pump]
    split
    · exact .refl s
    split
    · exact .refl s
    split
    · exact .refl s
    · exact (sendFrame_grows ..).trans (ih _)

theorem pumpAll_grows (s : State) (i : LinkId) : Grows s (pumpAll s i) := by
  rw [pumpAll]
  split
  · exact .refl s
  · exact pump_grows ..

theorem sendBytes_grows (s : State) (i : LinkId) (vc n : Nat) (e : Emit) : Grows s (sendBytes s i vc n e) := by
  rw [sendBytes]
  split
  · exact .refl s
  · exact (setLink_grows ..).trans (pumpAll_grows ..)

theorem sendHandshake_grows (s : State) (i : LinkId) (st : LinkState) : Grows s (sendHandshake s i st) := by
  unfold sendHandshake
  split
  · refine Grows.trans ?_ (wireOut_grows ..)
    cases i <;> exact .of_out rfl
  · exact .refl s

theorem sendBacklog_grows (s : State) (k : Fin 4) (n : Nat) : Grows s (sendBacklog s k n) := by
  rw [sendBacklog]
  split
  · exact .refl s
  · exact Grows.trans (.of_out rfl) (transmits_grows ..)

theorem respond_grows (s : State) (k : Fin 4) (n kind : Nat) (body : List Byte) : Grows s (respond s k n kind body) := by
  simp only [respond]
  split
  · exact .refl s
  split
  · exact Grows.trans (.of_out rfl) (sendBytes_grows ..)
  · exact Grows.trans (.of_out rfl) (sendBacklog_grows ..)

theorem finalStatus_grows (s : State) (k : Fin 4) (n : Nat) (c : Code) : Grows s (finalStatus s k n c) := by
  simp only [finalStatus]
  split
  · exact .refl s
  split
  · exact respond_grows ..
  split <;> exact (respond_grows ..).trans (.of_out rfl)

theorem reportEnd_grows (s : State) (x : Stream) (code : Option Code) : Grows s (reportEnd s x code) := by
  unfold reportEnd
  split
  · exact .refl s
  split
  · exact .refl s
  split
  · exact .of_out rfl
  · exact finalStatus_grows ..

/-! #### What tidies up after a step -/

/-- `t` is `s` with streams, Patterns and the outside changed; what was sent stays. -/
def Tidied (s t : State) : Prop :=
  t.cores = s.cores ∧ t.mem = s.mem ∧ (∃ l ps, t.helm = { s.helm with streams := l, pats := ps }) ∧ Grows s t

theorem Tidied.refl (s : State) : Tidied s s := ⟨rfl, rfl, ⟨_, _, rfl⟩, .refl s⟩

theorem Tidied.trans {s t u : State} (h : Tidied s t) (h' : Tidied t u) : Tidied s u := by
  obtain ⟨hc, hm, ⟨l, ps, hh⟩, ho⟩ := h
  obtain ⟨hc', hm', ⟨l', ps', hh'⟩, ho'⟩ := h'
  exact ⟨hc'.trans hc, hm'.trans hm, ⟨l', ps', by rw [hh', hh]⟩, ho.trans ho'⟩

theorem foldl_tidied {α : Type} {f : State → α → State} (h : ∀ s a, Tidied s (f s a)) (l : List α) (s : State) : Tidied s (l.foldl f s) := by
  induction l generalizing s with
  | nil => exact .refl s
  | cons a l ih => exact (h s a).trans (ih _)

theorem setStream_tidied (s : State) (q : Nat) (x : Option Stream) : Tidied s (s.setStream q x) := ⟨rfl, rfl, ⟨_, _, rfl⟩, .of_out rfl⟩

theorem setPat_tidied (s : State) (pi : Nat) (p : Pattern) : Tidied s (s.setPat pi p) := ⟨rfl, rfl, ⟨_, _, rfl⟩, .of_out rfl⟩

theorem emits_tidied (s : State) (l : List Emit) : Tidied s (s.emits l) := ⟨rfl, rfl, ⟨_, _, rfl⟩, emits_grows s l⟩

theorem reportEnd_tidied (s : State) (x : Stream) (code : Option Code) : Tidied s (reportEnd s x code) := by
  have h := reportEnd_inside s x code
  exact ⟨inside_cores h, inside_mem h, ⟨_, _, inside_helm h⟩, reportEnd_grows s x code⟩

theorem reportEnded_tidied (s : State) (slots : List Nat) : Tidied s (reportEnded s slots) := by
  refine foldl_tidied (fun s q => ?_) slots s
  split
  · exact .refl s
  split
  · exact (setStream_tidied ..).trans (reportEnd_tidied ..)
  · exact .refl s

theorem setStreams_tidied (s : State) (slots : List Nat) (st : StreamState) : Tidied s (setStreams s slots st) := by
  refine foldl_tidied (fun s q => ?_) slots s
  split
  · exact .refl s
  split
  · exact setStream_tidied ..
  · exact .refl s

theorem dropHold_tidied (s : State) (pi : Nat) : Tidied s (dropHold s pi) := by
  rw [dropHold]
  split
  · exact .refl s
  · exact setPat_tidied ..

/-- Settling takes the steps whose cancellation is over off the list. -/
theorem settle_tidied (s : State) :
    Tidied (s.setSteps (s.helm.steps.filter (fun t => !(decide (t.phase = .cancelling) && t.toDrain.isEmpty)))) (settle s) := by
  refine foldl_tidied (fun s t => ?_) _ _
  exact (dropHold_tidied ..).trans ((setStreams_tidied ..).trans (reportEnded_tidied ..))

end Sys2Proof.Machine

/-! ### Cancellation and core resets (R248 to R251, R433) -/

namespace Sys2Proof.Machine

section
variable (s : State) (c : Nat)

theorem releaseCore_out : (releaseCore s c).out = s.out ++ ((s.core c).locks.map (fun l => .lockRelease c l.1 l.2)
    ++ (match (s.core c).pat with | none => [] | some p => noticeVaults s p).map (fun v => .orphanNotice v c)) := rfl

theorem releaseCore_mem : (releaseCore s c).mem = s.mem := rfl

theorem clearArrivals_frame : (clearArrivals s c).cores = s.cores ∧ (clearArrivals s c).mem = s.mem ∧ (clearArrivals s c).out = s.out := by
  unfold clearArrivals
  dsimp only
  split <;> exact ⟨rfl, rfl, rfl⟩

/-- The semaphores that CLEAR gives back. -/
def State.initialSems : Vector (BitVec 16) 64 :=
  match s.coreImage c with | none => Vector.replicate 64 0 | some img => semsOf img

/-- What CLEAR sends back: the credits of each queue. -/
def State.queueReturns : List Emit :=
  [0, 1, 2, 3, 4, 5, 6, 7].flatMap (fun q : Fin 8 => Machine.queueReturns c q ((s.core c).recvq q))

omit s c in
theorem allQueues (q : Fin 8) : q ∈ [0, 1, 2, 3, 4, 5, 6, 7] := by
  revert q
  decide

/-- What the last drained report sends, and the step that it leaves behind. -/
def drainedState (u : Step) (pi : Nat) : State :=
  let t := s.setSteps [{ u with toDrain := [], toClear := [] }]
  let t := (t.emits (u.toClear.map .clear)).bump (helmCtr (helmBlock s pi - 2) 0x148) 1
  { t with helm := { t.helm with clears := t.helm.clears ++ u.toClear } }

/-- What CLEAR leaves once the locks are released. -/
def clearedState (sems : Vector (BitVec 16) 64) (s : State) (c : Nat) : State :=
  let t := s.setCore c ((s.core c).cleared sems)
  { t with helm := { t.helm with clears := t.helm.clears.filter (fun x => decide (x ≠ c)) } }

theorem core_setHelm (h : HelmSt) (d : Nat) : ({ s with helm := h } : State).core d = s.core d := rfl

end

section
variable {s : State} {c : Nat} (hc : c < Config.nCores)
include hc

/-- CLEAR on a core that takes it (R249). -/
theorem clear_spec (h : ¬ ((s.core c).st = .reset ∨ (s.core c).st = .stopped)) :
    ∃ t, execClear c s = .next t ∧ t.core c = ({ s.core c with locks := [] } : Core).cleared (s.initialSems c) ∧ OtherCores c s t
      ∧ t.mem = s.mem ∧ c ∉ t.helm.clears ∧ (∀ e ∈ s.queueReturns c, e ∈ t.out)
      ∧ ∀ l ∈ (s.core c).locks, .lockRelease c l.1 l.2 ∈ t.out := by
  have hexec : execClear c s = .next (clearedState (s.initialSems c) (clearArrivals (releaseCore (s.emits (s.queueReturns c)) c) c) c) := by
    rw [execClear, onCore_ok _ _ _ hc, if_neg h]
    rfl
  obtain ⟨hcores, hmem, hout⟩ := clearArrivals_frame (releaseCore (s.emits (s.queueReturns c)) c) c
  have hcore (d : Nat) : (clearArrivals (releaseCore (s.emits (s.queueReturns c)) c) c).core d
      = if d = c then { s.core c with locks := [] } else s.core d := by
    rw [State.core, hcores, ← State.core, releaseCore_core]
    rfl
  generalize clearArrivals _ c = t at hexec hcores hmem hout hcore
  refine ⟨_, hexec, ?_, fun d hd => ?_, hmem, by simp [clearedState], fun e he => ?_, fun l hl => ?_⟩
  · rw [clearedState, core_setHelm, core_setCore_self, hcore, if_pos rfl]
  · rw [clearedState, core_setHelm, core_setCore_ne _ hd, hcore, if_neg hd]
  · change e ∈ t.out
    rw [hout, releaseCore_out]
    exact List.mem_append_left _ (List.mem_append_right _ he)
  · change _ ∈ t.out
    rw [hout, releaseCore_out]
    exact List.mem_append_right _ (List.mem_append_left _ (List.mem_map_of_mem hl))

/-- The last drained report of a Pattern's only step sends CLEAR, and the step is over (R249). -/
theorem drained_last {pi : Nat} {u : Step} (hp : (s.core c).pat = some pi) (hs : s.helm.steps = [u]) (hu : u.pat = pi)
    (hph : u.phase = .cancelling) (hd : u.toDrain = [c]) (hl : u.toClear ≠ []) :
    ∃ t, execDrained c s = .next t ∧ t.helm.steps = [] ∧ (∀ d ∈ u.toClear, .clear d ∈ t.out) ∧ t.mem = s.mem ∧ t.cores = s.cores := by
  have hmap : s.mapSteps (fun t => if t.pat = pi then { t with toDrain := t.toDrain.filter (fun x => decide (x ≠ c)) } else t)
      = s.setSteps [{ u with toDrain := [] }] := by
    simp [State.mapSteps, hs, hu, hd]
  have hexec : execDrained c s = .next (drainDone (s.setSteps [{ u with toDrain := [] }]) pi) := by
    rw [execDrained, onCore_ok _ _ _ hc, hp]
    dsimp only
    rw [hmap]
  have hdone : drainDone (s.setSteps [{ u with toDrain := [] }]) pi = settle (drainedState s u pi) := by
    simp [drainDone, State.setSteps, State.mapSteps, hu, hl, drainedState, helmBlock, State.pat]
  obtain ⟨hcores, hmem, ⟨l, ps, hhelm⟩, hout⟩ := settle_tidied (drainedState s u pi)
  refine ⟨_, hexec.trans (congrArg _ hdone), ?_, fun d hd => hout.mem ?_, hmem, hcores⟩
  · rw [hhelm]
    simp [drainedState, State.setSteps, hph]
  · exact List.mem_append_right _ (List.mem_map_of_mem hd)

end

theorem discardAll_frame (s : State) (c : Nat) : (discardAll s c).cores = s.cores ∧ (discardAll s c).mem = s.mem := by
  rw [discardAll]
  exact ⟨foldl_field State.cores _ (fun s q => (discardStored_frame s c q).1) _ s,
    foldl_field State.mem _ (fun s q => (discardStored_frame s c q).2) _ s⟩

theorem discardStale_grows (s : State) (a c sender : Nat) (q : Fin 8) (ep : BitVec 8) : Grows s (discardStale s a c sender q ep) :=
  .of_out rfl

theorem discardStored_grows (s : State) (c : Nat) (q : Fin 8) : Grows s (discardStored s c q) := by
  rw [discardStored]
  refine foldl_grows (fun s i => ?_) _ s
  exact (discardStale_grows s c c i.src q i.epoch).trans (emit_grows (discardStale s c c i.src q i.epoch) _)

theorem discardAll_grows (s : State) (c : Nat) : Grows s (discardAll s c) := by
  rw [discardAll]
  refine foldl_grows (fun s q => ?_) _ s
  exact discardStored_grows s c q

/-- A core's own part of its reset, once its stored items are discarded. -/
def resetState (s : State) (c : Nat) (k : Core) : State :=
  let t := (releaseCore s c).setCore c k
  { t.clearCtrs c with
    helm := { t.helm with clears := t.helm.clears.filter (fun x => decide (x ≠ c)), darn := t.helm.darn.map (·.leave c) } }

theorem resetState_spec (s : State) (c : Nat) (k : Core) : (resetState s c k).core c = k ∧ OtherCores c s (resetState s c k)
    ∧ (resetState s c k).mem = s.mem ∧ Grows s (resetState s c k)
    ∧ ∀ l ∈ (s.core c).locks, .lockRelease c l.1 l.2 ∈ (resetState s c k).out := by
  have hcore (d : Nat) : (resetState s c k).core d = ((releaseCore s c).setCore c k).core d := rfl
  refine ⟨(hcore c).trans (core_setCore_self ..), fun d hd => ?_, rfl, ⟨_, rfl⟩, fun l hl => ?_⟩
  · rw [hcore, core_setCore_ne _ hd, releaseCore_core, if_neg hd]
  · exact List.mem_append_right _ (List.mem_append_left _ (List.mem_map_of_mem hl))

/-- What a core's reset sends first: the credits of its producer entries. -/
def State.disconnects (s : State) (c : Nat) : State :=
  s.emits ((s.core c).prod.map (fun e => .disconnect e.dest e.q c e.epoch e.credits))

theorem coreReset_eq (s : State) (c : Nat) : coreReset s c = resetState (discardAll (s.disconnects c) c) c (s.core c).afterReset := by
  simp only [coreReset, resetState, State.disconnects]

/-- CORE_RESET (R433). -/
theorem coreReset_spec (s : State) (c : Nat) : (coreReset s c).core c = (s.core c).afterReset ∧ OtherCores c s (coreReset s c)
    ∧ (coreReset s c).mem = s.mem ∧ (∀ e ∈ (s.core c).prod, .disconnect e.dest e.q c e.epoch e.credits ∈ (coreReset s c).out)
    ∧ ∀ l ∈ (s.core c).locks, .lockRelease c l.1 l.2 ∈ (coreReset s c).out := by
  rw [coreReset_eq]
  obtain ⟨hcores, hmem⟩ := discardAll_frame (s.disconnects c) c
  have hgrow := discardAll_grows (s.disconnects c) c
  generalize discardAll (s.disconnects c) c = t at hcores hmem hgrow
  obtain ⟨hcore, hother, hmem', hgrow', hlocks⟩ := resetState_spec t c (s.core c).afterReset
  have hview (d : Nat) : t.core d = s.core d := by rw [State.core, hcores]; rfl
  refine ⟨hcore, fun d hd => (hother d hd).trans (hview d), hmem'.trans hmem, fun e he => (hgrow.trans hgrow').mem ?_, ?_⟩
  · exact List.mem_append_right _ (List.mem_map_of_mem (f := fun e : ProdEnt => Emit.disconnect e.dest e.q c e.epoch e.credits) he)
  · rwa [hview] at hlocks

/-- Settles O36: each command is one branch of its meaning. -/
theorem cancelQuietsAndClearRestores : Obligations.CancelQuietsAndClearRestores := by
  intro s c hc
  refine ⟨fun hst hn => ?_, fun hst => ?_, fun hst => ⟨?_, ?_⟩, fun hst => ?_, fun pi u l hp hs hu hph hd hl hne => ?_, fun hst hu => ?_, ?_⟩
  · change execCancel c s = _
    rw [execCancel, onCore_ok _ _ _ hc, if_pos ⟨hst, hn⟩]
  · change execCancel c s = _
    rw [execCancel, onCore_ok _ _ _ hc, if_neg (by simp [hst]), if_pos hst]
  · change execCancel c s = _
    rw [execCancel, onCore_ok _ _ _ hc, if_neg (by rcases hst with h | h <;> simp [h]), if_neg (by rcases hst with h | h <;> simp [h])]
  · change execClear c s = _
    rw [execClear, onCore_ok _ _ _ hc, if_pos hst]
  · obtain ⟨t, ht, hcore, hother, hmem, hclears, hreturns, hlocks⟩ := clear_spec (s := s) hc (by rcases hst with h | h <;> simp [h])
    refine ⟨t, ht, hother, hmem, hclears, ?_⟩
    rw [hcore]
    refine ⟨rfl, rfl, rfl, rfl, rfl, rfl, rfl, rfl, rfl, fun e => ?_, fun q => ?_, fun r => ?_, hlocks, fun q i hi => ?_⟩
    · simp [Core.queue, Core.cleared, Core.quiet, Vector.get_eq_getElem]
    · simp [Core.recvq, Core.cleared, Core.quiet, Vector.get_eq_getElem, RecvQ.emptied]
    · simp [Core.reg, Core.cleared, clearRegs, Vector.get_eq_getElem]
    · refine hreturns _ (List.mem_flatMap.2 ⟨q, allQueues q, ?_⟩)
      exact List.mem_map_of_mem (f := fun e : Nat × Nat => Emit.creditReturn e.1 c q ((s.core c).recvq q).epoch e.2)
        (List.mem_append_left _ (List.mem_map_of_mem (f := fun i : Item => (i.src, itemWords i.len)) hi))
  · subst hl
    exact drained_last hc hp hs hu hph hd hne
  · obtain ⟨u, hu, hcu⟩ := hu
    obtain ⟨hstop, hother, hmem⟩ := cmdFault_stops s c 0 .faulted .cancelTimeout (s.core c).pos (s.core c).wordAt hst
    refine ⟨_, ?_, hstop, hother, hmem⟩
    change execCancelTimeout c s = _
    rw [execCancelTimeout, onCore_ok _ _ _ hc, if_pos (List.any_eq_true.2 ⟨u, hu, decide_eq_true hcu⟩)]
  · obtain ⟨hcore, hother, hmem, hprod, hlocks⟩ := coreReset_spec s c
    have hexec : execCoreReset c s = .next (coreReset s c) := onCore_ok s c (fun _ => coreReset s c) hc
    exact ⟨_, hexec, hcore, hother, hmem, hprod, hlocks⟩

end Sys2Proof.Machine

/-! ### What work on streams, pages and rows leaves to the cores, the Patterns and the list of steps -/

namespace Sys2Proof.Machine

/-- `t` has the cores, the Patterns and the steps of `s`; what was sent stays. -/
def Worked (s t : State) : Prop := t.workers = s.workers ∧ t.helm.steps = s.helm.steps ∧ Grows s t

theorem Worked.refl (s : State) : Worked s s := ⟨rfl, rfl, .refl s⟩

theorem Worked.trans {s t u : State} (h : Worked s t) (h' : Worked t u) : Worked s u :=
  ⟨h'.1.trans h.1, h'.2.1.trans h.2.1, h.2.2.trans h'.2.2⟩

theorem foldl_worked {α : Type} {f : State → α → State} (h : ∀ s a, Worked s (f s a)) (l : List α) (s : State) : Worked s (l.foldl f s) := by
  induction l generalizing s with
  | nil => exact .refl s
  | cons a l ih => exact (h s a).trans (ih _)

theorem Worked.core {s t : State} (h : Worked s t) (c : Nat) : t.core c = s.core c := by
  rw [State.core, show t.cores = s.cores from congrArg (·.1) h.1]
  rfl

theorem Worked.pat {s t : State} (h : Worked s t) (pi : Nat) : t.pat pi = s.pat pi := by
  rw [State.pat, show t.helm.pats = s.helm.pats from congrArg (·.2) h.1]
  rfl

/-! #### Streams -/

theorem emits_worked (s : State) (l : List Emit) : Worked s (s.emits l) := ⟨rfl, rfl, emits_grows s l⟩
theorem logRec_worked (s : State) (r : EventRec) : Worked s (s.logRec r) := ⟨rfl, rfl, .of_out rfl⟩
theorem bump_worked (s : State) (o n : Nat) : Worked s (s.bump o n) := ⟨rfl, rfl, .of_out rfl⟩
theorem setStream_worked (s : State) (q : Nat) (x : Option Stream) : Worked s (s.setStream q x) := ⟨rfl, rfl, .of_out rfl⟩

theorem reportEnd_worked (s : State) (x : Stream) (code : Option Code) : Worked s (reportEnd s x code) :=
  ⟨reportEnd_workers s x code, congrArg HelmSt.steps (inside_helm (reportEnd_inside s x code)), reportEnd_grows s x code⟩

theorem endStream_worked (s : State) (slot : Nat) (code : Option Code) : Worked s (endStream s slot code) := by
  rw [endStream]
  split
  · exact .refl s
  split
  · exact .refl s
  split
  · exact setStream_worked ..
  · exact (setStream_worked ..).trans (reportEnd_worked ..)

theorem endStreams_worked (s : State) (slots : List Nat) (code : Option Code) : Worked s (endStreams s slots code) := by
  rw [endStreams]
  exact foldl_worked (fun s q => endStream_worked s q code) slots s

theorem keyMismatch_worked (s : State) (block slot : Nat) : Worked s (keyMismatch s block slot) := by
  rw [keyMismatch]
  split
  · exact .refl s
  · exact (logRec_worked ..).trans (endStream_worked ..)

theorem reportEnded_worked (s : State) (slots : List Nat) : Worked s (reportEnded s slots) := by
  refine foldl_worked (fun s q => ?_) slots s
  split
  · exact .refl s
  split
  · exact (setStream_worked ..).trans (reportEnd_worked ..)
  · exact .refl s

theorem setStreams_worked (s : State) (slots : List Nat) (st : StreamState) : Worked s (setStreams s slots st) := by
  refine foldl_worked (fun s q => ?_) slots s
  split
  · exact .refl s
  split
  · exact setStream_worked ..
  · exact .refl s

/-! #### Memory -/

theorem setMem_worked (s : State) (m : Memory) : Worked s { s with mem := m } := ⟨rfl, rfl, .of_out rfl⟩

theorem wrMem_worked (s : State) (a : Nat) (b : Byte) : Worked s (s.wrMem a b) := by
  refine ⟨?_, ?_, .of_out ?_⟩ <;> simp only [State.workers, wrMem_frame]

theorem segPut_worked (s : State) (pi seg : Nat) (g : Segment) (ofs : Nat) (b : Byte) : Worked s (segPut s pi seg g ofs b) := by
  have hcopy : Worked s (match dualFrame s pi seg (ofs / 65536) with
      | none => s.wrMem (g.phys ofs) b
      | some f => (s.wrMem (g.phys ofs) b).wrMem (frameAddr f + ofs % 65536) b) := by
    split
    · exact wrMem_worked ..
    · exact (wrMem_worked ..).trans (wrMem_worked ..)
  simp only [segPut]
  split
  · split
    · exact hcopy
    · exact hcopy.trans (wrMem_worked ..)
  · exact hcopy

theorem segPuts_worked (s : State) (pi seg : Nat) (g : Segment) (ofs : Nat) (l : List Byte) : Worked s (segPuts s pi seg g ofs l) := by
  induction l generalizing s ofs with
  | nil => exact .refl s
  | cons b l ih => exact (segPut_worked ..).trans (ih ..)

theorem helmWrite_worked (s : State) (pi : Nat) (p : Pattern) (seg ofs : Nat) (b : List Byte) : Worked s (helmWrite s pi p seg ofs b) := by
  rw [helmWrite]
  split
  · exact .refl s
  · exact segPuts_worked ..

theorem takeFrames_worked (s : State) (f n : Nat) (taken : Bool) : Worked s (s.takeFrames f n taken) := ⟨rfl, rfl, .of_out rfl⟩

/-! #### A step's pages and rows (R301) -/

theorem putPage_worked (s : State) (p : Pattern) (slot : Nat) (x : Stream) (l g f : Nat) : Worked s (putPage s p slot x l g f) := by
  rw [putPage]
  exact (setMem_worked ..).trans (setStream_worked ..)

theorem mapPage_worked (s : State) (p : Pattern) (slot l g : Nat) : Worked s (mapPage s p slot l g) := by
  rw [mapPage]
  split
  · exact .refl s
  split
  · exact .refl s
  dsimp only
  split
  · exact .refl s
  · exact (takeFrames_worked ..).trans (putPage_worked ..)

theorem mapBlocks_worked (s : State) (p : Pattern) (slot g0 g1 : Nat) : Worked s (mapBlocks s p slot g0 g1) := by
  rw [mapBlocks]
  split
  · exact .refl s
  split
  · exact keyMismatch_worked ..
  split
  · exact endStream_worked ..
  · refine foldl_worked (fun s i => ?_) _ s
    exact foldl_worked (fun s l => mapPage_worked s p slot l (g0 + i)) _ s

theorem writeRows_worked (s : State) (pi : Nat) (p : Pattern) (b : BatchEnt) : Worked s (writeRows s pi p b) := by
  simp only [writeRows]
  split
  · exact .refl s
  · exact foldl_worked (fun s i => helmWrite_worked ..) _ s

theorem zeroRows_worked (s : State) (pi : Nat) (p : Pattern) (t n : Nat) : Worked s (zeroRows s pi p t n) := by
  simp only [zeroRows]
  exact foldl_worked (fun s i => helmWrite_worked ..) _ s

/-! #### Dispatch (R297, R301) -/

/-- A dispatch's copies in the cores' scratch. -/
def writeCopies (s : State) (l : List Nat) (area : Nat) (rec batch : List Byte) : State :=
  l.foldl (fun s c => s.setCore c (writeDispatch (s.core c) area rec batch)) s

theorem writeCopies_core (l : List Nat) (area : Nat) (rec batch : List Byte) (s : State) (c : Nat) :
    ∃ m, (writeCopies s l area rec batch).core c = { s.core c with scratch := m } := by
  induction l generalizing s with
  | nil => exact ⟨_, rfl⟩
  | cons d l ih =>
    obtain ⟨m, hm⟩ := ih (s.setCore d (writeDispatch (s.core d) area rec batch))
    refine ⟨m, hm.trans ?_⟩
    by_cases hd : c = d
    · rw [hd, core_setCore_self]
      rfl
    · rw [core_setCore_ne _ hd]

theorem writeCopies_frame (l : List Nat) (area : Nat) (rec batch : List Byte) (s : State) :
    (writeCopies s l area rec batch).helm = s.helm ∧ (writeCopies s l area rec batch).out = s.out := by
  refine ⟨foldl_field State.helm _ ?_ l s, foldl_field State.out _ ?_ l s⟩ <;> exact fun _ _ => rfl

/-- The Pattern of a dispatched step takes its next number, and waits for its groups. -/
def Pattern.dispatched (p : Pattern) (s : State) (pi : Nat) : Pattern := { p with nextSeq := p.nextSeq + 1, updateHold := groupsOf s pi }

/-- Before the copies go out: the pages are mapped and the input rows written. -/
def stepPrepared (s : State) (pi : Nat) (p : Pattern) (t : Step) : State :=
  let n := (t.batch.map (·.ntok)).foldl (· + ·) 0
  let s2 := t.batch.foldl (fun s e => mapBlocks s p e.slot (e.pos0 / 256) ((e.pos0 + e.ntok - 1) / 256))
    (s.setPat pi (p.dispatched s pi))
  zeroRows (t.batch.foldl (fun s e => writeRows s pi p e) s2) pi p n (bucketFor p n)

theorem stepPrepared_worked (s : State) (pi : Nat) (p : Pattern) (t : Step) :
    Worked (s.setPat pi (p.dispatched s pi)) (stepPrepared s pi p t) := by
  simp only [stepPrepared]
  refine Worked.trans ?_ (zeroRows_worked ..)
  refine Worked.trans ?_ (foldl_worked (fun s e => writeRows_worked s pi p e) t.batch _)
  exact foldl_worked (fun s e => mapBlocks_worked s p e.slot _ _) t.batch _

/-- The dispatch record of a step. -/
def Step.dispatchRec (t : Step) (p : Pattern) (lclass : Nat) : DispatchRec :=
  let n := (t.batch.map (·.ntok)).foldl (· + ·) 0
  { stepSeq := p.nextSeq, bucket := bucketFor p n, ntoken := n, nbatch := t.batch.length, lclass := lclass }

theorem dispatchStep_eq (s : State) (pi : Nat) (p : Pattern) (t : Step) (lclass : Nat) : ∃ batch o1 n1 o2 n2,
    dispatchStep s pi p t lclass
      = ({ t with seq := p.nextSeq, again := false, drec := t.dispatchRec p lclass, toHalt := p.coresOf, toDrain := [], toClear := [],
                  phase := .running, taintAll := false, taintSlots := [], outputs := [] },
        (((writeCopies (stepPrepared s pi p t) p.coresOf (p.manifest.params.dispatchUnit * 64)
          (dispatchBytes (t.dispatchRec p lclass)) batch).bump o1 n1).bump o2 n2).emits
            (p.coresOf.map (fun c => .dispatch c (t.dispatchRec p lclass)))) :=
  ⟨_, _, _, _, _, rfl⟩

theorem dispatchStep_step (s : State) (pi : Nat) (p : Pattern) (t : Step) (lclass : Nat) : (dispatchStep s pi p t lclass).1
    = { t with seq := p.nextSeq, again := false, drec := t.dispatchRec p lclass, toHalt := p.coresOf, toDrain := [], toClear := [],
               phase := .running, taintAll := false, taintSlots := [], outputs := [] } := rfl

/-- A dispatch leaves the cores but for their scratch and adds no step; the Pattern has taken the next number. -/
theorem dispatchStep_spec (s : State) (pi : Nat) (p : Pattern) (t : Step) (lclass : Nat) :
    (dispatchStep s pi p t lclass).2.helm.steps = s.helm.steps ∧ (dispatchStep s pi p t lclass).2.pat pi = some (p.dispatched s pi)
      ∧ (∀ c, ∃ m, (dispatchStep s pi p t lclass).2.core c = { s.core c with scratch := m })
      ∧ (∀ c ∈ p.coresOf, .dispatch c (dispatchStep s pi p t lclass).1.drec ∈ (dispatchStep s pi p t lclass).2.out)
      ∧ Grows s (dispatchStep s pi p t lclass).2 := by
  obtain ⟨batch, o1, n1, o2, n2, heq⟩ := dispatchStep_eq s pi p t lclass
  rw [heq]
  dsimp only
  obtain hw := stepPrepared_worked s pi p t
  generalize stepPrepared s pi p t = u at hw
  obtain ⟨hhelm, hout⟩ := writeCopies_frame p.coresOf (p.manifest.params.dispatchUnit * 64) (dispatchBytes (t.dispatchRec p lclass)) batch u
  have hcore := writeCopies_core p.coresOf (p.manifest.params.dispatchUnit * 64) (dispatchBytes (t.dispatchRec p lclass)) batch u
  generalize writeCopies u _ _ _ batch = v at hhelm hout hcore
  refine ⟨?_, ?_, fun c => ?_, fun c hc => List.mem_append_right _ (List.mem_map_of_mem hc), ?_⟩
  · exact (congrArg HelmSt.steps hhelm).trans hw.2.1
  · refine Eq.trans ?_ ((hw.pat pi).trans (pat_setPat_self s pi _))
    exact congrArg (fun h : HelmSt => Sparse.get none h.pats pi) hhelm
  · obtain ⟨m, hm⟩ := hcore c
    exact ⟨m, hm.trans (by rw [hw.core]; rfl)⟩
  · exact (hw.2.2.trans (.of_out hout)).trans ⟨_, rfl⟩

end Sys2Proof.Machine

/-! ### Steps are formed, committed and gated (R294, R299 to R302, R329, R330) -/

namespace Sys2Proof.Machine

section
variable {s : State} {pi : Nat} {p : Pattern}

theorem keyMismatch_none (h : ∀ e ∈ s.readyOf pi, e.2.keyOk = true) :
    ((s.readyOf pi).filter (fun e => !e.2.keyOk)).foldl (fun s e => keyMismatch s (helmBlock s pi) e.1) s = s := by
  rw [List.filter_eq_nil_iff.2 fun e he => by simp [h e he]]
  rfl

/-- Without a READY stream no step is formed. -/
theorem stepForm_none (hp : s.pat pi = some p) (h : (s.readyOf pi).isEmpty = true) : execStepForm pi s = .next s := by
  rw [execStepForm, hp]
  dsimp only
  rw [keyMismatch_none (by simp [List.isEmpty_iff.1 h]), if_neg (by simp [h])]

theorem stepForm_forms (hp : s.pat pi = some p) (hk : ∀ e ∈ s.readyOf pi, e.2.keyOk = true) (hd : mayDispatch s pi p = true)
    (hs : ∀ u ∈ s.helm.steps, u.pat ≠ pi ∨ u.phase ≠ .stopped) (h : (s.readyOf pi).isEmpty = false) :
    execStepForm pi s = .next (formStep s pi p) := by
  rw [execStepForm, hp]
  dsimp only
  rw [keyMismatch_none hk, if_pos (by simp [h, hd]; simpa [or_iff_not_imp_left] using hs)]

theorem leadWalk_ready {new : List Nat} {f : Nat → Bool} {fuel slot : Nat} {tbl : List Nat} {k : Nat} {r : Nat × List Nat × Nat}
    (h : leadWalk new f fuel slot tbl k = some r) : ∃ c, f c = true := by
  induction fuel generalizing slot tbl k with
  | zero => cases h
  | succ n ih =>
    rw [leadWalk] at h
    split at h
    next hf => exact ⟨_, hf⟩
    · exact ih h

/-- A formed step joins the list, takes the Pattern's next number and is dispatched to every core of it. -/
theorem formStep_spec {lead skipped : Nat} {tbl : List Nat} (hw : leadWalk (s.helm.sst.get p.helm)
      (fun c => (s.readyOf pi).any (fun e => decide (e.2.sclass.val = c))) 512 p.ptr p.sst 0 = some (lead, tbl, skipped)) :
    ∃ q, (formStep s pi p).pat pi = some q ∧ q.nextSeq = p.nextSeq + 1 ∧ q.ptr = (lead + 1) % 256
      ∧ (formStep s pi p).helm.steps.length = s.helm.steps.length + 1
      ∧ ∀ c ∈ p.coresOf, ∃ rec, .dispatch c rec ∈ (formStep s pi p).out ∧ rec.stepSeq = p.nextSeq ∧ rec.lclass = tbl.getD lead 0 := by
  rw [formStep, hw]
  dsimp only
  generalize fillBatch _ (bucketMax p) 0 = batch
  have hs : Worked s ((batch.foldl (fun s b => match s.stream b.slot with
      | none => s | some x => s.setStream b.slot (some { x with st := .stepping })) s).bump (helmCtr (helmBlock s pi - 2) 0x140) skipped) := by
    refine Worked.trans (foldl_worked (fun s b => ?_) batch s) (bump_worked ..)
    split
    · exact .refl s
    · exact setStream_worked ..
  generalize State.bump _ (helmCtr (helmBlock s pi - 2) 0x140) skipped = s1 at hs
  generalize hp1 : ({ p with ptr := (lead + 1) % 256, sst := if lead = 255 then s.helm.sst.get p.helm else tbl } : Pattern) = p1
  have hseq : p1.nextSeq = p.nextSeq := by rw [← hp1]
  have hptr : p1.ptr = (lead + 1) % 256 := by rw [← hp1]
  have hcores : p1.coresOf = p.coresOf := by rw [← hp1]; rfl
  have hrec := dispatchStep_step (s1.setSteps (s1.helm.steps ++ [Step.new pi batch])) pi p1 (Step.new pi batch) (tbl.getD lead 0)
  obtain ⟨hsteps, hpat, -, hsent, -⟩ :=
    dispatchStep_spec (s1.setSteps (s1.helm.steps ++ [Step.new pi batch])) pi p1 (Step.new pi batch) (tbl.getD lead 0)
  generalize dispatchStep _ pi p1 _ _ = r at hsteps hpat hsent hrec
  obtain ⟨t1, s2⟩ := r
  refine ⟨_, hpat, congrArg (· + 1) hseq, hptr, ?_, fun c hc => ⟨t1.drec, hsent c (hcores ▸ hc), ?_, ?_⟩⟩
  · have hlen := congrArg List.length hsteps
    rw [State.setSteps, List.length_append, hs.2.1] at hlen
    exact (List.length_map _).trans hlen
  · exact (congrArg (fun t : Step => t.drec.stepSeq) hrec).trans hseq
  · exact congrArg (fun t : Step => t.drec.lclass) hrec

end

section
variable {s : State} {pi : Nat} {p : Pattern}

theorem endStream_tidied (s : State) (slot : Nat) (code : Option Code) : Tidied s (endStream s slot code) := by
  rw [endStream]
  split
  · exact .refl s
  split
  · exact .refl s
  split
  · exact setStream_tidied ..
  · exact (setStream_tidied ..).trans (reportEnd_tidied ..)

/-- A batch entry's commit changes its stream, and tells a stream's end. -/
theorem commitEntry_frame (p : Pattern) (a : State × List (Nat × List Byte)) (b : BatchEnt) :
    Worked a.1 (commitEntry p a b).1 ∧ (commitEntry p a b).1.mem = a.1.mem := by
  simp only [commitEntry]
  split
  · exact ⟨.refl _, rfl⟩
  split
  · exact ⟨.refl _, rfl⟩
  split
  · exact ⟨setStream_worked .., rfl⟩
  split
  · exact ⟨(setStream_worked ..).trans (endStream_worked ..), (endStream_tidied ..).2.1⟩
  · exact ⟨setStream_worked .., rfl⟩

theorem commitEntries_frame (p : Pattern) (l : List BatchEnt) (a : State × List (Nat × List Byte)) :
    Worked a.1 (l.foldl (commitEntry p) a).1 ∧ (l.foldl (commitEntry p) a).1.mem = a.1.mem := by
  induction l generalizing a with
  | nil => exact ⟨.refl _, rfl⟩
  | cons b l ih =>
    obtain ⟨hw, hm⟩ := commitEntry_frame p a b
    obtain ⟨hw', hm'⟩ := ih (commitEntry p a b)
    exact ⟨hw.trans hw', hm'.trans hm⟩

variable {c : Nat} {u : Step} (hp : s.pat pi = some p) (hc : c < Config.nCores) (hpat : (s.core c).pat = some pi)
  (hs : s.helm.steps = [u]) (hu : u.pat = pi) (hph : u.phase = .running) (hmem : c ∈ u.toHalt)
include hp hc hpat hs hu hph hmem

theorem haltReport_open (hl : u.toHalt.filter (fun x => decide (x ≠ c)) ≠ []) :
    execHaltReport c s = .next (s.setSteps [{ u with toHalt := u.toHalt.filter (fun x => decide (x ≠ c)) }]) := by
  rw [execHaltReport, onCore_ok _ _ _ hc, State.corePat, hpat]
  simp only [hp, hs, List.find?_cons, hu, hph, hmem, and_self, decide_true, if_pos hl, List.map_cons, List.map_nil, if_pos]

theorem haltReport_last (hl : u.toHalt.filter (fun x => decide (x ≠ c)) = []) :
    ∃ t o, execHaltReport c s = .next t ∧ t.mem = s.mem ∧ t.cores = s.cores
        ∧ t.helm.steps = [{ u with toHalt := [], phase := .committed, commitReport := s.helm.nextReport, outputs := o }] := by
  obtain ⟨⟨hw, hsteps, -⟩, hmem'⟩ := commitEntries_frame p u.batch (s, [])
  rw [execHaltReport, onCore_ok _ _ _ hc, State.corePat, hpat]
  simp only [hp, hs, List.find?_cons, hu, hph, hmem, and_self, decide_true, hl, ne_eq, not_true, if_false]
  generalize u.batch.foldl (commitEntry p) (s, []) = r at hw hsteps hmem'
  refine ⟨_, r.2, rfl, hmem', congrArg (·.1) hw, ?_⟩
  simp [noteHalt, State.setSteps, hsteps, hs, hu, hph]

end

section
variable {s : State} {pi : Nat} {p : Pattern} {u : Step} (hp : s.pat pi = some p) (hs : s.helm.steps = [u]) (hu : u.pat = pi)
  (hph : u.phase = .committed) (hhold : p.updateHold = [])
include hp hs hu hph hhold

omit hp hhold in
/-- A step whose earlier reports stand open stays at the gate. -/
theorem outputGate_held (hr : reportsDone s u = false) : execOutputGate pi u.seq s = .next s := by
  rw [execOutputGate, hs]
  simp [hu, hph, hr]

/-- A tainted step waits for its replay. -/
theorem outputGate_tainted (hr : reportsDone s u = true) (ht : u.taintAll = true) (hm : s.mend = true) (hrep : u.replays < 2) :
    ∃ t, execOutputGate pi u.seq s = .next t
      ∧ t.helm.steps = [{ u with phase := .stopped, outputs := [], taintAll := false, taintSlots := [] }] ∧ t.out = s.out := by
  have hout : (u.batch.foldl (undoEntry .replay) s).out = s.out := by
    refine foldl_field State.out _ (fun s b => ?_) _ s
    rw [undoEntry]
    split
    · rfl
    split <;> rfl
  rw [execOutputGate, hp]
  simp only [hs, List.find?_cons, hu, hph, and_self, decide_true, hr, ht, hm, hrep, hhold, if_pos, ne_eq, not_true, false_or,
    List.isEmpty_nil, Bool.not_true, Bool.true_eq_false, Bool.false_eq_true, if_false]
  refine ⟨_, rfl, ?_, hout⟩
  simp [State.setSteps, hu, hph]

omit hp hs hu hph hhold in
/-- At the gate of an untainted step a stream's output is sent, and it is READY. -/
theorem gateEntry_sends {b : BatchEnt} {x : Stream} {row : List Byte} (hts : u.taintSlots = []) (ha : u.again = false)
    (hx : s.stream b.slot = some x) (hst : x.st ≠ .ending) (hkey : x.keyOk = true) (hlost : x.lost = []) (hpos : x.pos < x.limit)
    (ho : u.outputs = [(b.slot, row)]) (hend : (row.headD 0).getLsbD 0 = false) : gateEntry u s b
      = (respond s (pdOf x.port) x.crec 1 row).setStream b.slot (some { x with st := .ready, lastOut := row.drop 64 }) := by
  have hbit : ¬ (gateEntry.rdBit row = true ∨ x.limit ≤ x.pos) := by
    rw [gateEntry.rdBit, hend]
    simpa using hpos
  rw [gateEntry, hx]
  dsimp only
  rw [if_neg hst, if_neg (by rw [hkey]; decide), if_neg (by simp [hts, hlost]), ho]
  simp only [List.find?_cons, decide_true, ha, Bool.false_eq_true, if_false, if_neg hbit]

/-- An untainted step's only stream has its output sent and is READY. -/
theorem outputGate_sends {b : BatchEnt} {x : Stream} {row : List Byte} (hr : reportsDone s u = true) (ht : u.taintAll = false)
    (hb : u.batch = [b]) (hts : u.taintSlots = []) (ha : u.again = false) (hx : s.stream b.slot = some x) (hst : x.st ≠ .ending)
    (hkey : x.keyOk = true) (hlost : x.lost = []) (hpos : x.pos < x.limit) (ho : u.outputs = [(b.slot, row)])
    (hend : (row.headD 0).getLsbD 0 = false) :
    ∃ t, execOutputGate pi u.seq s = .next t ∧ t.helm.steps = [] ∧ t.mem = s.mem
      ∧ t.stream b.slot = some { x with st := .ready, lastOut := row.drop 64 } := by
  have hentry := gateEntry_sends hts ha hx hst hkey hlost hpos ho hend
  have hin := respond_inside s (pdOf x.port) x.crec 1 row
  generalize respond s (pdOf x.port) x.crec 1 row = v at hin hentry
  have hstream : (v.setStream b.slot (some { x with st := .ready, lastOut := row.drop 64 })).stream b.slot
      = some { x with st := .ready, lastOut := row.drop 64 } := stream_setStream_self ..
  have hsteps : (v.setStream b.slot (some { x with st := .ready, lastOut := row.drop 64 })).helm.steps = [u] :=
    (congrArg HelmSt.steps (inside_helm hin)).trans hs
  have hmem : (v.setStream b.slot (some { x with st := .ready, lastOut := row.drop 64 })).mem = s.mem :=
    (rfl : _ = v.mem).trans (inside_mem hin)
  generalize State.setStream v b.slot _ = w at hentry hstream hsteps hmem
  have hgate : gateStep s u (fun t => decide (t.pat = pi ∧ t.seq = u.seq ∧ t.phase = .committed)) = w.setSteps [] := by
    simp [gateStep, hb, hentry, toReplay, hstream, hsteps, hu, hph]
  have hexec : execOutputGate pi u.seq s = .next (reportEnded (w.setSteps []) [b.slot]) := by
    rw [execOutputGate, hp]
    simp only [hs, List.find?_cons, hu, hph, and_self, decide_true, hr, ht, hts, hhold, ne_eq, not_true, false_or, List.isEmpty_nil,
      Bool.not_true, Bool.true_eq_false, Bool.false_eq_true, if_false, false_and, Bool.false_or, List.not_mem_nil, decide_false,
      List.any_eq_true, and_false, exists_false, hgate, Step.slots, hb, List.map_cons, List.map_nil]
  have hreport : reportEnded (w.setSteps []) [b.slot] = w.setSteps [] := by
    rw [reportEnded, List.foldl_cons, List.foldl_nil, show (w.setSteps []).stream b.slot = _ from hstream]
    exact if_neg (fun h => nomatch h.1)
  exact ⟨_, hexec.trans (congrArg _ hreport), rfl, hmem, hstream⟩

end

/-- Settles O38: formation is `formStep_spec`, the commit `haltReport_last`, the gate `outputGate_sends`. -/
theorem stepsAreFormedCommittedAndGated : Obligations.StepsAreFormedCommittedAndGated := by
  intro s pi p hp
  refine ⟨stepForm_none hp, fun lead tbl skipped hk hd hs hw => ?_, fun c u hc hpat hsteps hpi hph hmem => ⟨fun hl => ?_, fun hl => ?_⟩,
    fun u seq hsteps hpi hph hseq hhold => ⟨fun hr => ?_, fun hr ht hm hrep => ?_, fun b x row hr ht hb hts ha hx hst hkey hlost hpos ho hend => ?_⟩⟩
  · have hne : (s.readyOf pi).isEmpty = false := by
      obtain ⟨c, hc⟩ := leadWalk_ready hw
      rw [List.isEmpty_eq_false_iff]
      intro h0
      simp [h0] at hc
    obtain ⟨q, hq⟩ := formStep_spec hw
    exact ⟨_, q, stepForm_forms hp hk hd hs hne, hq⟩
  · exact haltReport_open hp hc hpat hsteps hpi hph hmem hl
  · exact haltReport_last hp hc hpat hsteps hpi hph hmem hl
  · subst hseq
    exact outputGate_held hsteps hpi hph hr
  · subst hseq
    exact outputGate_tainted hp hsteps hpi hph hhold hr ht hm hrep
  · subst hseq
    exact outputGate_sends hp hsteps hpi hph hhold hr ht hb hts ha hx hst hkey hlost hpos ho hend

end Sys2Proof.Machine

/-! ### Steps are cancelled, stopped and replayed (R88, R248, R307, R321 to R324, R328, R329) -/

namespace Sys2Proof.Machine

/-! #### Cancellation (R248, R307) -/

section
variable {s : State} {pi : Nat} {p : Pattern} {u : Step} (hp : s.pat pi = some p) (hs : s.helm.steps = [u]) (hu : u.pat = pi)
  (hph : u.phase = .running)
include hp hs hu hph

/-- A step that is to be cancelled: every core of the Pattern is sent CANCEL, and the step waits for their reports. -/
theorem stepCancel_cancels (hc : p.coresOf ≠ []) (hr : ∀ r ∈ p.regions, r.stopped = false)
    (h : (∀ q ∈ u.slots, ∃ x, s.stream q = some x ∧ x.st = .ending) ∨ p.unloading = true) :
    ∃ t, execStepCancel pi u.seq s = .next t ∧ t.out = s.out ++ p.coresOf.map .cancel ∧ t.mem = s.mem ∧ t.cores = s.cores
      ∧ t.helm.steps = [{ u with phase := .cancelling, toDrain := p.coresOf, toClear := p.coresOf }] := by
  have htargets : (p.regions.filter (fun r => !r.stopped)).flatMap (·.cores) = p.coresOf := by
    rw [List.filter_eq_self.2 fun r h => by simp [hr r h]]
    rfl
  have hhalt : haltSteps s pi p (fun _ => .cancelling)
      = (s.setSteps [{ u with phase := .cancelling, toDrain := p.coresOf, toClear := p.coresOf }]).emits (p.coresOf.map .cancel) := by
    simp [haltSteps, htargets, hs, hu, hph, State.mapSteps, drainDone, State.setSteps, State.emits, hc]
  have hexec : execStepCancel pi u.seq s = .next (haltSteps s pi p (fun _ => .cancelling)) := by
    rw [execStepCancel, hp, hs]
    simp only [List.find?_cons, hu, Step.live, hph, decide_true, true_or, Bool.and_self]
    refine congrArg Host.Outcome.next (if_pos ⟨trivial, trivial, h.imp_left fun h => ?_⟩)
    rw [List.all_eq_true]
    intro q hq
    obtain ⟨x, hx, hst⟩ := h q hq
    rw [hx]
    exact decide_eq_true hst
  exact ⟨_, hexec.trans (congrArg _ hhalt), rfl, rfl, rfl, rfl⟩

/-- A step with a stream that has not ended runs on. -/
theorem stepCancel_same {q : Nat} {x : Stream} (hq : q ∈ u.slots) (hx : s.stream q = some x) (hst : x.st ≠ .ending)
    (hl : p.unloading = false) : execStepCancel pi u.seq s = .next s := by
  rw [execStepCancel, hp, hs]
  simp only [List.find?_cons, hu, Step.live, hph, decide_true, true_or, Bool.and_self]
  refine congrArg Host.Outcome.next (if_neg fun h => ?_)
  have hall := h.2.2.resolve_right (by rw [hl]; decide)
  have hend := List.all_eq_true.1 hall q hq
  rw [hx] at hend
  exact hst (of_decide_eq_true hend)

end

/-! #### What stops stays stopped (R88, R321 to R324) -/

/-- Is a region stopped? -/
def State.regionStopped (s : State) (pi ri : Nat) : Prop := ∃ p r, s.pat pi = some p ∧ p.regions[ri]? = some r ∧ r.stopped = true

/-- From `s` to `t` no core and no region that is stopped comes back; what was sent stays. -/
def Halting (s t : State) : Prop :=
  Grows s t ∧ (∀ c, (s.core c).st = .stopped → (t.core c).st = .stopped) ∧ ∀ pi ri, s.regionStopped pi ri → t.regionStopped pi ri

theorem Halting.refl (s : State) : Halting s s := ⟨.refl s, fun _ h => h, fun _ _ h => h⟩

theorem Halting.trans {s t u : State} (h : Halting s t) (h' : Halting t u) : Halting s u :=
  ⟨h.1.trans h'.1, fun c hc => h'.2.1 c (h.2.1 c hc), fun pi ri hr => h'.2.2 pi ri (h.2.2 pi ri hr)⟩

theorem foldl_halting {α : Type} {f : State → α → State} (h : ∀ s a, Halting s (f s a)) (l : List α) (s : State) : Halting s (l.foldl f s) := by
  induction l generalizing s with
  | nil => exact .refl s
  | cons a l ih => exact (h s a).trans (ih _)

theorem Settled.regionStopped {s t : State} (h : Settled s t) {pi ri : Nat} (hr : s.regionStopped pi ri) : t.regionStopped pi ri := by
  obtain ⟨p, r, hp, hreg, hst⟩ := hr
  have hpat := h.2 pi
  rw [hp] at hpat
  obtain ⟨q, hq, heq⟩ := Option.map_eq_some_iff.1 hpat
  exact ⟨q, r, hq, (congrArg (fun p : Pattern => p.regions[ri]?) heq).trans hreg, hst⟩

theorem Settled.halting {s t : State} (h : Settled s t) (hg : Grows s t) : Halting s t :=
  ⟨hg, fun c hc => by rw [State.core, h.1]; exact hc, fun _ _ hr => h.regionStopped hr⟩

theorem Worked.halting {s t : State} (h : Worked s t) : Halting s t := (Settled.of_workers h.1).halting h.2.2

theorem settle_grows (s : State) : Grows s (settle s) := (settle_tidied s).2.2.2

theorem drainDone_grows (s : State) (pi : Nat) : Grows s (drainDone s pi) := by
  simp only [drainDone]
  split
  · exact settle_grows s
  split
  · exact Grows.trans ⟨_, rfl⟩ (settle_grows _)
  · exact .refl s

theorem haltSteps_grows (s : State) (pi : Nat) (p : Pattern) (ph : Step → StepPhase) : Grows s (haltSteps s pi p ph) := by
  simp only [haltSteps]
  refine Grows.trans ?_ (drainDone_grows _ pi)
  split
  · exact ⟨_, rfl⟩
  · exact .of_out rfl

theorem haltSteps_halting (s : State) (pi : Nat) (p : Pattern) (ph : Step → StepPhase) : Halting s (haltSteps s pi p ph) :=
  (haltSteps_settled s pi p ph).halting (haltSteps_grows s pi p ph)

theorem mapSteps_halting (s : State) (f : Step → Step) : Halting s (s.mapSteps f) :=
  ⟨.of_out rfl, fun _ h => h, fun _ _ h => h⟩

theorem emit_halting (s : State) (e : Emit) : Halting s (s.emit e) := ⟨emit_grows s e, fun _ h => h, fun _ _ h => h⟩

theorem Signalled.halting {s t : State} (h : Signalled s t) : Halting s t := by
  obtain ⟨q, b, p, l, rfl⟩ := h
  exact ⟨⟨l, rfl⟩, fun _ h => h, fun _ _ h => h⟩

/-- A Pattern changes, but none of its stopped regions comes back. -/
theorem setPat_halting {s : State} {pi : Nat} {p q : Pattern} (hp : s.pat pi = some p)
    (h : ∀ (ri : Nat) (r : Region), p.regions[ri]? = some r → r.stopped = true → ∃ r', q.regions[ri]? = some r' ∧ r'.stopped = true) :
    Halting s (s.setPat pi q) := by
  refine ⟨.of_out rfl, fun _ h => h, fun pi' ri hr => ?_⟩
  obtain ⟨p', r, hp', hreg, hst⟩ := hr
  by_cases hpi : pi' = pi
  · subst hpi
    cases hp.symm.trans hp'
    obtain ⟨r', hr', hst'⟩ := h ri r hreg hst
    exact ⟨q, r', pat_setPat_self .., hr', hst'⟩
  · exact ⟨p', r, (pat_setPat_ne s hpi q).trans hp', hreg, hst⟩

/-- A core that is stopped, or not changed, leaves the others as they are. -/
theorem setCore_halting (s : State) (c : Nat) {k : Core} (h : (s.core c).st = .stopped → k.st = .stopped) : Halting s (s.setCore c k) := by
  refine ⟨.of_out rfl, fun d hd => ?_, fun _ _ h => h⟩
  by_cases hdc : d = c
  · subst hdc
    rw [core_setCore_self]
    exact h hd
  · rwa [core_setCore_ne _ hdc]

theorem stopPeer_halting (s : State) (c first : Nat) : Halting s (stopPeer s c first) := by
  simp only [stopPeer]
  split
  · refine Halting.trans (setCore_halting s c ?_) (logRec_worked ..).halting
    exact fun _ => rfl
  · exact .refl s

theorem stopPeer_stops {s : State} {c first : Nat} (h : (s.core c).st = .running ∨ (s.core c).st = .idle) :
    ((stopPeer s c first).core c).st = .stopped := by
  simp only [stopPeer]
  rw [if_pos h, (logRec_worked ..).core, core_setCore_self]

theorem markStopped_halting (s : State) (pi ri : Nat) : Halting s (markStopped s pi ri) := by
  rw [markStopped]
  split
  · exact .refl s
  next p hp =>
    split
    · exact .refl s
    · refine Halting.trans (setPat_halting hp fun rj r' hr' hst => ?_) (mapSteps_halting ..)
      by_cases hj : ri = rj
      · subst hj
        have hlt := (List.getElem?_eq_some_iff.1 hr').1
        exact ⟨_, List.getElem?_set_self hlt, rfl⟩
      · exact ⟨r', (List.getElem?_set_ne hj).trans hr', hst⟩

theorem markStopped_stops {s : State} {pi ri : Nat} {p : Pattern} {r : Region} (hp : s.pat pi = some p) (hr : p.regions[ri]? = some r) :
    (markStopped s pi ri).regionStopped pi ri := by
  rw [markStopped, hp]
  dsimp only
  rw [hr]
  exact ⟨_, _, pat_setPat_self .., List.getElem?_set_self (List.getElem?_eq_some_iff.1 hr).1, rfl⟩

theorem endSteps_halting (s : State) (pi : Nat) (f : Step → Bool) (code : Code) : Halting s (endSteps s pi f code) := by
  rw [endSteps]
  exact foldl_halting (fun s q => (endStream_worked s q (some code)).halting) _ s

/-! A site that gives a fault (R312, R332, R333): cores become absent, but none is stopped or set free. -/

theorem absentMore_settled (d n : Nat) (s : State) : Settled s (absentMore d n s) ∧ Grows s (absentMore d n s) := by
  induction n generalizing s with
  | zero => exact ⟨.of_workers rfl, .refl s⟩
  | succ n ih =>
    rw [absentMore]
    split
    · exact ⟨.of_workers rfl, .refl s⟩
    next c _ =>
      obtain ⟨hs, hg⟩ := ih (makeAbsent s c)
      exact ⟨Settled.trans (.of_workers rfl) hs, Grows.trans (.of_out rfl) hg⟩

theorem retireDie_halting (s : State) (d : Nat) : Halting s (retireDie s d) := by
  obtain ⟨hs, hg⟩ := absentMore_settled d 176 s
  rw [retireDie]
  generalize absentMore d 176 s = u at hs hg
  split
  · exact .refl s
  dsimp only
  split <;> exact (hs.halting hg).trans ((Settled.of_workers rfl).halting (.of_out rfl))

theorem dieCheck_halting (s : State) (d : Nat) : Halting s (dieCheck s d) := by
  simp only [dieCheck]
  split
  · exact .refl s
  split
  · exact retireDie_halting s d
  split
  · exact .refl s
  obtain ⟨hs, hg⟩ := absentMore_settled d (176 - s.healthy d - (s.absentOn d).length) s
  split
  · exact (hs.halting hg).trans (logRec_worked ..).halting
  · exact hs.halting hg

theorem suspectSite_halting (s : State) (block c seq pi : Nat) : Halting s (suspectSite s block c seq pi) := by
  rw [suspectSite]
  split
  · exact .refl s
  dsimp only
  refine Halting.trans ?_ (dieCheck_halting ..)
  exact Halting.trans ((Settled.of_workers rfl).halting (.of_out rfl)) (logRec_worked ..).halting

/-! A Pattern is faulted (R334). -/

theorem lzPut_worked (s : State) (a : Nat) (b : Byte) : Worked s (lzPut s a b) := by
  simp only [lzPut]
  exact (wrMem_worked ..).trans (wrMem_worked ..)

theorem lzRelease_worked (s : State) (b n : Nat) : Worked s (lzRelease s b n) := by
  refine Worked.trans (foldl_worked (fun s i => ?_) (List.range (n * 4096)) s) ⟨rfl, rfl, .of_out rfl⟩
  split
  · exact .refl s
  · exact lzPut_worked ..

theorem dropParked_worked (s : State) (x : Stream) (code : Option Code) : Worked s (dropParked s x code) := by
  rw [dropParked]
  split
  · refine Worked.trans ?_ (endStream_worked ..)
    exact ⟨rfl, rfl, .of_out rfl⟩
  · exact (reportEnd_worked ..).trans (lzRelease_worked ..)

theorem parkWrite_worked (s : State) (i : Nat) (x : Stream) : Worked s (parkWrite s i x) := by
  refine ⟨?_, ?_, .of_out ?_⟩ <;> simp [parkWrite, State.workers]

theorem setParked_worked (s : State) (head : Nat) (l : List Stream) : Worked s (s.setParked head l) := by
  simp only [State.setParked]
  refine Worked.trans (foldl_worked (fun t i => ?_) (List.range l.length) s) ⟨rfl, rfl, .of_out rfl⟩
  split
  · exact .refl t
  split
  · exact .refl t
  · exact parkWrite_worked ..

theorem refuseParked_worked (s : State) (pi : Nat) : Worked s (refuseParked s pi) := by
  rw [refuseParked]
  refine (setParked_worked ..).trans (foldl_worked (fun s x => ?_) _ _)
  exact Worked.trans ⟨rfl, rfl, .of_out rfl⟩ (dropParked_worked ..)

theorem faultPattern_halting (s : State) (pi : Nat) : Halting s (faultPattern s pi) := by
  rw [faultPattern]
  split
  · exact .refl s
  next p hp =>
    split
    · exact .refl s
    dsimp only
    refine Halting.trans ?_ (haltSteps_halting ..)
    refine Halting.trans ?_ (logRec_worked ..).halting
    refine Halting.trans ?_ (refuseParked_worked ..).halting
    refine Halting.trans ?_ (endStreams_worked ..).halting
    exact setPat_halting hp fun ri r hr hst => ⟨r, hr, hst⟩

theorem afterStop_halting (s : State) (pi ri : Nat) (cls : FaultClass) (faults : List (Nat × Nat)) :
    Halting s (afterStop s pi ri cls faults) := by
  rw [afterStop]
  split
  · exact .refl s
  split
  · exact faultPattern_halting ..
  split
  · exact (endSteps_halting ..).trans ((haltSteps_halting ..).trans (emit_halting ..))
  · dsimp only
    refine Halting.trans ?_ (emit_halting ..)
    refine Halting.trans ?_ (haltSteps_halting ..)
    refine Halting.trans ?_ (setStreams_worked ..).halting
    exact (endSteps_halting ..).trans (mapSteps_halting ..)

theorem loseRegion_halting (s : State) (pi ri : Nat) : Halting s (loseRegion s pi ri) := by
  rw [loseRegion]
  split
  · exact .refl s
  split
  · exact .refl s
  split
  · exact .refl s
  split
  · refine Halting.trans ?_ (afterStop_halting ..)
    exact (foldl_halting (fun s c => stopPeer_halting s c 0x1FFF) _ s).trans (markStopped_halting ..)
  · exact (markStopped_halting ..).trans (emit_halting ..)

theorem loseAbsent_halting (s : State) : Halting s (loseAbsent s) := by
  rw [loseAbsent]
  exact foldl_halting (fun s (e : Nat × Nat) => loseRegion_halting s e.1 e.2) _ s

/-! #### The stop of a region (R88) -/

theorem stopPeer_other (s : State) {c d : Nat} (first : Nat) (h : d ≠ c) : (stopPeer s c first).core d = s.core d := by
  simp only [stopPeer]
  split
  · rw [(logRec_worked ..).core, core_setCore_ne _ h]
  · rfl

/-- Every core of a region that ran or was IDLE is STOPPED. -/
theorem stopPeers_stop (l : List Nat) (first : Nat) (s : State) {d : Nat}
    (h : (s.core d).st = .stopped ∨ d ∈ l ∧ ((s.core d).st = .running ∨ (s.core d).st = .idle)) :
    ((l.foldl (fun s c => stopPeer s c first) s).core d).st = .stopped := by
  induction l generalizing s with
  | nil => exact h.resolve_right fun h => nomatch h.1
  | cons c l ih =>
    refine ih _ ?_
    rcases h with h | ⟨hd, h⟩
    · exact .inl ((stopPeer_halting s c first).2.1 d h)
    by_cases hdc : d = c
    · subst hdc
      exact .inl (stopPeer_stops h)
    · rw [stopPeer_other s first hdc]
      exact .inr ⟨(List.mem_cons.1 hd).resolve_left hdc, h⟩

/-! The Chart stands through all of it. -/

theorem stopPeer_chart (s : State) (c first : Nat) : (stopPeer s c first).chart = s.chart := by
  simp only [stopPeer]
  split <;> rfl

theorem stopPeer_helm (s : State) (c first : Nat) : (stopPeer s c first).helm = s.helm := by
  simp only [stopPeer]
  split <;> rfl

theorem markStopped_chart (s : State) (pi ri : Nat) : (markStopped s pi ri).chart = s.chart := by
  rw [markStopped]
  split
  · rfl
  split <;> rfl

theorem absentMore_chart (d n : Nat) (s : State) : (absentMore d n s).chart = s.chart := by
  induction n generalizing s with
  | zero => rfl
  | succ n ih =>
    rw [absentMore]
    split
    · rfl
    · exact ih _

theorem retireDie_chart (s : State) (d : Nat) : (retireDie s d).chart = s.chart := by
  have h := absentMore_chart d 176 s
  rw [retireDie]
  generalize absentMore d 176 s = u at h
  split
  · rfl
  dsimp only
  split <;> exact h

theorem suspectSite_chart (s : State) (block c seq pi : Nat) : (suspectSite s block c seq pi).chart = s.chart := by
  have hcheck (t : State) (d : Nat) : (dieCheck t d).chart = t.chart := by
    simp only [dieCheck]
    split
    · rfl
    split
    · exact retireDie_chart t d
    split
    · rfl
    split <;> exact absentMore_chart ..
  rw [suspectSite]
  split
  · rfl
  · exact hcheck ..

theorem mend_congr {s t : State} (h : t.chart = s.chart) : t.mend = s.mend := by rw [State.mend, State.mend, h]

/-- Unless the Pattern is faulted the loader is told to reset the region. -/
theorem afterStop_resets {s : State} {pi ri : Nat} {p : Pattern} {cls : FaultClass} {faults : List (Nat × Nat)} (hp : s.pat pi = some p)
    (hm : s.mend = true) : .regionReset pi ri ∈ (afterStop s pi ri cls faults).out := by
  rw [afterStop, hp]
  dsimp only
  rw [hm, if_neg (by simp)]
  split <;> exact List.mem_append_right _ (List.mem_singleton.2 rfl)

/-- The cores of a region once those that run or are IDLE have stopped, where a step runs on it. -/
theorem stoppedPeers_spec {s : State} {pi : Nat} {p : Pattern} {l : List Nat} {first : Nat} (hp : s.pat pi = some p) :
    let t := if s.runs pi l = true then l.foldl (fun s c => stopPeer s c first) s else s
    Halting s t ∧ t.pat pi = some p ∧ t.chart = s.chart ∧ (s.runs pi l = true → ∀ d ∈ l,
      (s.core d).st = .running ∨ (s.core d).st = .idle → (t.core d).st = .stopped) := by
  by_cases h : s.runs pi l = true
  · simp only [if_pos h]
    refine ⟨foldl_halting (fun s c => stopPeer_halting s c first) l s, ?_, foldl_field State.chart _ (fun s c => stopPeer_chart s c first) l s,
      fun _ d hd hst => stopPeers_stop l first s (.inr ⟨hd, hst⟩)⟩
    rw [State.pat, foldl_field State.helm _ (fun s c => stopPeer_helm s c first) l s]
    exact hp
  · simp only [if_neg h]
    exact ⟨.refl s, hp, trivial, fun h' => absurd h' h⟩

section
variable {s : State} {pi c : Nat} {p : Pattern} {r : Region} (hp : s.pat pi = some p) (hc : c < Config.nCores)
  (hpat : (s.core c).pat = some pi) (hr : p.regions[(s.core c).region]? = some r)
include hp hc hpat hr

theorem regionStop_same (hst : (s.core c).st ≠ .stopped) : execRegionStop c s = .next s := by
  have hexec : execRegionStop c s = noted s (.next s) := by
    rw [execRegionStop, onCore_ok _ _ _ hc, State.coreRegion, State.corePat, hpat]
    simp only [hp, hr, hst, ne_eq, not_false_eq_true, true_or, or_true, if_true]
  exact noted_same hexec

/-- A faulted core stops its region: the loader is told, and what ran on it stops. -/
theorem regionStop_stops (hst : (s.core c).st = .stopped) (hrs : r.stopped = false) (hf : faultsIn s r.cores ≠ [])
    (hm : s.mend = true) : ∃ t, execRegionStop c s = .next t ∧ t.regionStopped pi (s.core c).region ∧ .regionReset pi (s.core c).region ∈ t.out
      ∧ (s.runs pi r.cores = true → ∀ d ∈ r.cores, (s.core d).st = .running ∨ (s.core d).st = .idle → (t.core d).st = .stopped) := by
  have hempty : (faultsIn s r.cores).isEmpty = false := List.isEmpty_eq_false_iff.2 hf
  rw [execRegionStop, onCore_ok _ _ _ hc, State.coreRegion, State.corePat, hpat]
  simp only [hp, hr, hst, hrs, hempty, ne_eq, not_true, Bool.false_eq_true, false_or, if_false, hm, if_true, Bool.not_true, Bool.and_false,
    Bool.or_false]
  generalize (faultsIn s r.cores).foldl _ 0x1FFF = first
  generalize (faultsIn s r.cores).filter _ = sites
  generalize stopClass _ _ = cls
  generalize hs1 : (if s.runs pi r.cores = true then r.cores.foldl (fun s c => stopPeer s c first) s else s) = s1
  have h1 : Halting s s1 ∧ s1.pat pi = some p ∧ s1.chart = s.chart ∧ (s.runs pi r.cores = true → ∀ d ∈ r.cores,
      (s.core d).st = .running ∨ (s.core d).st = .idle → (s1.core d).st = .stopped) := by
    rw [← hs1]
    exact stoppedPeers_spec hp
  obtain ⟨-, hp1, hch1, hstop⟩ := h1
  generalize hs3 : sites.foldl _ (markStopped s1 pi (s.core c).region) = s3
  have h3 : Halting (markStopped s1 pi (s.core c).region) s3 := by
    rw [← hs3]
    exact foldl_halting (fun t f => suspectSite_halting ..) sites _
  have hch3 : s3.chart = (markStopped s1 pi (s.core c).region).chart := by
    rw [← hs3]
    exact foldl_field State.chart _ (fun t f => suspectSite_chart ..) sites _
  have hmend : s3.mend = true := (mend_congr (hch3.trans ((markStopped_chart ..).trans hch1))).trans hm
  have hstopped : s3.regionStopped pi (s.core c).region := h3.2.2 _ _ (markStopped_stops hp1 hr)
  obtain ⟨q, -, hq, -⟩ := id hstopped
  have h4 : Halting s3 (if s.runs pi r.cores = true then afterStop s3 pi (s.core c).region cls
      ((faultsIn s r.cores).map (fun f => (f.core, f.pos))) else s3.emit (.regionReset pi (s.core c).region))
    ∧ .regionReset pi (s.core c).region ∈ (if s.runs pi r.cores = true then afterStop s3 pi (s.core c).region cls
      ((faultsIn s r.cores).map (fun f => (f.core, f.pos))) else s3.emit (.regionReset pi (s.core c).region)).out := by
    split
    · exact ⟨afterStop_halting .., afterStop_resets hq hmend⟩
    · exact ⟨emit_halting .., List.mem_append_right _ (List.mem_singleton.2 rfl)⟩
  generalize (if s.runs pi r.cores = true then afterStop s3 pi (s.core c).region cls _ else _) = s4 at h4 ⊢
  obtain ⟨h4, hreset⟩ := h4
  obtain ⟨t, ht, hsig⟩ := noted_signalled (s := s) (s' := loseAbsent s4) rfl
  have h5 := (loseAbsent_halting s4).trans hsig.halting
  refine ⟨t, ht, h5.2.2 _ _ (h4.2.2 _ _ hstopped), h5.1.mem hreset, fun hrun d hd hdst => ?_⟩
  exact ((markStopped_halting ..).trans (h3.trans (h4.trans h5))).2.1 d (hstop hrun d hd hdst)

end

/-! #### Replay (R328, R329) -/

/-- A stream that waits for its replay with nothing lost is left as it is. -/
theorem resolveLost_same {s : State} {q : Nat} {x : Stream} (hx : s.stream q = some x) (hl : x.lost = []) : resolveLost s q = s := by
  rw [resolveLost, hx]
  dsimp only
  split
  · rfl
  · exact if_pos (.inr hl)

theorem resolveLost_all {s : State} {l : List Nat} (h : ∀ q ∈ l, ∃ x, s.stream q = some x ∧ x.lost = []) : l.foldl resolveLost s = s := by
  induction l with
  | nil => rfl
  | cons q l ih =>
    obtain ⟨x, hx, hl⟩ := h q List.mem_cons_self
    rw [List.foldl_cons, resolveLost_same hx hl]
    exact ih fun q hq => h q (List.mem_cons_of_mem _ hq)

/-- A batch entry whose stream waits where it stood. -/
def Waits (s : State) (b : BatchEnt) : Prop := ∃ x, s.stream b.slot = some x ∧ x.st = .replay ∧ x.pos = b.pos0 ∧ x.lost = []

/-- While there is room the first entry is in the batch of the replay. -/
theorem replayBatch_ne_nil {s : State} {room : Nat} {l : List BatchEnt} (hl : l ≠ []) (hroom : 0 < room) (hn : ∀ b ∈ l, 0 < b.ntok)
    (h : ∀ b ∈ l, Waits s b) : replayBatch s room l 0 ≠ [] := by
  cases l with
  | nil => exact absurd rfl hl
  | cons b l =>
    obtain ⟨x, hx, hst, hpos, -⟩ := h b List.mem_cons_self
    have hb := hn b List.mem_cons_self
    rw [replayBatch, hx]
    dsimp only
    rw [if_pos ⟨hst, by omega⟩]
    exact List.cons_ne_nil _ _

/-- With room for all its rows, every entry is in the batch of the replay. -/
theorem replayBatch_slots {s : State} {room : Nat} {l : List BatchEnt} {rows : Nat} (hsum : rows + (l.map (·.ntok)).sum ≤ room)
    (hn : ∀ b ∈ l, 0 < b.ntok) (h : ∀ b ∈ l, Waits s b) : (replayBatch s room l rows).map (·.slot) = l.map (·.slot) := by
  induction l generalizing rows with
  | nil => rfl
  | cons b l ih =>
    obtain ⟨x, hx, hst, hpos, -⟩ := h b List.mem_cons_self
    have hb := hn b List.mem_cons_self
    rw [List.map_cons, List.sum_cons] at hsum
    have hrows : min (b.pos0 + b.ntok - x.pos) (room - rows) = b.ntok := by omega
    rw [replayBatch, hx]
    dsimp only
    rw [hrows, if_pos ⟨hst, hb⟩, List.map_cons, List.map_cons, ih (by omega) (fun b hb => hn b (List.mem_cons_of_mem _ hb))
      (fun b hb => h b (List.mem_cons_of_mem _ hb))]

theorem restartCores_spec (s : State) (p : Pattern) : (restartCores s p).helm = s.helm ∧ Grows s (restartCores s p)
    ∧ ∀ c ∈ p.coresOf, ((restartCores s p).core c).useRestart = true := by
  have hfold (l : List Nat) (s : State) {c : Nat} (h : (s.core c).useRestart = true ∨ c ∈ l) :
      ((l.foldl (fun s c => s.setCore c { s.core c with useRestart := true }) s).core c).useRestart = true := by
    induction l generalizing s with
    | nil => exact h.resolve_right List.not_mem_nil
    | cons d l ih =>
      refine ih _ ?_
      by_cases hcd : c = d
      · rw [hcd, core_setCore_self]
        exact .inl rfl
      · rw [core_setCore_ne _ hcd]
        exact h.imp_right fun h => (List.mem_cons.1 h).resolve_left hcd
  refine ⟨foldl_field State.helm _ ?_ _ s, .of_out (foldl_field State.out _ ?_ _ s), fun c hc => hfold _ s (.inr hc)⟩
    <;> exact fun _ _ => rfl

/-- The streams of a replay are STEPPING again, the others READY, and the event names the step. -/
theorem replayed_worked (s : State) (block pi : Nat) (seq : BitVec 32) (out slots : List Nat) :
    Worked s ((setStreams (setStreams s out .ready) slots .stepping).logRec
      { mkRec block .event .streamReplay with stepSeq := seq, pat := pi }) :=
  ((setStreams_worked ..).trans (setStreams_worked ..)).trans (logRec_worked ..)

/-- The dispatched step takes the place of the stopped one, and what ended in it is reported. -/
theorem replay_dispatched {s : State} {pi : Nat} {p : Pattern} {u : Step} {seq : BitVec 32} {out : List Nat} {lclass : Nat}
    (hs : s.helm.steps = [u]) (hu : u.pat = pi) (hseq : u.seq = seq) (hph : u.phase = .stopped) (t : Step) :
    let r := dispatchStep s pi p t lclass
    let v := reportEnded (r.2.setSteps (r.2.helm.steps.map (fun u =>
      if u.pat = pi ∧ u.seq = seq ∧ u.phase = .stopped then r.1 else u))) out
    v.helm.steps = [r.1] ∧ (∀ c, ∃ m, v.core c = { s.core c with scratch := m }) ∧ ∀ c ∈ p.coresOf, .dispatch c r.1.drec ∈ v.out := by
  obtain ⟨hsteps, -, hcore, hsent, -⟩ := dispatchStep_spec s pi p t lclass
  generalize dispatchStep s pi p t lclass = r at hsteps hcore hsent
  dsimp only
  have hw := reportEnded_worked (r.2.setSteps (r.2.helm.steps.map (fun u => if u.pat = pi ∧ u.seq = seq ∧ u.phase = .stopped then r.1 else u))) out
  generalize reportEnded _ out = v at hw ⊢
  refine ⟨hw.2.1.trans ?_, fun c => ?_, fun c hc => hw.2.2.mem (hsent c hc)⟩
  · rw [State.setSteps, hsteps, hs]
    simp [hu, hseq, hph]
  · rw [hw.core]
    exact hcore c

/-- A stopped step is dispatched once more (R329). -/
theorem stepReplay_spec {s : State} {pi : Nat} {p : Pattern} {u : Step} (hp : s.pat pi = some p) (hs : s.helm.steps = [u]) (hu : u.pat = pi)
    (hph : u.phase = .stopped) (hd : u.toDrain = []) (hcl : u.toClear = []) (hmay : mayDispatch s pi { p with updateHold := [] } = true)
    (hidle : ∀ c ∈ p.coresOf, (s.core c).st = .idle) (hne : u.batch ≠ []) (hroom : 0 < bucketMax p) (hn : ∀ b ∈ u.batch, 0 < b.ntok)
    (hw : ∀ b ∈ u.batch, Waits s b) :
    ∃ t u', execStepReplay pi u.seq s = .next t ∧ t.helm.steps = [u'] ∧ u'.replays = u.replays + 1 ∧ u'.phase = .running
      ∧ u'.seq = p.nextSeq ∧ u'.toHalt = p.coresOf
      ∧ ((u.batch.map (·.ntok)).sum ≤ bucketMax p → u'.batch.map (·.slot) = u.batch.map (·.slot)) ∧ ∀ c ∈ p.coresOf, (t.core c).useRestart = true
        ∧ ∃ rec, .dispatch c rec ∈ t.out ∧ rec.stepSeq = p.nextSeq := by
  have hlost : u.slots.foldl resolveLost s = s := by
    refine resolveLost_all fun q hq => ?_
    obtain ⟨b, hb, rfl⟩ := List.mem_map.1 hq
    obtain ⟨x, hx, -, -, hl⟩ := hw b hb
    exact ⟨x, hx, hl⟩
  have hbatch : (replayBatch s (bucketMax p) u.batch 0).isEmpty = false := List.isEmpty_eq_false_iff.2 (replayBatch_ne_nil hne hroom hn hw)
  have hslots (h : (u.batch.map (·.ntok)).sum ≤ bucketMax p) :
      (replayBatch s (bucketMax p) u.batch 0).map (·.slot) = u.batch.map (·.slot) := replayBatch_slots (by omega) hn hw
  have hnone : ¬ (u.seq ≠ u.seq ∨ u.toDrain ≠ [] ∨ u.toClear ≠ [] ∨ mayDispatch s pi { p with updateHold := [] } = false
      ∨ p.coresOf.any (fun c => decide ((s.core c).st ≠ .idle)) = true) := by
    simp [hd, hcl, hmay]
    exact hidle
  rw [execStepReplay, hp, hs]
  simp only [List.find?_cons, hu, hph, and_self, decide_true]
  rw [if_neg hnone, hlost, if_neg (by rw [hbatch]; decide)]
  generalize replayBatch s (bucketMax p) u.batch 0 = batch at hslots ⊢
  generalize u.slots.filter _ = out
  have hs3 := replayed_worked s (helmBlock s pi) pi u.seq out (batch.map (·.slot))
  generalize State.logRec _ _ = s3 at hs3 ⊢
  have hpat : (s3.pat pi).getD p = p := by
    rw [hs3.pat, hp]
    rfl
  obtain ⟨hhelm, -, hrestart⟩ := restartCores_spec s3 p
  rw [hpat]
  generalize restartCores s3 p = s4 at hhelm hrestart
  have hsteps : s4.helm.steps = [u] := by rw [hhelm, hs3.2.1, hs]
  obtain ⟨hlist, hcore, hsent⟩ := replay_dispatched (out := out) (lclass := u.drec.lclass) (p := p) hsteps hu rfl hph
    { u with pat := pi, batch := batch, phase := .stopped, replays := u.replays + 1 }
  refine ⟨_, _, rfl, hlist, rfl, rfl, rfl, rfl, hslots, fun c hc => ⟨?_, _, hsent c hc, rfl⟩⟩
  obtain ⟨m, hm⟩ := hcore c
  exact (congrArg Core.useRestart hm).trans (hrestart c hc)

/-- Settles O39: the replay is `stepReplay_spec`, the stop of a region `regionStop_stops`. -/
theorem stepsAreCancelledStoppedAndReplayed : Obligations.StepsAreCancelledStoppedAndReplayed := by
  intro s pi p hp
  refine ⟨fun u seq hs hu hph hseq hc hr => ⟨fun h => ?_, fun h hl => ?_⟩, fun c r hc hpat hr => ⟨fun hst => ?_, fun hst hrs hf hm => ?_⟩,
    fun u seq hs hu hph hseq hd hcl hmay hidle hne hroom hn hw => ?_⟩
  · subst hseq
    exact stepCancel_cancels hp hs hu hph hc hr h
  · subst hseq
    obtain ⟨q, hq, x, hx, hst⟩ := h
    exact stepCancel_same hp hs hu hph hq hx hst hl
  · exact regionStop_same hp hc hpat hr hst
  · obtain ⟨t, ht, ⟨q, r', hq, hr', hst'⟩, hout, hstop⟩ := regionStop_stops hp hc hpat hr hst hrs hf hm
    exact ⟨t, q, ht, hq, by rw [hr', Option.map_some, hst'], hout, hstop⟩
  · subst hseq
    exact stepReplay_spec hp hs hu hph hd hcl hmay hidle hne hroom hn hw

end Sys2Proof.Machine

/-! ### Stores change memory and the vaults' rows alone; regions are reset and locks broken (R225, R229, R434) -/

namespace Sys2Proof.Machine

/-! #### All but memory and the vaults -/

/-- The state with memory and the vaults blanked. -/
def State.unstored (s : State) : State := { s with mem := [], vaults := [] }

section
variable {s t : State} (h : t.unstored = s.unstored)
include h

theorem unstored_cores : t.cores = s.cores := by
  change t.unstored.cores = s.unstored.cores
  rw [h]

theorem unstored_core (c : Nat) : t.core c = s.core c := by
  rw [State.core, unstored_cores h]
  rfl

theorem unstored_helm : t.helm = s.helm := by
  change t.unstored.helm = s.unstored.helm
  rw [h]

theorem unstored_out : t.out = s.out := by
  change t.unstored.out = s.unstored.out
  rw [h]

theorem unstored_pat (pi : Nat) : t.pat pi = s.pat pi := by
  rw [State.pat, unstored_helm h]
  rfl

end

@[simp] theorem setMem_unstored (s : State) (m : Memory) : ({ s with mem := m } : State).unstored = s.unstored := rfl

@[simp] theorem openRow_unstored (s : State) (a : Nat) : (openRow s a).unstored = s.unstored := by
  rw [openRow]
  rfl

@[simp] theorem openRows_unstored (s : State) (a n : Nat) : (openRows s a n).unstored = s.unstored := by
  rw [openRows]
  exact foldl_field State.unstored _ (fun s i => openRow_unstored ..) _ s

@[simp] theorem wrMem_unstored (s : State) (a : Nat) (b : Byte) : (s.wrMem a b).unstored = s.unstored := by
  rw [State.wrMem, openRow_unstored, setMem_unstored]

@[simp] theorem segPut_unstored (s : State) (pi seg : Nat) (g : Segment) (ofs : Nat) (b : Byte) :
    (segPut s pi seg g ofs b).unstored = s.unstored := by
  have hcopy : (match dualFrame s pi seg (ofs / 65536) with
      | none => s.wrMem (g.phys ofs) b
      | some f => (s.wrMem (g.phys ofs) b).wrMem (frameAddr f + ofs % 65536) b).unstored = s.unstored := by
    split <;> simp only [wrMem_unstored]
  simp only [segPut]
  split
  · split
    · exact hcopy
    · exact (wrMem_unstored ..).trans hcopy
  · exact hcopy

@[simp] theorem segPuts_unstored (s : State) (pi seg : Nat) (g : Segment) (ofs : Nat) (l : List Byte) :
    (segPuts s pi seg g ofs l).unstored = s.unstored := by
  induction l generalizing s ofs with
  | nil => rfl
  | cons b l ih => rw [segPuts, ih, segPut_unstored]

@[simp] theorem recPut_unstored (s : State) (pi : Nat) (p : Option Pattern) (a n v : Nat) : (recPut s pi p a n v).unstored = s.unstored := by
  rw [recPut]
  split
  · rfl
  · exact segPuts_unstored ..

/-! #### The reset of a region (R434) -/

/-- What a core's reset and its placement leave: the Patterns, the absent cores, the clocks and memory. -/
def State.standing (s : State) : Sparse (Option Pattern) × List Nat × Bool × Memory := (s.helm.pats, s.helm.absent, s.refLost, s.mem)

theorem standing_pat {s t : State} (h : t.standing = s.standing) (pi : Nat) : t.pat pi = s.pat pi := by
  rw [State.pat, show t.helm.pats = s.helm.pats from congrArg (·.1) h]
  rfl

theorem discardStored_standing (s : State) (c : Nat) (q : Fin 8) : (discardStored s c q).standing = s.standing := by
  rw [discardStored]
  refine foldl_field State.standing _ (fun s i => ?_) _ s
  rfl

theorem discardAll_standing (s : State) (c : Nat) : (discardAll s c).standing = s.standing := by
  rw [discardAll]
  exact foldl_field State.standing _ (fun s q => discardStored_standing s c q) _ s

theorem resetState_standing (s : State) (c : Nat) (k : Core) : (resetState s c k).standing = s.standing := rfl

theorem coreReset_standing (s : State) (c : Nat) : (coreReset s c).standing = s.standing := by
  rw [coreReset_eq, resetState_standing, discardAll_standing]
  rfl

theorem seatCore_standing (s : State) (c : Nat) : (seatCore s c).standing = s.standing := by
  rw [seatCore]
  split
  · rfl
  split
  · rfl
  split <;> rfl

theorem seatCore_core (s : State) (c d : Nat) : (seatCore s c).core d = s.core d := by
  rw [seatCore]
  split
  · rfl
  split
  · rfl
  split <;> rfl

/-- The cores of a region are reset and moved off sites that are out of use. -/
def resetSeated (s : State) (l : List Nat) : State := l.foldl seatCore (l.foldl coreReset s)

theorem resetSeated_spec (s : State) (l : List Nat) : (resetSeated s l).standing = s.standing
    ∧ ∀ c, c ∉ l → (resetSeated s l).core c = s.core c := by
  have hother (l' : List Nat) (s : State) {c : Nat} (h : c ∉ l') : (l'.foldl coreReset s).core c = s.core c := by
    induction l' generalizing s with
    | nil => rfl
    | cons d l' ih =>
      obtain ⟨hd, hl⟩ := not_or.1 (fun hx => h (List.mem_cons.2 hx))
      rw [List.foldl_cons, ih _ hl, (coreReset_spec s d).2.1 c hd]
  refine ⟨?_, fun c hc => ?_⟩
  · rw [resetSeated, foldl_field State.standing _ seatCore_standing, foldl_field State.standing _ coreReset_standing]
  · rw [resetSeated, foldl_field (fun s => s.core c) _ (fun s d => seatCore_core s d c)]
    exact hother l s hc

/-- A core as its region's reset leaves it: placed, and about to start at its restart entry. -/
def Core.Restarted (k : Core) (lost : Bool) (pi ri : Nat) : Prop :=
  k.st = (if lost = true then .reset else .idle) ∧ k.pat = some pi ∧ k.region = ri ∧ k.useRestart = true

theorem placeCore_restarts (s : State) (c pi ri : Nat) (m : Manifest) (img : CoreImage) :
    ((placeCore s c pi ri m img false).core c).Restarted s.refLost pi ri := by
  simp only [placeCore]
  rw [core_setCore_self]
  exact ⟨rfl, rfl, rfl, rfl⟩

/-- One core of a region is written from its image. -/
def placeNth (pi ri : Nat) (p : Pattern) (r : Region) (s : State) (i : Nat) : State :=
  match r.image.cores[i]? with
  | none => s
  | some img => placeCore s (r.cores.getD i 0) pi ri p.manifest img false

theorem placeRegionCores_eq (s : State) (pi ri : Nat) (p : Pattern) (r : Region) :
    placeRegionCores s pi ri p r false = (List.range r.cores.length).foldl (placeNth pi ri p r) s := rfl

section
variable {pi ri : Nat} {p : Pattern} {r : Region}

theorem placeNth_standing (s : State) (i : Nat) : (placeNth pi ri p r s i).standing = s.standing := by
  rw [placeNth]
  split <;> rfl

theorem placeNth_other (s : State) {i c : Nat} (h : c ≠ r.cores.getD i 0) : (placeNth pi ri p r s i).core c = s.core c := by
  rw [placeNth]
  split
  · rfl
  · exact core_setCore_ne s h _

/-- A core that is placed, or whose turn comes, ends up placed. -/
theorem placeNth_restarts (is : List Nat) (s : State) {c : Nat} (hlen : ∀ i ∈ is, i < r.image.cores.length)
    (h : (s.core c).Restarted s.refLost pi ri ∨ ∃ i ∈ is, r.cores.getD i 0 = c) :
    ((is.foldl (placeNth pi ri p r) s).core c).Restarted s.refLost pi ri := by
  induction is generalizing s with
  | nil => exact h.resolve_right fun ⟨_, hi, _⟩ => nomatch hi
  | cons i is ih =>
    have hlost : (placeNth pi ri p r s i).refLost = s.refLost := congrArg (·.2.2.1) (placeNth_standing s i)
    rw [List.foldl_cons, ← hlost]
    refine ih _ (fun j hj => hlen j (List.mem_cons_of_mem _ hj)) ?_
    by_cases hc : c = r.cores.getD i 0
    · refine .inl ?_
      rw [hlost, placeNth, List.getElem?_eq_getElem (hlen i List.mem_cons_self), hc]
      exact placeCore_restarts ..
    · rw [placeNth_other s hc, hlost]
      refine h.imp_right fun ⟨j, hj, hcj⟩ => ⟨j, (List.mem_cons.1 hj).resolve_left fun hji => hc ?_, hcj⟩
      rw [← hcj, hji]

theorem placeNth_others (is : List Nat) (s : State) {c : Nat} (h : ∀ i ∈ is, c ≠ r.cores.getD i 0) :
    (is.foldl (placeNth pi ri p r) s).core c = s.core c := by
  induction is generalizing s with
  | nil => rfl
  | cons i is ih =>
    exact (ih _ fun j hj => h j (List.mem_cons_of_mem _ hj)).trans (placeNth_other s (h i List.mem_cons_self))

end

/-- A region whose barriers have no arrivals, and that is not stopped. -/
def Region.restarted (r : Region) : Region := { r with arrived := [], stopped := false }

theorem regionReset_spec {s : State} {pi ri : Nat} {p : Pattern} {r : Region} (hp : s.pat pi = some p) (hr : p.regions[ri]? = some r)
    (ha : r.cores.any s.isAbsent = false) (hlen : r.image.cores.length = r.cores.length) :
    ∃ t, execRegionReset pi ri s = .next t ∧ t.pat pi = some (p.setRegion ri r.restarted)
      ∧ (∀ c ∈ r.cores, (t.core c).Restarted s.refLost pi ri) ∧ (∀ c, c ∉ r.cores → t.core c = s.core c) ∧ t.mem = s.mem := by
  obtain ⟨hstand, hother⟩ := resetSeated_spec s r.cores
  have habsent : (resetSeated s r.cores).isAbsent = s.isAbsent :=
    funext fun c => congrArg (fun a => decide (c ∈ a)) (show (resetSeated s r.cores).helm.absent = _ from congrArg (·.2.1) hstand)
  have hnone : unplaceCores (resetSeated s r.cores) (r.cores.filter (fun c => !decide (c ∈ r.cores))) = resetSeated s r.cores := by
    rw [List.filter_eq_nil_iff.2 fun c hc => by simp [hc]]
    rfl
  have hfold : r.cores.foldl seatCore (r.cores.foldl coreReset s) = resetSeated s r.cores := rfl
  have hexec : execRegionReset pi ri s = .next (placeRegionCores ((resetSeated s r.cores).setPat pi (p.setRegion ri r.restarted)) pi ri
      (p.setRegion ri r.restarted) r.restarted false) := by
    rw [execRegionReset, hp]
    dsimp only
    rw [hr]
    dsimp only
    rw [ha, Bool.and_false, if_neg (by decide), hfold, regionCores, habsent, ha, if_neg (by decide)]
    dsimp only
    rw [hnone]
    rfl
  have hlost : (resetSeated s r.cores).refLost = s.refLost := congrArg (·.2.2.1) hstand
  have hmem : (resetSeated s r.cores).mem = s.mem := congrArg (·.2.2.2) hstand
  generalize resetSeated s r.cores = u at hother hexec hlost hmem
  rw [placeRegionCores_eq] at hexec
  have hplaced := foldl_field State.standing _ (placeNth_standing (pi := pi) (ri := ri) (p := p.setRegion ri r.restarted) (r := r.restarted))
    (List.range r.restarted.cores.length) (u.setPat pi (p.setRegion ri r.restarted))
  refine ⟨_, hexec, ?_, fun c hc => ?_, fun c hc => ?_, (congrArg (·.2.2.2) hplaced).trans hmem⟩
  · exact (standing_pat hplaced pi).trans (pat_setPat_self u pi _)
  · rw [← hlost]
    refine placeNth_restarts (s := u.setPat pi (p.setRegion ri r.restarted)) _ (fun i hi => ?_) (.inr ?_)
    · rw [show r.restarted.image = r.image from rfl, hlen]
      exact List.mem_range.1 hi
    · obtain ⟨i, hi, rfl⟩ := List.getElem_of_mem hc
      exact ⟨i, List.mem_range.2 hi, List.getElem_eq_getD _ |>.symm⟩
  · rw [placeNth_others _ _ fun i hi => ?_]
    · exact hother c hc
    · rintro rfl
      exact hc (by rw [List.getD_eq_getElem _ _ (List.mem_range.1 hi)]; exact List.getElem_mem _)

/-! #### Orphan notices (R225) -/

theorem orphanClaims_unstored (s : State) (pi : Nat) (p : Option Pattern) (c : Nat) (r : RegCtr) :
    (orphanClaims s pi p c r).unstored = s.unstored := by
  rw [orphanClaims]
  split
  · rfl
  refine foldl_field State.unstored _ (fun s i => ?_) _ s
  split
  · rfl
  split
  · exact recPut_unstored ..
  · rfl

/-- An orphan notice is acknowledged; the claims that it marks are memory. -/
theorem orphanNotice_spec (s : State) {v c : Nat} (hv : v < Config.nSites) (hc : c < Config.nCores) :
    ∃ t, execOrphanNotice v c s = .next t ∧ t.out = s.out ++ [.orphanAck v c] ∧ t.cores = s.cores ∧ t.helm = s.helm := by
  rw [execOrphanNotice, if_neg (by omega), onCore_ok _ _ _ hc]
  dsimp only
  split
  · exact ⟨_, rfl, rfl, rfl, rfl⟩
  next pi _ =>
    have h := foldl_field State.unstored (fun s r => orphanClaims s pi (s.pat pi) c r) (fun s r => orphanClaims_unstored ..)
      ((s.regCtrs v).filter (fun r => decide (r.pat = pi))) s
    generalize List.foldl _ s _ = t at h ⊢
    exact ⟨_, rfl, congrArg (· ++ _) (unstored_out h), (unstored_cores h :), (unstored_helm h :)⟩

/-- A release breaks a lock that the core still holds at the epoch (R229). -/
theorem lockRelease_spec (s : State) {c addr pi w : Nat} {epoch : BitVec 16} (hc : c < Config.nCores) :
    let sent := s.helm.frees.find? (fun e => decide (e.1 = c ∧ e.2.1 = addr ∧ e.2.2.1 = epoch))
    let s1 := { s with helm := { s.helm with frees := match sent with | none => s.helm.frees | some e => s.helm.frees.erase e } }
    (match sent with | none => (s.core c).pat | some e => some e.2.2.2) = some pi → lockGet s1 (s.pat pi) addr = .ok w →
    execLockRelease c addr epoch s = .next (if lockOwner w = c ∧ lockState w = 1 ∧ lockEpoch w = epoch.toNat
      then (lockPut s1 pi (s.pat pi) addr w (lockWord c epoch.toNat 2 true)).bump32 (vaultCtr (recVault (s.pat pi) addr) 0x3C) 1
      else s1) := by
  intro sent s1 hpi hget
  rw [execLockRelease, onCore_ok _ _ _ hc]
  dsimp only
  split
  next h => exact nomatch hpi.symm.trans h
  next pi' h =>
    cases hpi.symm.trans h
    split
    next h => exact nomatch hget.symm.trans h
    next w' h =>
      cases hget.symm.trans h
      rfl

/-- Settles O37: the reset of a region is `regionReset_spec`; the rest is one branch of each command. -/
theorem regionsRestartAndLocksAreBroken : Obligations.RegionsRestartAndLocksAreBroken := by
  intro s
  refine ⟨fun pi ri p r hp hr ha hlen => regionReset_spec hp hr ha hlen, fun c addr epoch pi w hc => ?_,
    fun v c hv hc => ⟨orphanNotice_spec s hv hc, ?_⟩⟩
  · intro sent s1 hpi hget
    have hexec := lockRelease_spec s hc hpi hget
    refine ⟨fun h1 h2 h3 => hexec.trans (congrArg _ (if_pos ⟨h1, h2, h3⟩)), fun h => hexec.trans (congrArg _ (if_neg fun hn => ?_))⟩
    exact h.elim (absurd hn.1) fun h => h.elim (absurd hn.2.1) (absurd hn.2.2)
  · change execOrphanNoticeAck v c s = _
    rw [execOrphanNoticeAck, if_neg (by omega)]
    exact onCore_ok _ _ _ hc

end Sys2Proof.Machine

/-! ### Locks that wait (R226 to R228) -/

namespace Sys2Proof.Machine

theorem lockPut_unstored (s : State) (pi : Nat) (p : Option Pattern) (a old w : Nat) : (lockPut s pi p a old w).unstored = s.unstored :=
  recPut_unstored ..

/-- The only command in progress of an engine takes another form. -/
theorem putProg_only {s : State} {c : Nat} {e : Fin 5} {fl : InFlight} (h : ((s.core c).queue e).prog = [fl]) (fl' : InFlight) :
    (putProg s c e 0 fl').core c = (s.core c).setQueue e { (s.core c).queue e with prog := [fl'] }
      ∧ OtherCores c s (putProg s c e 0 fl') ∧ (putProg s c e 0 fl').mem = s.mem ∧ (putProg s c e 0 fl').out = s.out := by
  refine ⟨?_, fun d hd => core_setCore_ne s hd _, rfl, rfl⟩
  rw [putProg, core_setCore_self, h]
  rfl

section
variable {s : State} {c a u : Nat} {fl : InFlight} {dreg : Option Reg} (hc : c < Config.nCores) (hrun : (s.core c).st = .running)
  (hq : ((s.core c).queue 3).prog = [fl]) (hheld : fl.held = true) (hlink : fl.link = some a) (hop : fl.entry.op = .vault .lock u dreg)
include hc hrun hq hheld hlink hop

/-- The only waiting LOCK of a core tries its word once more. -/
theorem lockRetry_tries : execLockRetry c s = .next (
    match lockOut (recVault (s.corePat (s.core c)) a) fl dreg s a (fl.tries - 1)
      (lockTry s c ((s.core c).pat.getD 0) (s.corePat (s.core c)) a) with
    | .go s1 fl1 => putProg s1 c 3 0 fl1
    | .stop s1 st => stopCore s1 c 3 fl.entry st
    | _ => s) := by
  have hone : List.range ((s.core c).queue 3).prog.length = [0] := by rw [hq]; rfl
  rw [execLockRetry, onCore_ok _ _ _ hc, if_pos hrun, hone, lockTries]
  simp only [hq, List.getElem?_cons_zero, hheld, hlink, hop]
  cases lockOut _ fl dreg s a (fl.tries - 1) _ <;> rfl

theorem lockRetry_stops {st : Stop} (h : lockTry s c ((s.core c).pat.getD 0) (s.corePat (s.core c)) a = .stop st) (hkey : st.key = none) :
    ∃ t, execLockRetry c s = .next t ∧ Stopped s t c 4 st.kind st.code fl.entry.pos ∧ t.mem = s.mem := by
  have hexec := lockRetry_tries hc hrun hq hheld hlink hop
  rw [h] at hexec
  obtain ⟨hstop, -, hmem, -⟩ := stopCore_stops (s := s) (c := c) (e := 3) (q := fl.entry) hkey (by rw [hrun]; decide)
  exact ⟨_, hexec, hstop, hmem⟩

/-- Another core holds the lock: one try fewer, or BUSY after the last. -/
theorem lockRetry_busy {ep : Nat} (h : lockTry s c ((s.core c).pat.getD 0) (s.corePat (s.core c)) a = .busy ep) :
    ∃ t, execLockRetry c s = .next t
        ∧ t.core c = (s.core c).setQueue 3 { (s.core c).queue 3 with prog := [
            if fl.tries ≤ 1 then { fl with held := false, tries := 0, link := none,
                                           result := dreg.map (fun r => (r, BitVec.ofNat 64 (ep + 2 ^ 16))) }
            else { fl with tries := fl.tries - 1 }] }
        ∧ t.mem = s.mem ∧ OtherCores c s t ∧ t.out = s.out := by
  have hexec := lockRetry_tries hc hrun hq hheld hlink hop
  rw [h, lockOut] at hexec
  have hq' (v : Nat) : (((nmuBytesAt s v 64).core c).queue 3).prog = [fl] := hq
  by_cases ht : fl.tries ≤ 1
  · rw [if_pos (by omega)] at hexec
    obtain ⟨hcore, hother, hmem, hout⟩ := putProg_only (hq' (recVault (s.corePat (s.core c)) a))
      (withResult { fl with held := false, tries := 0, link := none } dreg (ep + 2 ^ 16))
    exact ⟨_, hexec, hcore.trans (by rw [if_pos ht]; rfl), hmem, hother, hout⟩
  · rw [if_neg (by omega)] at hexec
    obtain ⟨hcore, hother, hmem, hout⟩ := putProg_only (hq' (recVault (s.corePat (s.core c)) a))
      { fl with held := true, tries := fl.tries - 1, link := some a }
    refine ⟨_, hexec, hcore.trans ?_, hmem, hother, hout⟩
    rw [if_neg ht, ← hheld, ← hlink]
    rfl

/-- A FREE or BROKEN lock is acquired. -/
theorem lockRetry_acquires {w : Nat} (hl : (s.core c).locks.length < 16) (hg : lockGet s (s.corePat (s.core c)) a = .ok w)
    (hw : lockState w = 0 ∨ lockState w = 2) : ∃ t, execLockRetry c s = .next t
        ∧ (t.core c).locks = (s.core c).locks ++ [(a, BitVec.ofNat 16 ((lockEpoch w + 1) % 65536))]
        ∧ ((t.core c).queue 3).prog.map (fun f => (f.held, f.result))
            = [(false, dreg.map (fun r => (r, BitVec.ofNat 64 ((lockEpoch w + 1) % 65536 + (if lockSuspect w = true then 2 else 0) * 2 ^ 16))))]
        ∧ t.mem = (lockPut s ((s.core c).pat.getD 0) (s.corePat (s.core c)) a w
            (lockWord c ((lockEpoch w + 1) % 65536) 1 (lockSuspect w))).mem
        ∧ (t.core c).regs = (s.core c).regs ∧ (t.core c).sems = (s.core c).sems ∧ (t.core c).scratch = (s.core c).scratch
        ∧ OtherCores c s t ∧ t.out = s.out := by
  have hexec := lockRetry_tries hc hrun hq hheld hlink hop
  rw [lockTry, if_neg (by omega), hg] at hexec
  dsimp only at hexec
  rw [if_pos hw, lockOut] at hexec
  dsimp only at hexec
  have hun := lockPut_unstored s ((s.core c).pat.getD 0) (s.corePat (s.core c)) a w (lockWord c ((lockEpoch w + 1) % 65536) 1 (lockSuspect w))
  generalize lockPut s _ _ a w _ = t at hexec hun ⊢
  have hcore := unstored_core hun
  rw [hcore c] at hexec
  generalize hk : ({ s.core c with locks := (s.core c).locks ++ [(a, BitVec.ofNat 16 ((lockEpoch w + 1) % 65536))] } : Core) = k at hexec
  have hview : (nmuBytesAt (t.setCore c k) (recVault (s.corePat (s.core c)) a) 128).core c = k := core_setCore_self t c k
  have hq' : (((nmuBytesAt (t.setCore c k) (recVault (s.corePat (s.core c)) a) 128).core c).queue 3).prog = [fl] := by
    rw [hview, ← hk]
    exact hq
  obtain ⟨hcore', hother, hmem, hout⟩ := putProg_only hq' (withResult { fl with held := false, tries := 0, link := none } dreg
    ((lockEpoch w + 1) % 65536 + (if lockSuspect w = true then 2 else 0) * 2 ^ 16))
  rw [hview] at hcore'
  refine ⟨_, hexec, ?_, ?_, hmem, ?_, ?_, ?_, fun d hd => (hother d hd).trans ((core_setCore_ne t hd k).trans (hcore d)), hout.trans (unstored_out hun :)⟩
  · exact (congrArg Core.locks hcore').trans (by rw [← hk]; rfl)
  · rw [hcore', queue_setQueue_self]
    rfl
  · exact (congrArg Core.regs hcore').trans (by rw [← hk]; rfl)
  · exact (congrArg Core.sems hcore').trans (by rw [← hk]; rfl)
  · exact (congrArg Core.scratch hcore').trans (by rw [← hk]; rfl)

end

/-- Settles O25: one try is `lockRetry_tries`, its outcomes the three lemmas after it. -/
theorem locksAreAcquiredOrRetried : Obligations.LocksAreAcquiredOrRetried := by
  intro s c a u w fl dreg hc k p ep result hrun hq hheld hlink hop
  refine ⟨fun hl => ?_, fun hl hg => ⟨fun hw => ?_, fun hw ho => ?_, fun hw ho => ?_⟩⟩
  · exact lockRetry_stops hc hrun hq hheld hlink hop (if_pos hl) rfl
  · exact lockRetry_acquires hc hrun hq hheld hlink hop hl hg hw
  · refine lockRetry_stops hc hrun hq hheld hlink hop (st := rejectS .lockOwner) ?_ rfl
    rw [lockTry, if_neg (Nat.not_le.2 hl), hg]
    dsimp only
    rw [if_neg (by omega), if_pos ⟨hw, ho⟩]
  · refine lockRetry_busy hc hrun hq hheld hlink hop ?_
    rw [lockTry, if_neg (Nat.not_le.2 hl), hg]
    dsimp only
    rw [if_neg (by omega), if_neg (fun h => ho h.2)]

end Sys2Proof.Machine

/-! ### Element operations at an NMU: stores to segments, FILL and work counters (R189, R208, R219, R221 to R223, R315, R319) -/

namespace Sys2Proof.Machine

/-! #### Which bytes a store touches -/

/-- The copy of a segment's byte in its page's other frame, while the page migrates. -/
def copyAt (s : State) (pi seg ofs : Nat) : Option Nat := (dualFrame s pi seg (ofs / 65536)).map (fun f => frameAddr f + ofs % 65536)

/-- The parity byte of a segment's byte. -/
def parityAt (g : Segment) (ofs : Nat) : Option Nat :=
  if g.protected' = true then (g.parity[ofs / 65536 / 7]?).map (fun f => frameAddr f + ofs % 65536) else none

section
variable (s : State) (pi seg : Nat) (g : Segment) (ofs : Nat) (b : Byte)

/-- The byte and its copy. -/
def copied : State :=
  match dualFrame s pi seg (ofs / 65536) with
  | none => s.wrMem (g.phys ofs) b
  | some f => (s.wrMem (g.phys ofs) b).wrMem (frameAddr f + ofs % 65536) b

theorem segPut_eq : segPut s pi seg g ofs b
    = match parityAt g ofs with
      | none => copied s pi seg g ofs b
      | some a => (copied s pi seg g ofs b).wrMem a (rdByte (copied s pi seg g ofs b).mem a ^^^ (segGet s g ofs).getD 0 ^^^ b) := by
  rw [segPut, parityAt]
  by_cases hp : g.protected' = true
  · rw [if_pos hp, if_pos hp]
    cases g.parity[ofs / 65536 / 7]? <;> rfl
  · rw [if_neg hp, if_neg hp]
    rfl

variable {s pi seg g ofs b}

theorem copied_other {a : Nat} (h : a ≠ g.phys ofs) (hc : copyAt s pi seg ofs ≠ some a) :
    rdByte (copied s pi seg g ofs b).mem a = rdByte s.mem a := by
  rw [copyAt] at hc
  rw [copied]
  split
  · exact rdByte_wrMem_ne s h b
  next f hf =>
    rw [hf] at hc
    rw [rdByte_wrMem_ne _ (fun ha => hc (congrArg some ha.symm)), rdByte_wrMem_ne s h]

theorem copied_self (hc : copyAt s pi seg ofs ≠ some (g.phys ofs)) : rdByte (copied s pi seg g ofs b).mem (g.phys ofs) = b := by
  rw [copyAt] at hc
  rw [copied]
  split
  · exact rdByte_wrMem_self ..
  next f hf =>
    rw [hf] at hc
    rw [rdByte_wrMem_ne _ (fun ha => hc (congrArg some ha.symm)), rdByte_wrMem_self]

/-- Nothing but the parity byte changes after the copies. -/
theorem segPut_copied {a : Nat} (h : parityAt g ofs ≠ some a) :
    rdByte (segPut s pi seg g ofs b).mem a = rdByte (copied s pi seg g ofs b).mem a := by
  rw [segPut_eq]
  split
  · rfl
  next x hx => exact rdByte_wrMem_ne _ (fun ha => h (hx.trans (congrArg some ha.symm))) _

theorem segPut_other {a : Nat} (h : a ≠ g.phys ofs) (hc : copyAt s pi seg ofs ≠ some a) (hp : parityAt g ofs ≠ some a) :
    rdByte (segPut s pi seg g ofs b).mem a = rdByte s.mem a := (segPut_copied hp).trans (copied_other h hc)

theorem segPut_self (hc : copyAt s pi seg ofs ≠ some (g.phys ofs)) (hp : parityAt g ofs ≠ some (g.phys ofs)) :
    rdByte (segPut s pi seg g ofs b).mem (g.phys ofs) = b := (segPut_copied hp).trans (copied_self hc)

end

/-- A byte that no store from `ofs` on names. -/
def Untouched (s : State) (pi seg : Nat) (g : Segment) (ofs n a : Nat) : Prop :=
  ∀ i < n, a ≠ g.phys (ofs + i) ∧ copyAt s pi seg (ofs + i) ≠ some a ∧ parityAt g (ofs + i) ≠ some a

theorem copyAt_congr {s t : State} (h : t.helm = s.helm) (pi seg ofs : Nat) : copyAt t pi seg ofs = copyAt s pi seg ofs := by
  rw [copyAt, copyAt, dualFrame, dualFrame, h]

theorem segPuts_other {pi seg : Nat} {g : Segment} {a : Nat} (l : List Byte) (s : State) (ofs : Nat)
    (h : Untouched s pi seg g ofs l.length a) : rdByte (segPuts s pi seg g ofs l).mem a = rdByte s.mem a := by
  induction l generalizing s ofs with
  | nil => rfl
  | cons b l ih =>
    obtain ⟨h1, h2, h3⟩ := h 0 (Nat.succ_pos _)
    rw [segPuts]
    refine (ih _ _ fun i hi => ?_).trans (segPut_other h1 h2 h3)
    rw [copyAt_congr (unstored_helm (segPut_unstored ..)), Nat.add_assoc, Nat.add_comm 1 i]
    exact h (i + 1) (Nat.succ_lt_succ hi)

/-! #### A command is ready at its NMU (R208) -/

/-- Before an element operation the core's translations are cached, a row may be opened, and free values may be drawn. -/
def NmuReady (s : State) (c : Nat) (t : State) : Prop :=
  (∃ tags, t.core c = { s.core c with nmuXlate := tags }) ∧ OtherCores c s t ∧ t.mem = s.mem ∧ t.helm = s.helm ∧ t.out = s.out
    ∧ ∀ v, (t.vault v).ctrs = (s.vault v).ctrs

theorem hit_state (x : Mv) (t : XlateTag) : ∃ n, (x.hit t).s = { x.s with drawn := n } := by
  rw [Mv.hit]
  split
  · exact ⟨_, rfl⟩
  split <;> exact ⟨_, rfl⟩

theorem elemHits_state (x : Mv) (op : VaultOp) (d : NDesc) : ∃ n, (elemHits x op d).s = { x.s with drawn := n } := by
  have hfold (l : List Nat) (y : Mv) : ∃ n, (l.foldl (fun x i => x.hit (segTag (segOf d.vbase) (ofsOf d.vbase + 65536 * i))) y).s
      = { y.s with drawn := n } := by
    induction l generalizing y with
    | nil => exact ⟨_, rfl⟩
    | cons i l ih =>
      obtain ⟨n, hn⟩ := hit_state y (segTag (segOf d.vbase) (ofsOf d.vbase + 65536 * i))
      obtain ⟨m, hm⟩ := ih (y.hit (segTag (segOf d.vbase) (ofsOf d.vbase + 65536 * i)))
      exact ⟨m, by rw [List.foldl_cons, hm, hn]⟩
  exact hfold _ x

/-- The state in which an element operation reaches its NMU. -/
def nmuState (s : State) (c : Nat) (op : VaultOp) (d : NDesc) : State :=
  let y := elemHits (mvOf ((s.setCore c (s.core c)).setCore c (s.core c)) (s.core c).scratch (s.core c).nmuXlate 64) op d
  y.s.setCore c { s.core c with nmuXlate := y.tags }

theorem nmuState_ready (s : State) (c : Nat) (op : VaultOp) (d : NDesc) : NmuReady s c (nmuState s c op d) := by
  obtain ⟨n, hn⟩ := elemHits_state (mvOf ((s.setCore c (s.core c)).setCore c (s.core c)) (s.core c).scratch (s.core c).nmuXlate 64) op d
  rw [nmuState]
  dsimp only
  rw [hn]
  refine ⟨⟨_, core_setCore_self ..⟩, fun e he => ?_, rfl, rfl, rfl, fun _ => rfl⟩
  rw [core_setCore_ne _ he]
  exact (core_setCore_ne _ he _).trans (core_setCore_ne _ he _)

theorem openRow_ctrs (s : State) (a v : Nat) : ((openRow s a).vault v).ctrs = (s.vault v).ctrs := by
  rw [openRow, State.vault, State.setVault]
  by_cases h : v = physVault a
  · rw [h, Sparse.get_set_self]
  · rw [Sparse.get_set_ne _ _ h]
    rfl

theorem NmuReady.open {s t : State} {c : Nat} (h : NmuReady s c t) (p : Option Pattern) (a : Nat) : NmuReady s c (recOpen t p a) := by
  rw [recOpen]
  split
  · exact h
  next g _ =>
    obtain ⟨hcore, hother, hmem, hhelm, hout, hctrs⟩ := h
    exact ⟨hcore, hother, hmem, hhelm, hout, fun v => (openRow_ctrs t _ v).trans (hctrs v)⟩

section
variable {s : State} {c unit : Nat} {d : NDesc} {h : QEntry} {dreg : Option Reg} (hd : descAt (s.core c).scratch unit = d)
include hd

theorem startEntry_fill (hop : h.op = .vault .fill unit dreg)
    (hchk : firstStop (nmuChecks (s.corePat (s.core c)) .fill d unit) = none) {t : State}
    (hfill : fillWords ((s.core c).pat.getD 0) (s.corePat (s.core c)) (segOf d.vbase) (d.p0 + d.p1 * 2 ^ 32) (nmuState s c .fill d)
      (ofsOf d.vbase) d.count = (t, none)) :
    startEntry (s.setCore c (s.core c)) c (s.core c) { h with stalled := none } = .go t (inFlight { h with stalled := none } [] []) := by
  have hp : (s.setCore c (s.core c)).corePat (s.core c) = s.corePat (s.core c) := rfl
  rw [startEntry, hop]
  dsimp only
  rw [startVault, if_neg (by decide), hp, hd]
  dsimp only
  rw [hchk]
  dsimp only
  rw [if_pos rfl]
  change (match fillWords _ _ _ _ (nmuState s c .fill d) _ _ with | (s1, some st) => StartOut.stop s1 st | (s1, none) => _) = _
  rw [hfill]

theorem startEntry_ctradd (hop : h.op = .vault .ctradd unit dreg)
    (hchk : firstStop (nmuChecks (s.corePat (s.core c)) .ctradd d unit) = none) {t : State} {w : Nat}
    (hdraw : ctrDraw (recOpen (nmuState s c .ctradd d) (s.corePat (s.core c)) d.vbase) c ((s.core c).pat.getD 0) (s.corePat (s.core c))
      d.vbase d.p0 = .ok (t, w)) :
    startEntry (s.setCore c (s.core c)) c (s.core c) { h with stalled := none }
      = .go (nmuBytesAt t (recVault (s.corePat (s.core c)) d.vbase) 128) (withResult (inFlight { h with stalled := none } [] []) dreg w) := by
  have hp : (s.setCore c (s.core c)).corePat (s.core c) = s.corePat (s.core c) := rfl
  rw [startEntry, hop]
  dsimp only
  rw [startVault, if_neg (by decide), hp, hd]
  dsimp only
  rw [hchk]
  dsimp only
  rw [if_neg (by decide)]
  change (match ctrDraw (recOpen (nmuState s c .ctradd d) _ d.vbase) _ _ _ _ _ with | .error st => StartOut.stop _ st | .ok (s1, w) => _) = _
  rw [hdraw]

end

/-! #### FILL (R219) -/

theorem fillWords_spec {pi seg pat : Nat} {p : Option Pattern} {g : Segment} (n : Nat) (s : State) (o : Nat)
    (hx : ∀ i < n, xlateSeg p seg (o + 64 * i) false true = .ok g) :
    ∃ t, fillWords pi p seg pat s o n = (t, none) ∧ t.cores = s.cores ∧ t.helm = s.helm ∧ t.out = s.out
      ∧ ∀ a, Untouched s pi seg g o (64 * n) a → rdByte t.mem a = rdByte s.mem a := by
  induction n generalizing s o with
  | zero => exact ⟨s, rfl, rfl, rfl, rfl, fun _ _ => rfl⟩
  | succ n ih =>
    have hword := segPuts_unstored s pi seg g o (List.replicate 8 (toBytes 8 pat)).flatten
    have hbytes (a : Nat) (ha : Untouched s pi seg g o 64 a) := segPuts_other (List.replicate 8 (toBytes 8 pat)).flatten s o
      (a := a) (by simpa using ha)
    rw [fillWords, show xlateSeg p seg o false true = .ok g from hx 0 (Nat.succ_pos n)]
    dsimp only
    generalize segPuts s pi seg g o _ = u at hword hbytes
    obtain ⟨t, ht, hcores, hhelm, hout, hmem⟩ := ih (nmuBytesAt u (physVault (g.phys o)) 64) (o + 64) fun i hi => by
      rw [Nat.add_assoc, Nat.add_comm 64, ← Nat.mul_succ]
      exact hx (i + 1) (Nat.succ_lt_succ hi)
    refine ⟨t, ht, hcores.trans (unstored_cores hword :), hhelm.trans (unstored_helm hword :), hout.trans (unstored_out hword :), fun a ha => ?_⟩
    refine (hmem a fun i hi => ?_).trans (hbytes a fun i hi => ha i (by omega))
    rw [copyAt_congr (s := s) (t := nmuBytesAt u (physVault (g.phys o)) 64) (unstored_helm hword :), Nat.add_assoc]
    exact ha (64 + i) (by omega)

/-- Settles O26: a store is `segPut_other` and `segPut_self`, a FILL `fillWords_spec`. -/
theorem segmentStoresTouchOnlyTheirBytes : Obligations.SegmentStoresTouchOnlyTheirBytes := by
  refine ⟨fun s pi seg ofs g b => ?_, fun s c unit dreg h g hc => ?_⟩
  · have hun := segPut_unstored s pi seg g ofs b
    exact ⟨fun a h hcopy hpar => segPut_other h hcopy hpar, fun hcopy hpar => segPut_self hcopy hpar, unstored_cores hun,
      unstored_helm hun, unstored_out hun⟩
  · intro k d p ho hop hchk hx
    obtain ⟨⟨tags, hcore⟩, hother, hmem, hhelm, hout, -⟩ := nmuState_ready s c .fill d
    obtain ⟨t, hfill, hcores', hhelm', hout', hbytes⟩ := fillWords_spec (pi := k.pat.getD 0) (pat := d.p0 + d.p1 * 2 ^ 32) d.count
      (nmuState s c .fill d) (ofsOf d.vbase) hx
    have hexec := start_goes ho hc (startEntry_fill rfl hop hchk hfill)
    obtain ⟨hstart, hothers, hsent, hstore⟩ := headStarted_spec t c 3 (inFlight { h with stalled := none } [] [])
    have hview (e : Nat) : t.core e = (nmuState s c .fill d).core e := by rw [State.core, hcores']; rfl
    refine ⟨_, hexec, hsent.trans (hout'.trans hout), fun e he => ?_, ?_, fun a ha => ?_⟩
    · rw [hothers e he, hview, hother e he]
    · rw [hstart, hview, hcore]
      rfl
    · rw [hstore, ← hmem]
      refine hbytes a fun i hi => ?_
      rw [copyAt_congr hhelm]
      exact ha i hi

/-! #### Work counters (R221, R223) -/

section
variable {s t : State} (hm : t.mem = s.mem) (hh : t.helm = s.helm)
include hm hh

theorem segGet_congr (g : Segment) (ofs : Nat) : segGet t g ofs = segGet s g ofs := by
  rw [segGet, segGet, State.lostAt, State.lostAt, hm, hh]

theorem recGet_congr (p : Option Pattern) (a n : Nat) : recGet t p a n = recGet s p a n := by
  have hbytes (g : Segment) (ofs : Nat) : segBytes t g ofs n = segBytes s g ofs n := by simp only [segBytes, segGet_congr hm hh]
  rw [recGet, recGet]
  split
  · rfl
  · rw [State.lostAt, State.lostAt, hh, hbytes]

theorem ctrGet_congr (p : Option Pattern) (a : Nat) : ctrGet t p a = ctrGet s p a := by rw [ctrGet, ctrGet, recGet_congr hm hh]

theorem segPut_congr (pi seg : Nat) (g : Segment) (ofs : Nat) (b : Byte) :
    (segPut t pi seg g ofs b).mem = (segPut s pi seg g ofs b).mem := by
  have hcopied : (copied t pi seg g ofs b).mem = (copied s pi seg g ofs b).mem := by
    simp only [copied, dualFrame, hh]
    split <;> simp only [State.wrMem, openRow_frame, hm]
  rw [segPut_eq, segPut_eq, segGet_congr hm hh, hcopied]
  split
  · exact hcopied
  · simp only [State.wrMem, openRow_frame, hcopied]

theorem segPuts_congr (pi seg : Nat) (g : Segment) (ofs : Nat) (l : List Byte) :
    (segPuts t pi seg g ofs l).mem = (segPuts s pi seg g ofs l).mem := by
  induction l generalizing s t ofs with
  | nil => exact hm
  | cons b l ih =>
    refine ih (segPut_congr hm hh pi seg g ofs b) ?_ _
    rw [unstored_helm (segPut_unstored ..), unstored_helm (segPut_unstored ..), hh]

theorem recPut_congr (pi : Nat) (p : Option Pattern) (a n v : Nat) : (recPut t pi p a n v).mem = (recPut s pi p a n v).mem := by
  rw [recPut, recPut]
  split
  · exact hm
  · exact segPuts_congr hm hh ..

end

section
variable {s : State} {c pi a inc w : Nat} {p : Option Pattern} (hget : ctrGet s p a = .ok w) (hclaim : ctrClaim w = false)
include hget hclaim

/-- A counter without claims below its limit is drawn. -/
theorem ctrDraw_draws (hn : ctrNotify s pi (recVault p a) a = none) (hl : ctrNext w < ctrLimit w) : ctrDraw s c pi p a inc
    = .ok (recPut s pi p a 8 (min (ctrNext w + inc) (ctrLimit w) + (2 ^ 32 - 1 - min (ctrNext w + inc) (ctrLimit w)) * 2 ^ 32), ctrNext w) := by
  simp [ctrDraw, hget, hclaim, claimFind, Nat.not_le.2 hl, hn]

/-- At its limit it is exhausted. -/
theorem ctrDraw_exhausted (hl : ctrLimit w ≤ ctrNext w) : ctrDraw s c pi p a inc = .ok (s, 0xFFFFFFFF + 3 * 2 ^ 32) := by
  simp [ctrDraw, hget, hclaim, claimFind, hl]

end

/-- What a started CTRADD leaves beside its counter. -/
theorem ctradd_left {s t : State} {c v : Nat} {h : QEntry} {tags : List XlateTag} (hcore : t.core c = { s.core c with nmuXlate := tags })
    (hq : (s.core c).queue 3 = { issue := [h], prog := [] }) (fl : InFlight) :
    ((headStarted (nmuBytesAt t v 128) c 3 fl).core c |>.queue 3).prog = [fl] ∧ OtherCores c t (headStarted (nmuBytesAt t v 128) c 3 fl)
      ∧ (headStarted (nmuBytesAt t v 128) c 3 fl).mem = t.mem := by
  obtain ⟨hstart, hothers, -, hmem⟩ := headStarted_spec (nmuBytesAt t v 128) c 3 fl
  refine ⟨?_, hothers, hmem⟩
  rw [hstart]
  refine headGone_prog (h := h) fl ?_
  rw [show (nmuBytesAt t v 128).core c = t.core c from rfl, hcore]
  exact hq

/-- Settles O27: a draw is `ctrDraw_draws`, the end of the counter `ctrDraw_exhausted`. -/
theorem counterDrawsAreConsecutive : Obligations.CounterDrawsAreConsecutive := by
  intro s c unit w r h hc k d p pi ho hop hchk hget hclaim hnotify
  obtain ⟨⟨tags, hcore⟩, hother, hmem, hhelm, hout, hctrs⟩ := (nmuState_ready s c .ctradd d).open p d.vbase
  have hq := (Core.onlyHead_iff.1 ho).2.2.2.1
  set u := recOpen (nmuState s c .ctradd d) p d.vbase
  have hget' : ctrGet u p d.vbase = .ok w := (ctrGet_congr hmem hhelm p d.vbase).trans hget
  refine ⟨fun hl => ?_, fun hl => ?_⟩
  · have hnotify' : ctrNotify u pi (recVault p d.vbase) d.vbase = none := by
      rw [ctrNotify, State.regCtrs, hctrs]
      exact hnotify
    have hdraw := ctrDraw_draws (c := c) (inc := d.p0) hget' hclaim hnotify' hl
    have hexec := start_goes ho hc (startEntry_ctradd rfl hop hchk hdraw)
    have hstore := recPut_unstored u pi p d.vbase 8 (min (ctrNext w + d.p0) (ctrLimit w)
      + (2 ^ 32 - 1 - min (ctrNext w + d.p0) (ctrLimit w)) * 2 ^ 32)
    have hword := recPut_congr (t := u) (s := s.setCore c k) hmem hhelm pi p d.vbase 8 (min (ctrNext w + d.p0) (ctrLimit w)
      + (2 ^ 32 - 1 - min (ctrNext w + d.p0) (ctrLimit w)) * 2 ^ 32)
    generalize recPut u pi p d.vbase 8 _ = t at hexec hstore hword
    have hview := unstored_core hstore
    obtain ⟨hprog, hothers, hmem'⟩ := ctradd_left (t := t) (v := recVault p d.vbase) ((hview c).trans hcore) hq
      (withResult (inFlight { h with stalled := none } [] []) (some r) (ctrNext w))
    refine ⟨_, hexec, congrArg (List.map (·.result)) hprog, hmem'.trans hword, fun e he => ?_⟩
    rw [hothers e he, hview, hother e he]
  · have hexec := start_goes ho hc (startEntry_ctradd rfl hop hchk (ctrDraw_exhausted (s := u) (c := c) (pi := pi) (inc := d.p0) hget' hclaim hl))
    obtain ⟨hprog, hothers, hmem'⟩ := ctradd_left (t := u) (v := recVault p d.vbase) hcore hq
      (withResult (inFlight { h with stalled := none } [] []) (some r) (0xFFFFFFFF + 3 * 2 ^ 32))
    exact ⟨_, hexec, congrArg (List.map (·.result)) hprog, hmem'.trans hmem, fun e he => (hothers e he).trans (hother e he)⟩

end Sys2Proof.Machine

/-! ### TOPK and MERGE (R52, R53, R216, R217) -/

namespace Sys2Proof.Machine

/-! #### TOPK: a position is selected if fewer than K go before it -/

section
variable {k : Nat} {xs : List Int} {i j : Nat}

/-- Position `j` goes before position `i`. -/
def before (xs : List Int) (i j : Nat) : Bool :=
  decide (xs.getD j 0 ≠ -2147483648) && (decide (xs.getD i 0 < xs.getD j 0) || (decide (xs.getD j 0 = xs.getD i 0) && decide (j < i)))

theorem before_iff : before xs i j = true
    ↔ xs.getD j 0 ≠ -2147483648 ∧ (xs.getD i 0 < xs.getD j 0 ∨ (xs.getD j 0 = xs.getD i 0 ∧ j < i)) := by
  simp [before]

/-- The positions before one. -/
def ahead (xs : List Int) (i : Nat) : List Nat := (List.range xs.length).filter (before xs i)

theorem mem_ahead : j ∈ ahead xs i ↔ j < xs.length ∧ before xs i j = true := by rw [ahead, List.mem_filter, List.mem_range]

theorem mem_topkPick : i ∈ topkPick k xs ↔ i < xs.length ∧ xs.getD i 0 ≠ -2147483648 ∧ (ahead xs i).length < k := by
  rw [topkPick, List.mem_filter, List.mem_range, Bool.and_eq_true, decide_eq_true_eq, decide_eq_true_eq]
  rfl

theorem ahead_nodup : (ahead xs i).Nodup := List.nodup_range.filter _

/-- A position that goes before another has fewer before it. -/
theorem ahead_lt (hi : i < xs.length) (h : before xs j i = true) : (ahead xs i).length < (ahead xs j).length := by
  have hnodup : (i :: ahead xs i).Nodup := by
    refine List.nodup_cons.2 ⟨fun hm => ?_, ahead_nodup⟩
    have hb := before_iff.1 (mem_ahead.1 hm).2
    omega
  have hsub : (i :: ahead xs i) ⊆ ahead xs j := by
    refine List.cons_subset.2 ⟨mem_ahead.2 ⟨hi, h⟩, fun x hx => ?_⟩
    obtain ⟨hx, hb⟩ := mem_ahead.1 hx
    refine mem_ahead.2 ⟨hx, before_iff.2 ?_⟩
    have hb := before_iff.1 hb
    have h := before_iff.1 h
    omega
  exact (List.subperm_of_subset hnodup hsub).length_le

theorem before_total (hi : xs.getD i 0 ≠ -2147483648) (hj : xs.getD j 0 ≠ -2147483648) (h : i ≠ j) :
    before xs j i = true ∨ before xs i j = true := by
  rw [before_iff, before_iff]
  omega

theorem topkPick_nodup : (topkPick k xs).Nodup := List.nodup_range.filter _

/-- Each selected position has a number of its own before it, less than K. -/
theorem topkPick_length_le : (topkPick k xs).length ≤ k := by
  have hnodup : ((topkPick k xs).map (fun i => (ahead xs i).length)).Nodup := by
    refine List.Nodup.map_on (fun i hi j hj hij => ?_) topkPick_nodup
    obtain ⟨hi, hvi, -⟩ := mem_topkPick.1 hi
    obtain ⟨hj, hvj, -⟩ := mem_topkPick.1 hj
    by_contra hne
    rcases before_total hvi hvj hne with h | h
    · exact absurd hij (Nat.ne_of_lt (ahead_lt hi h))
    · exact absurd hij (Nat.ne_of_gt (ahead_lt hj h))
  have hsub : ((topkPick k xs).map (fun i => (ahead xs i).length)) ⊆ List.range k := by
    intro r hr
    obtain ⟨i, hi, rfl⟩ := List.mem_map.1 hr
    exact List.mem_range.2 (mem_topkPick.1 hi).2.2
  simpa using (List.subperm_of_subset hnodup hsub).length_le

/-- While a valid position is left out, K are selected: else the foremost of those left out would be selected too. -/
theorem topkPick_full (hj : j < xs.length) (hv : xs.getD j 0 ≠ -2147483648) (hn : j ∉ topkPick k xs) : k ≤ (topkPick k xs).length := by
  induction hr : (ahead xs j).length using Nat.strong_induction_on generalizing j with
  | _ n ih =>
    subst hr
    have hk : k ≤ (ahead xs j).length := by
      by_contra hlt
      exact hn (mem_topkPick.2 ⟨hj, hv, Nat.not_le.1 hlt⟩)
    by_cases hall : ahead xs j ⊆ topkPick k xs
    · exact hk.trans (List.subperm_of_subset ahead_nodup hall).length_le
    · obtain ⟨x, hx, hxn⟩ := Set.not_subset.1 hall
      obtain ⟨hlt, hb⟩ := mem_ahead.1 hx
      exact ih _ (ahead_lt hlt hb) hlt (before_iff.1 hb).1 hxn rfl

/-- What is left out has every selected position before it. -/
theorem topkPick_before (hj : j < xs.length) (hv : xs.getD j 0 ≠ -2147483648) (hn : j ∉ topkPick k xs) (hi : i ∈ topkPick k xs) :
    before xs j i = true := by
  obtain ⟨-, hvi, hk⟩ := mem_topkPick.1 hi
  refine (before_total hvi hv (fun h => hn (h ▸ hi))).resolve_right fun h => ?_
  exact hn (mem_topkPick.2 ⟨hj, hv, (ahead_lt hj h).trans hk⟩)

end

/-! #### The order of entries (R52) -/

theorem lexLt_irrefl (a : List Nat) : lexLt a a = false := by
  induction a with
  | nil => rfl
  | cons x a ih => simp [lexLt, ih]

theorem lexLt_trans {a b c : List Nat} (h : lexLt a b = true) (h' : lexLt b c = true) : lexLt a c = true := by
  induction a generalizing b c with
  | nil => cases h
  | cons x a ih =>
    rcases b with _ | ⟨y, b⟩
    · cases h
    rcases c with _ | ⟨z, c⟩
    · cases h'
    simp only [lexLt, Bool.or_eq_true, Bool.and_eq_true, decide_eq_true_eq] at h h' ⊢
    rcases h with h | ⟨rfl, h⟩
    · rcases h' with h' | ⟨rfl, -⟩
      · exact .inl (h.trans h')
      · exact .inl h
    · exact h'.imp_right fun ⟨hz, h'⟩ => ⟨hz, ih h h'⟩

theorem lexLt_total {a b : List Nat} (hl : a.length = b.length) (h : lexLt a b = false) (h' : lexLt b a = false) : a = b := by
  induction a generalizing b with
  | nil => exact (List.length_eq_zero_iff.1 hl.symm).symm
  | cons x a ih =>
    rcases b with _ | ⟨y, b⟩
    · cases hl
    simp only [lexLt, Bool.or_eq_false_iff, Bool.and_eq_false_imp, decide_eq_false_iff_not, decide_eq_true_eq] at h h'
    obtain rfl : x = y := by omega
    rw [ih (Nat.succ.inj hl) (h.2 rfl) (h'.2 rfl)]

/-- A list is strictly ascending when every entry exceeds every earlier one. -/
theorem strictly_iff (l : List (List Nat)) : strictly l = true ↔ l.Pairwise (fun a b => lexLt a b = true) := by
  induction l with
  | nil => simp [strictly]
  | cons a l ih =>
    rcases l with _ | ⟨b, l⟩
    · simp [strictly]
    rw [strictly, Bool.and_eq_true, ih, List.pairwise_cons (a := a)]
    refine and_congr_left fun hp => ⟨fun hab x hx => ?_, fun h => h b List.mem_cons_self⟩
    rcases List.mem_cons.1 hx with rfl | hx
    · exact hab
    · exact lexLt_trans hab (List.rel_of_pairwise_cons hp hx)

/-! #### MERGE: each entry once, with the lists that hold it (R216) -/

/-- The tag of an entry of two lists' union. -/
def Tagged (as bs : List (List Nat)) (e : List Nat) (t : Nat) : Prop :=
  (t = 1 ∧ e ∈ as ∧ e ∉ bs) ∨ (t = 2 ∧ e ∉ as ∧ e ∈ bs) ∨ (t = 3 ∧ e ∈ as ∧ e ∈ bs)

theorem Tagged.mem {as bs : List (List Nat)} {e : List Nat} {t : Nat} (h : Tagged as bs e t) : e ∈ as ∨ e ∈ bs := by
  rcases h with ⟨-, h, -⟩ | ⟨-, -, h⟩ | ⟨-, h, -⟩
  · exact .inl h
  · exact .inr h
  · exact .inl h

/-- An entry below every other of a list is not in it. -/
theorem not_mem_of_lt {a : List Nat} {l : List (List Nat)} (h : ∀ b ∈ l, lexLt a b = true) : a ∉ l := fun ha =>
  Bool.false_ne_true ((lexLt_irrefl a).symm.trans (h a ha))

section
variable {as bs : List (List Nat)} {a e : List Nat} {t : Nat}

theorem tagged_cons_left (ha : a ∉ as) (hb : a ∉ bs) : Tagged (a :: as) bs e t ↔ (e = a ∧ t = 1) ∨ Tagged as bs e t := by
  by_cases h : e = a
  · subst h
    simp [Tagged, ha, hb]
  · simp [Tagged, h]

theorem tagged_cons_right (ha : a ∉ as) (hb : a ∉ bs) : Tagged as (a :: bs) e t ↔ (e = a ∧ t = 2) ∨ Tagged as bs e t := by
  by_cases h : e = a
  · subst h
    simp [Tagged, ha, hb]
  · simp [Tagged, h]

theorem tagged_cons_both (ha : a ∉ as) (hb : a ∉ bs) : Tagged (a :: as) (a :: bs) e t ↔ (e = a ∧ t = 3) ∨ Tagged as bs e t := by
  by_cases h : e = a
  · subst h
    simp [Tagged, ha, hb]
  · simp [Tagged, h]

/-- An entry below the first of an ascending list is below all of it. -/
theorem lt_all_of_lt_head {b : List Nat} (h : lexLt a b = true) (hs : (b :: bs).Pairwise (fun a b => lexLt a b = true)) :
    ∀ x ∈ b :: bs, lexLt a x = true := by
  intro x hx
  rcases List.mem_cons.1 hx with rfl | hx
  · exact h
  · exact lexLt_trans h (List.rel_of_pairwise_cons hs hx)

end

theorem mem_mergeLists (n : Nat) (as bs : List (List Nat)) (r : Nat) (ha : ∀ a ∈ as, a.length = r) (hb : ∀ b ∈ bs, b.length = r)
    (sa : as.Pairwise (fun a b => lexLt a b = true)) (sb : bs.Pairwise (fun a b => lexLt a b = true)) (hn : as.length + bs.length < n)
    (e : List Nat) (t : Nat) : (e, t) ∈ mergeLists n as bs ↔ Tagged as bs e t := by
  induction n, as, bs using mergeLists.induct with
  | case1 => omega
  | case2 n bs hn0 =>
    rw [mergeLists, List.mem_map]
    · simp [Tagged, and_comm, eq_comm]
    · exact hn0
  | case3 n as has hn0 =>
    rw [mergeLists, List.mem_map]
    · simp [Tagged, and_comm, eq_comm]
    · exact hn0
    · exact has
  | case4 n a as b bs hlt ih =>
    have hab := not_mem_of_lt (lt_all_of_lt_head hlt sb)
    have haa := not_mem_of_lt (fun x hx => List.rel_of_pairwise_cons sa hx)
    rw [mergeLists, if_pos hlt, List.mem_cons, Prod.mk.injEq, tagged_cons_left haa hab,
      ih (fun x hx => ha x (List.mem_cons_of_mem _ hx)) hb sa.of_cons sb (by simp only [List.length_cons] at hn ⊢; omega)]
  | case5 n a as b bs hlt hlt' ih =>
    have hba := not_mem_of_lt (lt_all_of_lt_head hlt' sa)
    have hbb := not_mem_of_lt (fun x hx => List.rel_of_pairwise_cons sb hx)
    rw [mergeLists, if_neg hlt, if_pos hlt', List.mem_cons, Prod.mk.injEq, tagged_cons_right hba hbb,
      ih ha (fun x hx => hb x (List.mem_cons_of_mem _ hx)) sa sb.of_cons (by simp only [List.length_cons] at hn ⊢; omega)]
  | case6 n a as b bs hlt hlt' ih =>
    obtain rfl : a = b := lexLt_total ((ha a List.mem_cons_self).trans (hb b List.mem_cons_self).symm) (Bool.eq_false_iff.2 hlt)
      (Bool.eq_false_iff.2 hlt')
    have haa := not_mem_of_lt (fun x hx => List.rel_of_pairwise_cons sa hx)
    have hab := not_mem_of_lt (fun x hx => List.rel_of_pairwise_cons sb hx)
    rw [mergeLists, if_neg hlt, if_neg hlt', List.mem_cons, Prod.mk.injEq, tagged_cons_both haa hab,
      ih (fun x hx => ha x (List.mem_cons_of_mem _ hx)) (fun x hx => hb x (List.mem_cons_of_mem _ hx)) sa.of_cons sb.of_cons
        (by simp only [List.length_cons] at hn; omega)]

/-- The merged list ascends. -/
theorem mergeLists_ascends (n : Nat) (as bs : List (List Nat)) (r : Nat) (ha : ∀ a ∈ as, a.length = r) (hb : ∀ b ∈ bs, b.length = r)
    (sa : as.Pairwise (fun a b => lexLt a b = true)) (sb : bs.Pairwise (fun a b => lexLt a b = true)) (hn : as.length + bs.length < n) :
    ((mergeLists n as bs).map (·.1)).Pairwise (fun a b => lexLt a b = true) := by
  induction n, as, bs using mergeLists.induct with
  | case1 => omega
  | case2 n bs => simpa [mergeLists, Function.comp_def] using sb
  | case3 n as h => simpa [mergeLists, Function.comp_def] using sa
  | case4 n a as b bs hlt ih =>
    have ha' := fun x hx => ha x (List.mem_cons_of_mem _ hx)
    have hn' : as.length + (b :: bs).length < n := by simp only [List.length_cons] at hn ⊢; omega
    rw [mergeLists, if_pos hlt, List.map_cons, List.pairwise_cons]
    refine ⟨fun x hx => ?_, ih ha' hb sa.of_cons sb hn'⟩
    obtain ⟨⟨e, t⟩, he, rfl⟩ := List.mem_map.1 hx
    rcases ((mem_mergeLists n as (b :: bs) r ha' hb sa.of_cons sb hn' e t).1 he).mem with h | h
    · exact List.rel_of_pairwise_cons sa h
    · exact lt_all_of_lt_head hlt sb e h
  | case5 n a as b bs hlt hlt' ih =>
    have hb' := fun x hx => hb x (List.mem_cons_of_mem _ hx)
    have hn' : (a :: as).length + bs.length < n := by simp only [List.length_cons] at hn ⊢; omega
    rw [mergeLists, if_neg hlt, if_pos hlt', List.map_cons, List.pairwise_cons]
    refine ⟨fun x hx => ?_, ih ha hb' sa sb.of_cons hn'⟩
    obtain ⟨⟨e, t⟩, he, rfl⟩ := List.mem_map.1 hx
    rcases ((mem_mergeLists n (a :: as) bs r ha hb' sa sb.of_cons hn' e t).1 he).mem with h | h
    · exact lt_all_of_lt_head hlt' sa e h
    · exact List.rel_of_pairwise_cons sb h
  | case6 n a as b bs hlt hlt' ih =>
    have ha' := fun x hx => ha x (List.mem_cons_of_mem _ hx)
    have hb' := fun x hx => hb x (List.mem_cons_of_mem _ hx)
    have hn' : as.length + bs.length < n := by simp only [List.length_cons] at hn; omega
    obtain rfl : a = b := lexLt_total ((ha a List.mem_cons_self).trans (hb b List.mem_cons_self).symm) (Bool.eq_false_iff.2 hlt)
      (Bool.eq_false_iff.2 hlt')
    rw [mergeLists, if_neg hlt, if_neg hlt', List.map_cons, List.pairwise_cons]
    refine ⟨fun x hx => ?_, ih ha' hb' sa.of_cons sb.of_cons hn'⟩
    obtain ⟨⟨e, t⟩, he, rfl⟩ := List.mem_map.1 hx
    rcases ((mem_mergeLists n as bs r ha' hb' sa.of_cons sb.of_cons hn' e t).1 he).mem with h | h
    · exact List.rel_of_pairwise_cons sa h
    · exact List.rel_of_pairwise_cons sb h

/-- Settles O30: selection by rank, and the merge by the tags of its entries. -/
theorem topkAndMergeOrderTheirEntries : Obligations.TopkAndMergeOrderTheirEntries := by
  refine ⟨fun k xs => ⟨topkPick_length_le, ?_, fun i hi => ?_, fun j hj hv hn => ⟨?_, fun i hi => ?_⟩⟩, fun as bs r ha hb sa sb => ?_⟩
  · exact List.pairwise_lt_range.filter _
  · obtain ⟨hlt, hv, -⟩ := mem_topkPick.1 hi
    exact ⟨hlt, hv⟩
  · exact Nat.le_antisymm topkPick_length_le (topkPick_full hj hv hn)
  · exact (before_iff.1 (topkPick_before hj hv hn hi)).2
  · rw [strictly_iff] at sa sb
    have hn : as.length + bs.length < as.length + bs.length + 1 := Nat.lt_succ_self _
    have hmem := mem_mergeLists _ as bs r ha hb sa sb hn
    refine ⟨(strictly_iff _).2 (mergeLists_ascends _ as bs r ha hb sa sb hn), fun e => ?_⟩
    rw [hmem, hmem, hmem]
    simp [Tagged]

end Sys2Proof.Machine

/-! ### Requantisation and guarded replay (R42, R43, R113, R114) -/

namespace Sys2Proof.Machine

/-! #### The shift of a group -/

theorem fitsS_zero (n : Nat) : fitsS n 0 = true := by
  have hpos : (0 : Int) < ((2 ^ (n - 1) : Nat) : Int) := by positivity
  exact decide_eq_true ⟨by omega, hpos⟩

/-- A 32-bit value shifted by 32 places rounds to zero. -/
theorem rq_32 {v : Int} (h : fitsS 32 v = true) : rq v 32 = 0 := by
  obtain ⟨hlo, hhi⟩ := of_decide_eq_true h
  obtain ⟨herr, heven⟩ := rq_error_of_pos (a := v) (k := 32) (by decide)
  rw [show (2 : Int) ^ (32 : Int).toNat = 4294967296 from rfl] at herr heven
  have hlow : -2147483648 ≤ v := hlo
  have hhigh : v < 2147483648 := hhi
  rw [abs_le] at herr
  have hq : rq v 32 = 0 ∨ rq v 32 = -1 := by omega
  refine hq.resolve_right fun hm => ?_
  rw [hm] at heven herr
  exact absurd (heven (by rw [abs_of_neg] <;> omega)) (by decide)

section
variable {bits : Nat} {vs : List Int}

/-- The shift found fits, unless the search ended; every one before it does not. -/
theorem shiftFor_spec (n e : Nat) : e ≤ shiftFor bits vs n e ∧ shiftFor bits vs n e ≤ e + n
    ∧ (shiftFor bits vs n e < e + n → vs.all (fun v => fitsS bits (rq v (shiftFor bits vs n e))) = true)
    ∧ ∀ f, e ≤ f → f < shiftFor bits vs n e → vs.all (fun v => fitsS bits (rq v f)) = false := by
  induction n generalizing e with
  | zero => exact ⟨Nat.le_refl e, Nat.le_refl e, fun h => absurd h (Nat.lt_irrefl e), fun f h1 h2 => absurd h1 (Nat.not_le.2 h2)⟩
  | succ n ih =>
    rw [shiftFor]
    split
    next h => exact ⟨Nat.le_refl e, Nat.le_add_right .., fun _ => h, fun f h1 h2 => absurd h1 (Nat.not_le.2 h2)⟩
    next h =>
      obtain ⟨hlo, hhi, hfit, hless⟩ := ih (e + 1)
      refine ⟨by omega, by omega, fun hlt => hfit (by omega), fun f h1 h2 => ?_⟩
      rcases Nat.eq_or_lt_of_le h1 with rfl | h1
      · exact Bool.eq_false_iff.2 h
      · exact hless f h1 h2

end

/-- The shift of a PLANE group (R43). -/
theorem planeShift_spec {h : Hdr} {vs : List Int} (hfit : ∀ v ∈ vs, fitsS 32 v = true) :
    shiftFor (etBits h.etype) vs 32 0 ≤ 32 ∧ ((∀ v ∈ vs, v = 0) → shiftFor (etBits h.etype) vs 32 0 = 0)
      ∧ (∀ v ∈ vs, fitsS (etBits h.etype) (rq v (shiftFor (etBits h.etype) vs 32 0)) = true)
      ∧ ∀ f < shiftFor (etBits h.etype) vs 32 0, ∃ v ∈ vs, fitsS (etBits h.etype) (rq v f) = false := by
  obtain ⟨-, hhi, hall, hless⟩ := shiftFor_spec (bits := etBits h.etype) (vs := vs) 32 0
  refine ⟨by omega, fun hz => ?_, ?_, fun f hf => ?_⟩
  · by_contra hne
    have h0 := hless 0 (Nat.zero_le _) (Nat.pos_of_ne_zero hne)
    refine Bool.eq_false_iff.1 h0 (List.all_eq_true.2 fun v hv => ?_)
    rw [hz v hv]
    exact fitsS_zero _
  · by_cases hlt : shiftFor (etBits h.etype) vs 32 0 < 32
    · exact List.all_eq_true.1 (hall (by omega))
    · intro v hv
      rw [show shiftFor (etBits h.etype) vs 32 0 = 32 by omega]
      rw [show ((32 : Nat) : Int) = 32 from rfl, rq_32 (hfit v hv)]
      exact fitsS_zero _
  · have hf := hless f (Nat.zero_le _) hf
    simpa using hf

/-! #### Guarded replay -/

/-- A guarded product that ends has made `m − used` replays, each a pre-shift of its entry image by two bits. -/
theorem guarded_done {α : Type} {a b : List (List KB)} {post : List Int → Int → Option α} (n used : Nat) (entry : List Int) (x : Int)
    {acc : List Int} {y : Int} {m : Nat} {out : α} (h : guarded a b post n used entry x = .done acc y m out) :
    ∃ j ≤ n, m = used + j ∧ y = x + 2 * j ∧ acc.all (fitsS 32) = true
      ∧ acc = List.zipWith (· + ·) (entry.map (fun v => (fun u => rq u 2)^[j] v)) (productSums false y a b) ∧ post acc y = some out := by
  induction n generalizing used entry x with
  | zero =>
    rw [guarded] at h
    split at h
    next hpost =>
      obtain ⟨hfit, hpost⟩ := Option.ite_none_right_eq_some.1 hpost
      injection h with hacc hy hm hout
      subst hacc hy hm hout
      exact ⟨0, Nat.le_refl 0, rfl, by simp, hfit, by simp, hpost⟩
    next => cases h
  | succ n ih =>
    rw [guarded] at h
    split at h
    next hpost =>
      obtain ⟨hfit, hpost⟩ := Option.ite_none_right_eq_some.1 hpost
      injection h with hacc hy hm hout
      subst hacc hy hm hout
      exact ⟨0, Nat.zero_le _, rfl, by simp, hfit, by simp, hpost⟩
    next =>
      split at h
      · cases h
      · obtain ⟨j, hj, hm, hy, hfit, hacc, hpost⟩ := ih (used + 1) _ _ h
        refine ⟨j + 1, by omega, by omega, by push_cast; omega, hfit, ?_, hpost⟩
        rw [hacc, List.map_map]
        rfl

/-- The stored group, or SCALE_RANGE, by the range of its exponent. -/
theorem requant_plane {h : Hdr} (hu : h.uniform = false) (x : Int) (vs : List Int) (e : Nat)
    (he : e = if h.etype = 3 then 0 else shiftFor (etBits h.etype) vs 32 0) :
    (-128 ≤ x + e - h.ebias ∧ x + e - h.ebias ≤ 127 →
        requant h x vs = some { vals := vs.map (fun v => rq v e), g := some (x + e - h.ebias), sat := 0 })
      ∧ (¬ (-128 ≤ x + e - h.ebias ∧ x + e - h.ebias ≤ 127) → requant h x vs = none) := by
  subst he
  have hplane : ¬ h.uniform = true := by simp [hu]
  exact ⟨fun hr => (if_neg hplane).trans (if_pos hr), fun hr => (if_neg hplane).trans (if_neg hr)⟩

/-- Settles O29: the search for the shift ends at 32, where every 32-bit value rounds to zero, and the replays are an
induction on how many are left. -/
theorem shiftsAreOnlyAsLargeAsNeeded : Obligations.ShiftsAreOnlyAsLargeAsNeeded := by
  unfold Obligations.ShiftsAreOnlyAsLargeAsNeeded
  refine ⟨fun h x vs hu ht _ hfit => ?_, fun a b post entry acc x y n out h => ?_⟩
  · by_cases h3 : h.etype = 3
    · refine ⟨0, Nat.zero_le _, fun _ => rfl, fun _ => rfl, fun v hv => ?_, fun hne => absurd h3 hne, requant_plane hu x vs 0 (if_pos h3).symm⟩
      rw [show rq v ((0 : Nat) : Int) = v by simp [rq], h3]
      exact hfit v hv
    · obtain ⟨hle, hzero, hall, hless⟩ := planeShift_spec (h := h) hfit
      exact ⟨_, hle, fun h => absurd h h3, hzero, hall, fun _ => hless, requant_plane hu x vs _ (if_neg h3).symm⟩
  · obtain ⟨j, hj, hn, hy, hfit, hacc, hpost⟩ := guarded_done 3 0 entry x h
    obtain rfl : n = j := hn.trans (Nat.zero_add j)
    exact ⟨by omega, by omega, hfit, hacc, hpost⟩

end Sys2Proof.Machine

/-! ### Frames and their owners; reads of the vaults (R200 to R205, R325) -/

namespace Sys2Proof.Machine

/-! #### The device areas of states that agree on where they lie -/

theorem SameAreas.refl (s : State) : SameAreas s s := ⟨rfl, rfl, rfl, fun _ => rfl⟩

theorem SameAreas.trans {s t u : State} (h : SameAreas s t) (h' : SameAreas t u) : SameAreas s u := by
  obtain ⟨hdies, hmap, hchart, hout⟩ := h
  obtain ⟨hdies', hmap', hchart', hout'⟩ := h'
  exact ⟨hdies'.trans hdies, hmap'.trans hmap, hchart'.trans hchart, fun v => (hout' v).trans (hout v)⟩

theorem SameAreas.lzFrame {s t : State} (h : SameAreas s t) (k j : Nat) : Machine.lzFrame t k j = Machine.lzFrame s k j := by
  have hres := h.reserveAt
  obtain ⟨hdies, hmap, -, -⟩ := h
  simp only [Machine.lzFrame, State.movedTo, hdies, hmap, hres]

theorem SameAreas.inArea {s t : State} (h : SameAreas s t) (f : Nat) : t.inArea f = s.inArea f := by
  have hres := h.reserveOf
  obtain ⟨hdies, -, hchart, -⟩ := h
  have htop : t.resvTop = s.resvTop := by rw [State.resvTop, hchart, State.resvTop]
  simp only [State.inArea, htop, hdies, hres]

/-! #### What a frame holds -/

/-- `t` has Patterns, streams and device areas where `s` has them. -/
def SameOwners (s t : State) : Prop := SameAreas s t ∧ t.helm.pats = s.helm.pats ∧ t.helm.streams = s.helm.streams

theorem SameOwners.refl (s : State) : SameOwners s s := ⟨.refl s, rfl, rfl⟩

theorem SameOwners.trans {s t u : State} (h : SameOwners s t) (h' : SameOwners t u) : SameOwners s u := by
  obtain ⟨hareas, hpats, hstreams⟩ := h
  obtain ⟨hareas', hpats', hstreams'⟩ := h'
  exact ⟨hareas.trans hareas', hpats'.trans hpats, hstreams'.trans hstreams⟩

/-- States with the same Helm records, Chart and vault records. -/
theorem SameOwners.of_eq {s t : State} (hhelm : t.helm = s.helm) (hchart : t.chart = s.chart) (hvaults : t.vaults = s.vaults) :
    SameOwners s t :=
  ⟨⟨by rw [hhelm], by rw [hhelm], hchart, fun v => congrArg (fun d => (Sparse.get Vault.init d v).out) hvaults⟩, by rw [hhelm],
    by rw [hhelm]⟩

theorem SameOwners.segment {s t : State} (h : SameOwners s t) (pi seg : Nat) : t.segment pi seg = s.segment pi seg := by
  obtain ⟨-, hpats, -⟩ := h
  rw [State.segment, State.pat, hpats, State.segment, State.pat]

theorem SameOwners.areaOwner {s t : State} (h : SameOwners s t) (f : Nat) : Machine.areaOwner t f = Machine.areaOwner s f := by
  obtain ⟨hareas, -, -⟩ := h
  have hin := hareas.inArea
  have hlz := hareas.lzFrame
  have hpark := hareas.parkFrame
  obtain ⟨-, hmap, -, -⟩ := hareas
  simp only [Machine.areaOwner, hmap, hin, hlz, hpark]

theorem SameOwners.streamOwner {s t : State} (h : SameOwners s t) (slot : Nat) (x : Stream) (f : Nat) :
    Machine.streamOwner t slot x f = Machine.streamOwner s slot x f := by
  obtain ⟨-, hpats, -⟩ := h
  rw [Machine.streamOwner, State.pat, hpats, Machine.streamOwner, State.pat]

theorem SameOwners.ownerOf {s t : State} (h : SameOwners s t) (f : Nat) : Machine.ownerOf t f = Machine.ownerOf s f := by
  have harea := h.areaOwner f
  have hstream := h.streamOwner
  obtain ⟨-, hpats, hstreams⟩ := h
  simp only [Machine.ownerOf, hpats, hstreams, harea, hstream]

theorem SameOwners.stripeMates {s t : State} (h : SameOwners s t) (f : Nat) : Machine.stripeMates t f = Machine.stripeMates s f := by
  have howner := h.ownerOf f
  have hseg := h.segment
  obtain ⟨hareas, -, -⟩ := h
  have hlz : Machine.lzFrame t = Machine.lzFrame s := funext₂ hareas.lzFrame
  have hpark : Machine.parkFrame t = Machine.parkFrame s := funext₂ hareas.parkFrame
  simp only [Machine.stripeMates, howner, hseg, hlz, hpark]

theorem openRow_owners (s : State) (a : Nat) : SameOwners s (openRow s a) := ⟨⟨rfl, rfl, rfl, openRow_out s a⟩, rfl, rfl⟩

theorem stripeMates_none {s : State} {f : Nat} (h : ownerOf s f = .none) : stripeMates s f = none := by
  rw [stripeMates, h]

theorem loseWord_none {s : State} {a : Nat} (h : ownerOf s (a / 65536) = .none) : loseWord s a = s := by
  simp only [loseWord, h]

theorem coreFault_owners (s : State) (c eng : Nat) (kind : Kind) (code : Code) (pos : Nat) (word : CmdWord) (detail : BitVec 256) :
    SameOwners s (coreFault s c eng kind code pos word detail) := by
  unfold coreFault
  dsimp only
  split <;> exact ⟨⟨rfl, rfl, rfl, fun _ => rfl⟩, rfl, rfl⟩

theorem faultEngine_owners (s : State) (c : Nat) (eng : Fin 6) (code : Code) (x56 : Nat) :
    SameOwners s (faultEngine s c eng code x56) := by
  rw [faultEngine]
  split
  · exact .refl s
  · exact coreFault_owners ..

theorem faultIssuer_owners (s : State) (issuer : Option (Nat × Fin 6)) (a : Nat) : SameOwners s (faultIssuer s issuer a) := by
  rcases issuer with - | ⟨c, eng⟩
  · exact .refl s
  · rw [faultIssuer]
    exact faultEngine_owners ..

/-! #### Addresses of a vault -/

/-- The record of the vault whose row is opened. -/
theorem openRow_vault (s : State) (a : Nat) : (openRow s a).vault (physVault a) = { s.vault (physVault a) with
    openRows := Sparse.set none (s.vault (physVault a)).openRows (physBank a) (some (physRow a)) } := Sparse.get_set_self ..

theorem physVault_byte {v o : Nat} (h : o < Config.vaultBytes) : physVault (v * Config.vaultBytes + o / 32 * 32) = v := by
  have hlt : o / 32 * 32 < Config.vaultBytes := by omega
  rw [physVault, Nat.add_comm, Nat.add_mul_div_right _ _ (by decide), Nat.div_eq_of_lt hlt, Nat.zero_add]

theorem onByte_ok {v o : Nat} {issuer : Option (Nat × Fin 6)} (hv : v < Config.nSites) (ho : o < Config.vaultBytes)
    (hi : issuerOk issuer = true) (f : Nat → State) : onByte v o issuer f = .next (f (v * Config.vaultBytes + o / 32 * 32)) :=
  (if_neg (by omega)).trans (if_neg (by rw [hi]; decide))

/-! #### A corrected word (R201, R326) -/

/-- The report that Darning takes of a corrected word. -/
def reportOf (s : State) (a : Nat) (b : BitVec 256) : Report :=
  { num := s.helm.nextReport, addr := a, decoded := b, resolved := false,
    steps := (s.helm.steps.filter (fun u => decide (u.phase ≠ .committed))).map (fun u => (u.pat, u.seq)) }

/-- A correction that is not the sixteenth of its row: the word is written back and reported. -/
theorem correctWord_spec {s : State} {a : Nat} (b : BitVec 256)
    (h : Sparse.get 0 (s.vault (physVault a)).ceRows (physBank a * 8192 + physRow a) ≠ 15) :
    (correctWord s a b).out = s.out ∧ (correctWord s a b).mem = wrBytes s.mem a (cwBytes b) ∧ (correctWord s a b).cores = s.cores
      ∧ (correctWord s a b).helm = { s.helm with nextReport := s.helm.nextReport + 1, reports := s.helm.reports ++ [reportOf s a b] } := by
  have hn : Sparse.get 0 (s.vault (physVault a)).ceRows (physBank a * 8192 + physRow a) + 1 ≠ 16 := by omega
  simp only [correctWord, if_neg hn, wrMemBytes_frame, wrMemBytes_mem, bump_frame]
  exact ⟨rfl, rfl, rfl, rfl⟩

theorem cwBytes_length (b : BitVec 256) : (cwBytes b).length = 32 := toBytes_length ..

theorem rdNat_cwBytes (m : Memory) (a : Nat) (b : BitVec 256) : rdNat (wrBytes m a (cwBytes b)) a 32 = b.toNat := by
  rw [cwBytes, ← wrNat_eq, rdNat_wrNat]
  exact Nat.mod_eq_of_lt b.isLt

/-! #### Reads, patrol and refresh (R200 to R205) -/

section
variable {s : State} {v o : Nat} (first retry : DecodeOut)

/-- A read on a die that is not lost. -/
theorem execVaultReadRequest_reached {issuer : Option (Nat × Fin 6)} (hv : v < Config.nSites) (ho : o < Config.vaultBytes)
    (hi : issuerOk issuer = true) {a : Nat} (ha : a = v * Config.vaultBytes + o / 32 * 32) (hlost : s.lostAt a = false) :
    exec (.vaultReadRequest v o issuer first retry) s = .next (if (readArray (openRow s a) a first retry).2 = true
      then (readArray (openRow s a) a first retry).1.emit (.readData (rdNat (readArray (openRow s a) a first retry).1.mem a 32))
      else toDarning (readArray (openRow s a) a first retry).1 a issuer true none) := by
  subst ha
  have hexec : exec (.vaultReadRequest v o issuer first retry) s = execVaultReadRequest v o issuer first retry s := rfl
  rw [hexec, execVaultReadRequest, onByte_ok hv ho hi]
  exact congrArg Host.Outcome.next (if_neg (Bool.eq_false_iff.1 hlost))

/-- A failed read of a frame that nothing owns, with no page under migration, faults its issuer. -/
theorem toDarning_none {a : Nat} {issuer : Option (Nat × Fin 6)} {reply : Bool} {write : Option (Nat × BitVec 256 × BitVec 32)}
    (hmigs : s.helm.migs = []) (hown : ownerOf s (a / 65536) = .none) :
    toDarning s a issuer reply write = faultIssuer s issuer a := by
  rw [toDarning, stripeMates_none hown]
  simp only [hmigs, List.filter_nil, List.foldl_nil, Option.isSome_none, Bool.and_false, Bool.false_eq_true, if_false]
  have hs : { s with helm := { s.helm with migs := [] } } = s := by rw [← hmigs]
  exact (congrArg (fun u => loseWord (faultIssuer u issuer a) a) hs).trans (loseWord_none (((faultIssuer_owners ..).ownerOf _).trans hown))

end

theorem bump32_owners (s : State) (o n : Nat) : SameOwners s (s.bump32 o n) := .of_eq rfl rfl rfl

/-- The core whose read fails twice is stopped. -/
theorem faultIssuer_stops {s : State} {c : Nat} {eng : Fin 6} (a : Nat) (h : (s.core c).st = .running) :
    Stopped s (faultIssuer s (some (c, eng)) a) c eng.val .faulted .vaultUe (engineAt (s.core c) eng).1
      ∧ OtherCores c s (faultIssuer s (some (c, eng)) a) ∧ (faultIssuer s (some (c, eng)) a).mem = s.mem := by
  rw [faultIssuer]
  exact faultEngine_stops _ _ h

/-- A read of the sequencer that fails twice in a frame that nothing owns. -/
theorem uncorrectable_stops {s : State} {v o c a : Nat} (hv : v < Config.nSites) (ho : o < Config.vaultBytes)
    (hi : issuerOk (some (c, 0)) = true) (ha : a = v * Config.vaultBytes + o / 32 * 32) (hlost : s.lostAt a = false)
    (hrun : (s.core c).st = .running) (hmigs : s.helm.migs = []) (hown : ownerOf s (a / 65536) = .none) :
    ∃ t, exec (.vaultReadRequest v o (some (c, 0)) .uncorrectable .uncorrectable) s = .next t
      ∧ Stopped s t c 0 .faulted .vaultUe (s.core c).pos ∧ t.mem = s.mem ∧ OtherCores c s t := by
  have hexec := execVaultReadRequest_reached .uncorrectable .uncorrectable hv ho hi ha hlost
  rw [readArray] at hexec
  dsimp only at hexec
  rw [if_neg Bool.false_ne_true] at hexec
  have hsame := (openRow_owners s a).trans (bump32_owners (openRow s a) (vaultCtr (physVault a) 0x34) 1)
  have hcores : ((openRow s a).bump32 (vaultCtr (physVault a) 0x34) 1).cores = s.cores := rfl
  have hmem' : ((openRow s a).bump32 (vaultCtr (physVault a) 0x34) 1).mem = s.mem := rfl
  have hmigs' : ((openRow s a).bump32 (vaultCtr (physVault a) 0x34) 1).helm.migs = [] := hmigs
  generalize (openRow s a).bump32 (vaultCtr (physVault a) 0x34) 1 = s1 at *
  rw [toDarning_none hmigs' ((hsame.ownerOf _).trans hown)] at hexec
  have hcore (c' : Nat) : s1.core c' = s.core c' := congrArg (fun d => Sparse.get Core.init d c') hcores
  obtain ⟨⟨hst, hlocks, hhold, hq, hb, hf⟩, hother, hmem⟩ := faultIssuer_stops (eng := 0) a ((congrArg Core.st (hcore c)).trans hrun)
  rw [hcore] at hf
  exact ⟨_, hexec, ⟨hst, hlocks, hhold, hq, hb, hf⟩, hmem.trans hmem', fun c' hc => (hother c' hc).trans (hcore c')⟩

/-- A read that is corrected, not for the sixteenth time in its row. -/
theorem corrected_returns {s : State} {v o a : Nat} {issuer : Option (Nat × Fin 6)} {b : BitVec 256} (retry : DecodeOut)
    (hv : v < Config.nSites) (ho : o < Config.vaultBytes) (hi : issuerOk issuer = true)
    (ha : a = v * Config.vaultBytes + o / 32 * 32) (hlost : s.lostAt a = false)
    (hb : Sparse.get 0 ((openRow s a).vault (physVault a)).ceRows (physBank a * 8192 + physRow a) ≠ 15) :
    ∃ t, exec (.vaultReadRequest v o issuer (.corrected b) retry) s = .next t
      ∧ t.out = s.out ++ [.readData b.toNat] ∧ rdNat t.mem a 32 = b.toNat
      ∧ (∀ x, x < a ∨ a + 32 ≤ x → rdByte t.mem x = rdByte s.mem x) ∧ t.cores = s.cores
      ∧ t.helm.reports = s.helm.reports ++ [reportOf s a b] := by
  have hexec := execVaultReadRequest_reached (.corrected b) retry hv ho hi ha hlost
  rw [readArray] at hexec
  dsimp only at hexec
  rw [if_pos rfl] at hexec
  obtain ⟨hout, hmem, hcores, hhelm⟩ := correctWord_spec b hb
  have hrep : (correctWord (openRow s a) a b).helm.reports = s.helm.reports ++ [reportOf s a b] := congrArg HelmSt.reports hhelm
  have hmem' : (openRow s a).mem = s.mem := rfl
  have hout' : (openRow s a).out = s.out := rfl
  have hcores' : (openRow s a).cores = s.cores := rfl
  clear hhelm hb
  generalize openRow s a = s1 at *
  generalize correctWord s1 a b = s2 at *
  have hread : rdNat s2.mem a 32 = b.toNat := (congrArg (fun m => rdNat m a 32) hmem).trans (rdNat_cwBytes ..)
  rw [hread] at hexec
  refine ⟨_, hexec, congrArg (fun o => o ++ [Emit.readData b.toNat]) (hout.trans hout'), hread, fun x hx => ?_, hcores.trans hcores', hrep⟩
  refine (congrArg (fun m => rdByte m x) hmem).trans ((rdByte_wrBytes_out _ _ _ _ ?_).trans (congrArg (fun m => rdByte m x) hmem'))
  rw [cwBytes_length]
  exact hx

/-- A clean patrol read of a die that is not lost opens its row. -/
theorem execPatrolRead_clean {s : State} {v o : Nat} (retry : DecodeOut) (hv : v < Config.nSites) (ho : o < Config.vaultBytes)
    {a : Nat} (ha : a = v * Config.vaultBytes + o / 32 * 32) (hlost : s.lostAt a = false) :
    exec (.patrolRead v o .clean retry) s = .next (openRow (if o < 32 then s.setVault v { s.vault v with ceRows := [] } else s) a) := by
  subst ha
  have hlost' : (if o < 32 then s.setVault v { s.vault v with ceRows := [] } else s).lostAt (v * Config.vaultBytes + o / 32 * 32) = false := by
    split
    · exact hlost
    · exact hlost
  have hexec : exec (.patrolRead v o .clean retry) s = execPatrolRead v o .clean retry s := rfl
  rw [hexec, execPatrolRead, onByte_ok hv ho rfl]
  exact congrArg Host.Outcome.next (if_neg (Bool.eq_false_iff.1 hlost'))

/-- Settles O31: a read or patrol that reaches the array, by what its two decodes come to. -/
theorem vaultReadsReturnOrStop : Obligations.VaultReadsReturnOrStop := by
  intro s v ofs issuer retry hv ho hi a hlost
  have hphys : physVault a = v := physVault_byte ho
  have ha : a = v * Config.vaultBytes + ofs / 32 * 32 := rfl
  clear_value a
  refine ⟨?_, fun b hb => ?_, fun c hc hrun hmigs hown => ?_, execPatrolRead_clean retry hv ho ha hlost,
    fun bank => ⟨fun h => ?_, fun h => ?_⟩⟩
  · refine ⟨_, execVaultReadRequest_reached .clean retry hv ho hi ha hlost, rfl, ?_, rfl, rfl⟩
    have hrow := openRow_vault s a
    rw [hphys] at hrow
    exact (congrArg (fun x : Vault => Sparse.get none x.openRows (physBank a)) hrow).trans
      (Sparse.get_set_self none (s.vault v).openRows (physBank a) (some (physRow a)))
  · refine corrected_returns retry hv ho hi ha hlost ?_
    rw [openRow_vault, hphys]
    exact hb
  · subst hc
    exact uncorrectable_stops hv ho hi ha hlost hrun hmigs hown
  · exact (if_neg (Nat.not_le.2 hv)).trans (if_neg (not_not.2 h))
  · exact (if_neg (Nat.not_le.2 hv)).trans (if_pos h)

end Sys2Proof.Machine

/-! ### Rebuilt words, migrations and site tests (R312, R319, R320, R325, R326) -/

namespace Sys2Proof.Machine

/-! #### Rebuilding a word that waits (R325) -/

@[simp] theorem rebuilt_length (s : State) (m : List Nat) (o n : Nat) : (rebuilt s m o n).length = n := by
  simp [rebuilt]

/-- The first word of a frame on a die that is not lost takes its rebuilt bytes. -/
theorem placeRebuilt_first {s : State} {a : Nat} {b : List Byte} (hlost : s.lostAt a = false)
    (hue : Sparse.get 0 s.helm.ueWords (a / 65536) = 0) :
    (placeRebuilt s a b).mem = wrBytes s.mem (a / 64 * 64) b ∧ (placeRebuilt s a b).cores = s.cores ∧ (placeRebuilt s a b).out = s.out
      ∧ (placeRebuilt s a b).helm.darn = s.helm.darn := by
  rw [placeRebuilt, hlost, hue]
  simp

/-- A waiting patrol word that Darning rebuilds, with no issuer and no write. -/
theorem execDarnRebuild_waiting {s : State} {v o a : Nat} {w : DarnWait} {m : List Nat} (hv : v < Config.nSites) (ho : o < Config.vaultBytes)
    (ha : a = v * Config.vaultBytes + o / 32 * 32) (hw : s.helm.darn.find? (fun d => decide (d.addr / 64 = a / 64)) = some w)
    (hissuer : w.issuer = none) (hwrite : w.write = none) (hm : stripeMates s (a / 65536) = some m)
    (hmates : m.any (fun f => s.lostAt (frameAddr f)) = false) :
    exec (.darnRebuild v o true) s = .next (replyRead (darnEvent
      (placeRebuilt { s with helm := { s.helm with darn := s.helm.darn.erase w } } a (rebuilt s m (a % 65536 / 64 * 64) 64)) .darnRebuild a 0) w
      (rebuilt s m (a % 65536 / 64 * 64) 64)) := by
  subst ha
  have hexec : exec (.darnRebuild v o true) s = execDarnRebuild v o true s := rfl
  rw [hexec, execDarnRebuild, onByte_ok hv ho rfl]
  simp only [hw, hm, hmates, Option.isNone_some, Bool.false_and, Option.getD_some, finishWrite, hwrite, hissuer, holdIssuer,
    Bool.false_eq_true, Bool.true_eq_false, or_self, if_false]

theorem replyRead_spec (s : State) (w : DarnWait) (b : List Byte) :
    (replyRead s w b).mem = s.mem ∧ (replyRead s w b).cores = s.cores ∧ (replyRead s w b).helm = s.helm
      ∧ (replyRead s w b).out = s.out ++ (if w.reply = true then [.readData (ofBytes ((b.drop (w.addr % 64)).take 32))] else []) := by
  rw [replyRead]
  split
  · exact ⟨rfl, rfl, rfl, rfl⟩
  · exact ⟨rfl, rfl, rfl, (List.append_nil _).symm⟩

theorem darnEvent_spec (s : State) (c : Code) (a n : Nat) : (darnEvent s c a n).mem = s.mem ∧ (darnEvent s c a n).cores = s.cores
    ∧ (darnEvent s c a n).helm = s.helm ∧ (darnEvent s c a n).out = s.out := ⟨rfl, rfl, rfl, rfl⟩

/-! #### Resolving a report (R326) -/

section
variable {s : State} {r : Report} {pi i j : Nat} {m : List Nat} (hmend : s.mend = true)
  (hown : ownerOf s (r.addr / 65536) = .seg pi i j) (hm : stripeMates s (r.addr / 65536) = some m)
include hmend hown hm

/-- A reported word of a protected segment that agrees with its stripe. -/
theorem resolveReport_agrees (h : rebuilt s m (r.addr % 65536) 32 = cwBytes r.decoded) : resolveReport s r = s := by
  simp [resolveReport, hown, hm, hmend, h]

/-- A reported word of a protected segment that its stripe rebuilds to something else. -/
theorem resolveReport_differs (h : rebuilt s m (r.addr % 65536) 32 ≠ cwBytes r.decoded) : resolveReport s r
    = taintSteps (darnEvent (s.wrMemBytes r.addr (rebuilt s m (r.addr % 65536) 32)) .darnMiscorrect r.addr r.num) pi r := by
  simp [resolveReport, hown, hm, hmend, h]

end

/-- The Helm state after the taint of a Pattern's steps; memory and cores stay. -/
theorem taintSteps_spec (s : State) (pi : Nat) (r : Report) : (taintSteps s pi r).mem = s.mem ∧ (taintSteps s pi r).cores = s.cores
    ∧ (taintSteps s pi r).helm = { s.helm with
        steps := s.helm.steps.map (fun u => if u.pat = pi ∧ (pi, u.seq) ∈ r.steps then { u with taintAll := true } else u) } :=
  ⟨rfl, rfl, rfl⟩

/-- The state in which a report has been taken off the list. -/
def withoutReport (s : State) (n : Nat) : State :=
  { s with helm := { s.helm with reports := s.helm.reports.filter (fun x => decide (x.num ≠ n)) } }

theorem withoutReport_owners (s : State) (n : Nat) : SameOwners s (withoutReport s n) := ⟨.refl s, rfl, rfl⟩

theorem execMiscorrectionResolve_found {s : State} {n : Nat} {r : Report} (h : s.helm.reports.find? (fun r => decide (r.num = n)) = some r) :
    exec (.miscorrectionResolve n) s = .next (resolveReport (withoutReport s n) r) := by
  have hexec : exec (.miscorrectionResolve n) s = execMiscorrectionResolve n s := rfl
  rw [hexec, execMiscorrectionResolve, h]
  rfl

/-- Settles O33: the word is placed, logged and answered; a report is resolved in the state without it. -/
theorem lostWordsAreRebuilt : Obligations.LostWordsAreRebuilt := by
  intro s v ofs n hv ho a
  have ha : a = v * Config.vaultBytes + ofs / 32 * 32 := rfl
  clear_value a
  refine ⟨fun w m hw hissuer hwrite hm hmates hlost hue => ?_, fun h => ?_, fun r pi i j m hr hmend hown hm => ⟨fun hgood => ?_, fun hgood => ?_⟩⟩
  · have hexec := execDarnRebuild_waiting hv ho ha hw hissuer hwrite hm hmates
    obtain ⟨hmem, hcores, hout, hdarn⟩ := placeRebuilt_first (s := { s with helm := { s.helm with darn := s.helm.darn.erase w } })
      (b := rebuilt s m (a % 65536 / 64 * 64) 64) hlost hue
    generalize placeRebuilt _ a _ = s1 at *
    obtain ⟨hmem2, hcores2, hhelm2, hout2⟩ := darnEvent_spec s1 .darnRebuild a 0
    generalize darnEvent s1 .darnRebuild a 0 = s2 at *
    obtain ⟨hmem3, hcores3, hhelm3, hout3⟩ := replyRead_spec s2 w (rebuilt s m (a % 65536 / 64 * 64) 64)
    refine ⟨_, hexec, ?_, fun x hx => ?_, ?_, hcores3.trans (hcores2.trans hcores), ?_⟩
    · rw [hmem3, hmem2, hmem]
      have := rdBytes_wrBytes s.mem (a / 64 * 64) (rebuilt s m (a % 65536 / 64 * 64) 64)
      rwa [rebuilt_length] at this
    · rw [hmem3, hmem2, hmem]
      exact rdByte_wrBytes_out _ _ _ _ (by rw [rebuilt_length]; exact hx)
    · rw [hhelm3, hhelm2, hdarn]
    · rw [hout3, hout2, hout]
  · have hexec : exec (.miscorrectionResolve n) s = execMiscorrectionResolve n s := rfl
    rw [hexec, execMiscorrectionResolve, h]
  · exact (execMiscorrectionResolve_found hr).trans (congrArg Host.Outcome.next
      (resolveReport_agrees hmend (((withoutReport_owners s n).ownerOf _).trans hown) (((withoutReport_owners s n).stripeMates _).trans hm) hgood))
  · have hexec := (execMiscorrectionResolve_found hr).trans (congrArg Host.Outcome.next (resolveReport_differs hmend
      (((withoutReport_owners s n).ownerOf _).trans hown) (((withoutReport_owners s n).stripeMates _).trans hm) hgood))
    have hreb : rebuilt (withoutReport s n) m (r.addr % 65536) 32 = rebuilt s m (r.addr % 65536) 32 := rfl
    rw [hreb] at hexec
    generalize hb : rebuilt s m (r.addr % 65536) 32 = b at *
    obtain ⟨hmem, hcores, hhelm⟩ := taintSteps_spec (darnEvent ((withoutReport s n).wrMemBytes r.addr b) .darnMiscorrect r.addr r.num) pi r
    have hhelm' : (darnEvent ((withoutReport s n).wrMemBytes r.addr b) .darnMiscorrect r.addr r.num).helm = (withoutReport s n).helm := by
      simp [darnEvent]
    have hmem' : (darnEvent ((withoutReport s n).wrMemBytes r.addr b) .darnMiscorrect r.addr r.num).mem = wrBytes s.mem r.addr b :=
      wrMemBytes_mem ..
    have hcores' : (darnEvent ((withoutReport s n).wrMemBytes r.addr b) .darnMiscorrect r.addr r.num).cores = s.cores := by
      simp [darnEvent, withoutReport]
    generalize darnEvent ((withoutReport s n).wrMemBytes r.addr b) .darnMiscorrect r.addr r.num = s1 at *
    rw [hhelm'] at hhelm
    exact ⟨_, hexec, hmem.trans hmem', congrArg HelmSt.reports hhelm, hcores.trans hcores', congrArg HelmSt.steps hhelm⟩

/-! #### Migrations (R319, R320) -/

/-- The end of a page's copy: its bytes lie in the new frame, which is in the page list. -/
theorem copied_spec {s : State} {pi seg : Nat} {p : Pattern} {g g' : Segment} (a : Nat) (b : List Byte) (m : Migration) (m' : Option Migration)
    (hp : s.pat pi = some p) (hg : s.segment pi seg = some g) :
    (setMig (setSegment (s.wrMemBytes a b) pi seg g') m m').mem = wrBytes s.mem a b
      ∧ (setMig (setSegment (s.wrMemBytes a b) pi seg g') m m').segment pi seg = some g'
      ∧ (setMig (setSegment (s.wrMemBytes a b) pi seg g') m m').cores = s.cores
      ∧ (setMig (setSegment (s.wrMemBytes a b) pi seg g') m m').out = s.out := by
  have hseg : setSegment (s.wrMemBytes a b) pi seg g' = (s.wrMemBytes a b).setPat pi { p with segs := p.segs.set seg g' } := by
    have hp' : (s.wrMemBytes a b).pat pi = some p := by simpa [State.pat] using hp
    rw [setSegment, hp']
  have hlt : seg < p.segs.length := by
    rw [State.segment, hp] at hg
    exact (List.getElem?_eq_some_iff.1 hg).1
  rw [hseg]
  refine ⟨wrMemBytes_mem .., ?_, (wrMemBytes_frame s a b).2.2.2.1, (wrMemBytes_frame s a b).2.1⟩
  have hpat : (setMig ((s.wrMemBytes a b).setPat pi { p with segs := p.segs.set seg g' }) m m').pat pi = some { p with segs := p.segs.set seg g' } :=
    pat_setPat_self ..
  rw [State.segment, hpat]
  simp [hlt]

theorem clearFrames_spec (s : State) (f n : Nat) : (clearFrames s f n).mem = zeroRange s.mem (frameAddr f) (n * 65536)
    ∧ (clearFrames s f n).cores = s.cores ∧ (clearFrames s f n).out = s.out := by
  rw [clearFrames]
  exact ⟨openRows_field State.mem (fun _ _ => rfl) _ _ _, openRows_field State.cores (fun _ _ => rfl) _ _ _,
    openRows_field State.out (fun _ _ => rfl) _ _ _⟩

/-- A migration that is dropped is not on the list. -/
theorem setMig_dropped (s : State) (m : Migration) : m ∉ (setMig s m none).helm.migs := by
  simp only [setMig, List.mem_flatMap, not_exists, not_and]
  intro x _
  split
  next => exact List.not_mem_nil
  next h => exact fun hm => h (List.mem_singleton.1 hm).symm

/-- The old frame of a page whose migration has ended goes back to the pool. -/
def frameReturned (s : State) (m : Migration) : State := setMig (s.takeFrames m.oldF 1 false) m none

theorem frameReturned_spec (s : State) (m : Migration) : m ∉ (frameReturned s m).helm.migs ∧ (frameReturned s m).mem = s.mem
    ∧ (frameReturned s m).cores = s.cores ∧ (frameReturned s m).out = s.out := ⟨setMig_dropped _ m, rfl, rfl, rfl⟩

/-! #### Tests of sites (R312, R332) -/

/-- A site that passed its test takes back a core that its die is short of. -/
def passSite (s : State) (t : Nat) : State := if (s.heldBy t).isNone && s.siteOk t then returnCore s t else s

theorem passSite_spec (s : State) (t : Nat) :
    (passSite s t).helm.marks = s.helm.marks ∧ (passSite s t).cores = s.cores ∧ (passSite s t).mem = s.mem := by
  rw [passSite]
  split
  · rw [returnCore]
    split <;> exact ⟨rfl, rfl, rfl⟩
  · exact ⟨rfl, rfl, rfl⟩

section
variable {s : State} {t : Nat} (ht : t < Config.nSites)
include ht

/-- The end of a test of a site that exists. -/
theorem execSiteTestEnd_site (pass : Bool) : exec (.siteTestEnd t pass) s = noted s (.next (
    if (s.mark t).suspect = false then s
    else if pass = false then s.setMark t { s.mark t with suspect := false, retired := true }
    else passSite (s.setMark t { s.mark t with suspect := false, strike := true }) t)) :=
  if_neg (Nat.not_le.2 ht)

theorem siteTestEnd_other (pass : Bool) (hs : (s.mark t).suspect = false) : exec (.siteTestEnd t pass) s = .next s := by
  have hexec := execSiteTestEnd_site (s := s) ht pass
  rw [if_pos hs] at hexec
  exact noted_same hexec

theorem siteTestEnd_failed (hs : (s.mark t).suspect = true) : ∃ u, exec (.siteTestEnd t false) s = .next u
    ∧ u.mark t = { s.mark t with suspect := false, retired := true } ∧ u.helm.places = s.helm.places ∧ u.cores = s.cores ∧ u.mem = s.mem := by
  have hexec := execSiteTestEnd_site (s := s) ht false
  rw [if_neg (by simp [hs]), if_pos rfl] at hexec
  obtain ⟨u, hu, q, b, p, l, rfl⟩ := noted_signalled hexec
  exact ⟨_, hu, mark_setMark_self .., rfl, rfl, rfl⟩

theorem siteTestEnd_passed (hs : (s.mark t).suspect = true) : ∃ u, exec (.siteTestEnd t true) s = .next u
    ∧ u.mark t = { s.mark t with suspect := false, strike := true } ∧ u.cores = s.cores ∧ u.mem = s.mem := by
  have hexec := execSiteTestEnd_site (s := s) ht true
  rw [if_neg (by simp [hs]), if_neg (by decide)] at hexec
  obtain ⟨hmarks, hcores, hmem⟩ := passSite_spec (s.setMark t { s.mark t with suspect := false, strike := true }) t
  generalize passSite _ t = s1 at *
  obtain ⟨u, hu, q, b, p, l, rfl⟩ := noted_signalled hexec
  exact ⟨_, hu, (congrArg (fun d => Sparse.get SiteMark.init d t) hmarks).trans (mark_setMark_self s t _), hcores, hmem⟩

end

/-- Settles O34: each command by the conditions of its first test. -/
theorem migrationsCopyAndSwapAPage : Obligations.MigrationsCopyAndSwapAPage := by
  intro s pi seg page
  refine ⟨fun toVault waits g f f' hv hg hf hf' hplace hprot hpin hctr hmigs hclash hlost hdie hdarn => ?_,
    fun m p g hm hp hg hcop => ?_, fun m hm hnot => ?_, fun m hm hcop hhalt => ?_, fun site hsite => ⟨fun hs pass => ?_, fun hs => ⟨?_, ?_⟩⟩⟩
  · have hexec : exec (.migrationStart pi seg page toVault waits) s = execMigrationStart pi seg page toVault waits s := rfl
    have hmates : (g.stripeOthers page).any (fun x => decide (dieOfSite (x / 16384) = dieOfSite toVault)) = false := by
      simpa using hclash
    rw [hexec, execMigrationStart, if_neg (Nat.not_le.2 hv)]
    simp only [hg, hf, hf', hplace, hprot, hpin, hctr, hmigs, hmates, hlost, hdie, hdarn]
    refine ⟨fun hw => ⟨_, congrArg Host.Outcome.next (if_neg ?_), rfl, rfl, congrArg (· ++ _) hmigs, rfl⟩, fun hw => congrArg Host.Outcome.next (if_pos ?_)⟩
    · simpa using hw
    · simpa using hw
  · have hexec : exec (.migrationCopyEnd pi seg page) s = execMigrationCopyEnd pi seg page s := rfl
    rw [hexec, execMigrationCopyEnd]
    simp only [hm, hp, hg, hcop, Bool.false_eq_true, if_false]
    exact ⟨_, rfl, copied_spec _ _ _ _ hp hg⟩
  · have hexec : exec (.migrationEnd pi seg page) s = execMigrationEnd pi seg page s := rfl
    rw [hexec, execMigrationEnd]
    simp only [hm]
    exact congrArg Host.Outcome.next (if_neg fun ⟨hc, hh⟩ => by rcases hnot with h | h <;> simp_all)
  · have hexec : exec (.migrationEnd pi seg page) s = .next (frameReturned (clearFrames s m.oldF 1) m) := by
      have hexec : exec (.migrationEnd pi seg page) s = execMigrationEnd pi seg page s := rfl
      rw [hexec, execMigrationEnd]
      simp only [hm, hcop, hhalt, and_self, if_true, frameReturned]
    obtain ⟨hmem, hcores, hout⟩ := clearFrames_spec s m.oldF 1
    obtain ⟨hmigs, hmem', hcores', hout'⟩ := frameReturned_spec (clearFrames s m.oldF 1) m
    refine ⟨_, hexec, hmigs, hcores'.trans hcores, hout'.trans hout, fun x hx => ?_, fun x hlo hhi => ?_⟩
    · rw [hmem', hmem, rdByte_zeroRange, if_neg (by omega)]
    · rw [hmem', hmem, rdByte_zeroRange, if_pos (by omega)]
  · exact siteTestEnd_other hsite pass hs
  · exact siteTestEnd_failed hsite hs
  · exact siteTestEnd_passed hsite hs

end Sys2Proof.Machine

/-! ### What a Nelzan link sends (R338 to R342) -/

namespace Sys2Proof.Machine

/-! #### Links by name -/

/-- A routed link that is in the table is found as it was put back. -/
theorem find_replaced {l : List (LinkId × Link)} {i : LinkId} {x : Link} (h : l.any (fun e => decide (e.1 = i)) = true) :
    (l.map (fun e => if e.1 = i then (i, x) else e)).find? (fun e => decide (e.1 = i)) = some (i, x) := by
  induction l with
  | nil => cases h
  | cons e l ih =>
    by_cases he : e.1 = i
    · simp [he]
    · rw [List.any_cons, decide_eq_false he, Bool.false_or] at h
      simp [he, ih h]

/-- One that is not is found at its end. -/
theorem find_added {l : List (LinkId × Link)} {i : LinkId} {x : Link} (h : ¬l.any (fun e => decide (e.1 = i)) = true) :
    (l ++ [(i, x)]).find? (fun e => decide (e.1 = i)) = some (i, x) := by
  have hnone : l.find? (fun e => decide (e.1 = i)) = none := by
    rw [List.find?_eq_none]
    exact fun e he hi => h (List.any_eq_true.2 ⟨e, he, hi⟩)
  simp [List.find?_append, hnone]

@[simp] theorem link_setLink_self (s : State) (i : LinkId) (x : Link) : (s.setLink i x).link i = some x := by
  cases i with
  | direct l => exact congrArg some (Vector.getElem_set_self _)
  | routed k node slot =>
    simp only [State.setLink, State.link]
    split
    next h => rw [find_replaced h, Option.map_some]
    next h => rw [find_added h, Option.map_some]

theorem link_congr {s t : State} (hl : t.links = s.links) (hr : t.routed = s.routed) (i : LinkId) : t.link i = s.link i := by
  simp only [State.link, hl, hr]

/-- The cores and links of a state, and its Lodestar with what it has drawn. -/
def State.wires (s : State) : List (Nat × Core) × Vector Link 8 × List (LinkId × Link) × Nat × Lodestar :=
  (s.cores, s.links, s.routed, s.drawn, s.lode)

theorem wires_cores {s t : State} (h : t.wires = s.wires) : t.cores = s.cores := congrArg (·.1) h

theorem wires_drawn {s t : State} (h : t.wires = s.wires) : t.drawn = s.drawn := congrArg (·.2.2.2.1) h

theorem wires_lode {s t : State} (h : t.wires = s.wires) : t.lode = s.lode := congrArg (·.2.2.2.2) h

theorem wires_link {s t : State} (h : t.wires = s.wires) (i : LinkId) : t.link i = s.link i :=
  link_congr (congrArg (·.2.1) h) (congrArg (·.2.2.1) h) i

@[simp] theorem transmit_wires (s : State) (p : Fin 8) (e : Emit) : (s.transmit p e).wires = s.wires := by
  simp only [State.transmit]
  split
  · rfl
  split <;> rfl

@[simp] theorem wireOut_wires (s : State) (i : LinkId) (es : List Emit) : (wireOut s i es).wires = s.wires := by
  cases i with
  | direct l => rfl
  | routed k node slot => exact foldl_field State.wires _ (fun s e => transmit_wires s _ e) es s

theorem wireOut_direct {i : LinkId} (h : isRouted i = false) (s : State) (es : List Emit) : wireOut s i es = s.emits es := by
  cases i with
  | direct l => rfl
  | routed k node slot => cases h

theorem linkNet_direct {i : LinkId} (h : isRouted i = false) (s : State) : linkNet s i = none := by
  cases i with
  | direct l => rfl
  | routed k node slot => cases h

theorem setLink_cores (s : State) (i : LinkId) (x : Link) : (s.setLink i x).cores = s.cores := by cases i <;> rfl

theorem setLink_mem (s : State) (i : LinkId) (x : Link) : (s.setLink i x).mem = s.mem := by cases i <;> rfl

theorem setLink_out (s : State) (i : LinkId) (x : Link) : (s.setLink i x).out = s.out := by cases i <;> rfl

/-! #### One frame -/

section
variable (s : State) (i : LinkId) (x : Link) (seq : BitVec 16) (vc ftype len : Nat) (msg : Option Emit)

@[simp] theorem nzOut_link : (nzOut s i x seq vc ftype len msg).link i = some x.spent :=
  (wires_link (wireOut_wires ..) i).trans (link_setLink_self s i x.spent)

theorem nzOut_cores : (nzOut s i x seq vc ftype len msg).cores = s.cores :=
  (wires_cores (wireOut_wires ..)).trans (setLink_cores s i x.spent)

theorem nzOut_mem : (nzOut s i x seq vc ftype len msg).mem = s.mem := inside_mem (nzOut_inside ..)

theorem nzOut_out (h : isRouted i = false) : (nzOut s i x seq vc ftype len msg).out
    = s.out ++ .nzFrame i (x.header seq vc ftype len) (nzNonce (!x.low) x.txcnt) none :: msg.toList := by
  rw [nzOut, wireOut_direct h, linkNet_direct h]
  exact congrArg (· ++ _) (setLink_out s i x.spent)

end

/-- With no credit owed, a frame only raises TXCNT. -/
theorem spent_of_owed_nil {x : Link} (h : x.owed = []) : x.spent = { x with txcnt := x.txcnt + 1 } := by
  have hgiving : x.giving = (0, 0) := by rw [Link.giving, h]
  rw [Link.spent, hgiving, h]
  rfl

theorem spent_owed_nil {x : Link} (h : x.owed = []) : x.spent.owed = [] := (congrArg Link.owed (spent_of_owed_nil h)).trans h

/-! #### What a link keeps while it sends -/

/-- The link without its counts, its buffers and its credit: what sending leaves alone. -/
def Link.lasting (x : Link) : Link := { x with txSeq := 0, txcnt := 0, replay := [], credits := [], owed := [], waiting := [] }

@[simp] theorem spent_lasting (x : Link) : x.spent.lasting = x.lasting := rfl

/-- `t` has sent more than `s`: link `i` is in the same state, and the cores are. -/
def Sends (i : LinkId) (s t : State) : Prop :=
  t.cores = s.cores ∧ Grows s t ∧ ∀ x, s.link i = some x → ∃ y, t.link i = some y ∧ y.lasting = x.lasting

theorem Sends.refl (i : LinkId) (s : State) : Sends i s s := ⟨rfl, .refl s, fun x h => ⟨x, h, rfl⟩⟩

theorem Sends.trans {i : LinkId} {s t u : State} (h : Sends i s t) (h' : Sends i t u) : Sends i s u := by
  obtain ⟨hcores, hgrows, hlink⟩ := h
  obtain ⟨hcores', hgrows', hlink'⟩ := h'
  refine ⟨hcores'.trans hcores, hgrows.trans hgrows', fun x hx => ?_⟩
  obtain ⟨y, hy, hxy⟩ := hlink x hx
  obtain ⟨z, hz, hyz⟩ := hlink' y hy
  exact ⟨z, hz, hyz.trans hxy⟩

/-- A frame from a link that differs only in what sending changes. -/
theorem nzOut_sends {s : State} {i : LinkId} {x y : Link} (hx : s.link i = some x) (hxy : y.lasting = x.lasting) (seq : BitVec 16)
    (vc ftype len : Nat) (msg : Option Emit) : Sends i s (nzOut s i y seq vc ftype len msg) := by
  refine ⟨nzOut_cores .., nzOut_grows .., fun z hz => ⟨_, nzOut_link .., ?_⟩⟩
  obtain rfl : z = x := Option.some.inj (hz.symm.trans hx)
  exact hxy

theorem sendFrame_sends {s : State} {i : LinkId} {x y : Link} (hx : s.link i = some x) (hxy : y.lasting = x.lasting) (f : NzFrame) :
    Sends i s (sendFrame s i y f) := by
  refine nzOut_sends hx ?_ ..
  exact hxy

theorem pump_sends (i : LinkId) (n : Nat) (s : State) : Sends i s (pump i n s) := by
  induction n generalizing s with
  | zero => exact .refl i s
  | succ n ih =>
    rw [pump]
    split
    · exact .refl i s
    next x hx =>
      split
      · exact .refl i s
      split
      · exact .refl i s
      · refine Sends.trans ?_ (ih _)
        refine sendFrame_sends hx ?_ _
        rfl

theorem pumpAll_sends (s : State) (i : LinkId) : Sends i s (pumpAll s i) := by
  rw [pumpAll]
  split
  · exact .refl i s
  · exact pump_sends ..

theorem sendCredit_sends (i : LinkId) (n : Nat) (s : State) : Sends i s (sendCredit i n s) := by
  induction n generalizing s with
  | zero => exact .refl i s
  | succ n ih =>
    rw [sendCredit]
    split
    · exact .refl i s
    next x hx =>
      split
      · refine Sends.trans ?_ (ih _)
        exact nzOut_sends hx rfl _ _ _ _ _
      · exact .refl i s

theorem creditAll_sends (s : State) (i : LinkId) : Sends i s (creditAll s i) := by
  rw [creditAll]
  split
  · exact .refl i s
  · exact sendCredit_sends ..

/-- A link with nothing waiting sends no more. -/
theorem pumpAll_idle {s : State} {i : LinkId} {x : Link} (hx : s.link i = some x) (hw : x.waiting = []) : pumpAll s i = s := by
  rw [pumpAll, hx]
  simp only [hw, List.length_nil, pump]

/-- A link that owes no credit returns none. -/
theorem creditAll_idle {s : State} {i : LinkId} {x : Link} (hx : s.link i = some x) (ho : x.owed = []) : creditAll s i = s := by
  rw [creditAll, hx]
  simp only [ho, List.length_nil, sendCredit]

/-! #### The replay buffer sent again (R339) -/

/-- The frames that go out with what a replay buffer holds, each under its own SEQ. -/
def resent (i : LinkId) (x : Link) : List (BitVec 16 × NzFrame) → List Emit
  | [] => []
  | f :: l => .nzFrame i (x.header f.1 f.2.vc ftData f.2.len) (nzNonce (!x.low) x.txcnt) none :: f.2.msg.toList ++ resent i x.spent l

/-- Send one frame of the replay buffer again. -/
def resendFrame (i : LinkId) (s : State) (f : BitVec 16 × NzFrame) : State :=
  match s.link i with
  | none => s
  | some y => nzOut s i y f.1 f.2.vc ftData f.2.len f.2.msg

theorem resend_eq {s : State} {i : LinkId} {x : Link} (hx : s.link i = some x) : resend s i = x.replay.foldl (resendFrame i) s := by
  rw [resend, hx]
  rfl

theorem resendFrames_spec {i : LinkId} (l : List (BitVec 16 × NzFrame)) {s : State} {x : Link} (hx : s.link i = some x) :
    (l.foldl (resendFrame i) s).link i = some (Link.spent^[l.length] x) ∧ (l.foldl (resendFrame i) s).cores = s.cores
      ∧ Grows s (l.foldl (resendFrame i) s) ∧ (isRouted i = false → (l.foldl (resendFrame i) s).out = s.out ++ resent i x l) := by
  induction l generalizing s x with
  | nil => exact ⟨hx, rfl, .refl s, fun _ => (List.append_nil _).symm⟩
  | cons f l ih =>
    have hone : resendFrame i s f = nzOut s i x f.1 f.2.vc ftData f.2.len f.2.msg := by rw [resendFrame, hx]
    obtain ⟨hlink, hcores, hgrows, hout⟩ := ih (s := resendFrame i s f) (x := x.spent) (by rw [hone, nzOut_link])
    rw [List.foldl_cons]
    refine ⟨hlink, hcores.trans ?_, Grows.trans ?_ hgrows, fun hd => (hout hd).trans ?_⟩
    · rw [hone, nzOut_cores]
    · rw [hone]
      exact nzOut_grows ..
    · rw [hone, nzOut_out _ _ _ _ _ _ _ _ hd, resent, List.append_assoc]

/-- What frames leave alone of a link. -/
theorem iterate_spent (x : Link) (n : Nat) : (Link.spent^[n] x).lasting = x.lasting ∧ (Link.spent^[n] x).replay = x.replay
    ∧ (Link.spent^[n] x).waiting = x.waiting := by
  induction n generalizing x with
  | zero => exact ⟨rfl, rfl, rfl⟩
  | succ n ih =>
    obtain ⟨hlast, hreplay, hwaiting⟩ := ih x.spent
    exact ⟨hlast.trans (spent_lasting x), hreplay, hwaiting⟩

/-- With no credit owed, frames only raise TXCNT. -/
theorem iterate_spent_of_owed_nil {x : Link} (h : x.owed = []) (n : Nat) :
    Link.spent^[n] x = { x with txcnt := x.txcnt + BitVec.ofNat 40 n } := by
  induction n generalizing x with
  | zero => simp
  | succ n ih =>
    rw [Function.iterate_succ_apply, spent_of_owed_nil h]
    refine (ih (x := { x with txcnt := x.txcnt + 1 }) h).trans ?_
    rw [Nat.add_comm n 1, BitVec.ofNat_add, ← BitVec.add_assoc]
    rfl

/-- Each frame of the buffer goes out, and its message with it. -/
theorem mem_resent {i : LinkId} {l : List (BitVec 16 × NzFrame)} {f : BitVec 16 × NzFrame} (hf : f ∈ l) (x : Link) :
    (∃ y : Link, .nzFrame i (y.header f.1 f.2.vc ftData f.2.len) (nzNonce (!y.low) y.txcnt) none ∈ resent i x l)
      ∧ ∀ m ∈ f.2.msg, m ∈ resent i x l := by
  induction l generalizing x with
  | nil => cases hf
  | cons e l ih =>
    rw [resent]
    rcases List.mem_cons.1 hf with rfl | hf
    · refine ⟨⟨x, List.mem_cons_self ..⟩, fun m hm => ?_⟩
      simp [Option.mem_toList.2 hm]
    · obtain ⟨⟨y, hy⟩, hm⟩ := ih hf x.spent
      exact ⟨⟨y, by simp [hy]⟩, fun m h => by simp [hm m h]⟩

/-- The frames of a buffer sent by a link that owes no credit. -/
theorem resent_of_owed_nil {i : LinkId} {x : Link} (h : x.owed = []) (l : List (BitVec 16 × NzFrame)) (k : Nat) :
    resent i { x with txcnt := x.txcnt + BitVec.ofNat 40 k } l = (l.zipIdx k).flatMap (fun e =>
      .nzFrame i (nzBits e.1.1 x.rxSeq e.1.2.vc ftData e.1.2.len 0 0 (x.txcnt + BitVec.ofNat 40 e.2))
        (nzNonce (!x.low) (x.txcnt + BitVec.ofNat 40 e.2)) none :: e.1.2.msg.toList) := by
  induction l generalizing k with
  | nil => rfl
  | cons f l ih =>
    have hnext : ({ x with txcnt := x.txcnt + BitVec.ofNat 40 k } : Link).spent = { x with txcnt := x.txcnt + BitVec.ofNat 40 (k + 1) } := by
      refine (spent_of_owed_nil (x := { x with txcnt := x.txcnt + BitVec.ofNat 40 k }) h).trans ?_
      rw [BitVec.ofNat_add, ← BitVec.add_assoc]
      rfl
    have hgiving : ({ x with txcnt := x.txcnt + BitVec.ofNat 40 k } : Link).giving = (0, 0) := by
      simp only [Link.giving, h]
    rw [resent, hnext, ih, List.zipIdx_cons, List.flatMap_cons, Link.header, hgiving]

/-! #### Handshakes and retraining (R339, R341, R342) -/

/-- What this module says of itself in a handshake. -/
def shakePayload (s : State) (i : LinkId) (c : ConfigRec) : BitVec 640 :=
  shakeBits c.linkRev c.linkPrev c.arithRev c.nodeId c.slot (match i with | .direct l => l.val | .routed _ _ _ => 0)
    (isRouted i) ((s.groups.map (fun e => 2 ^ e.1)).foldl (· + ·) 0) (Config.x25519Public (Config.linkSecret s.drawn))
    (Config.linkNonce s.drawn)

/-- The link that waits for the peer's handshake. -/
def shaking (s : State) (i : LinkId) (x : Link) (c : ConfigRec) (st : LinkState) : Link :=
  { x with st := st, mine := shakePayload s i c, secret := Config.linkSecret s.drawn }

theorem sendHandshake_spec {s : State} {i : LinkId} {x : Link} {c : ConfigRec} (hx : s.link i = some x) (hc : s.config = some c)
    (st : LinkState) :
    (sendHandshake s i st).link i = some (shaking s i x c st).spent ∧ (sendHandshake s i st).drawn = s.drawn + 1
      ∧ (sendHandshake s i st).lode.rseq = s.lode.rseq + 1 ∧ (sendHandshake s i st).cores = s.cores
      ∧ (isRouted i = false → ∃ hd, .nzHandshake i hd (shakePayload s i c) none ∈ (sendHandshake s i st).out) := by
  have heq : sendHandshake s i st = wireOut ((({ s with drawn := s.drawn + 1, lode := { s.lode with rseq := s.lode.rseq + 1 } } : State).setLink i
      (shaking s i x c st).spent).bump (txCtr i) 1) i
      [.nzHandshake i ((shaking s i x c st).header (shaking s i x c st).txSeq 0 ftHandshake 80) (shakePayload s i c) (linkNet s i)] := by
    unfold sendHandshake
    rw [hx, hc]
    rfl
  rw [heq]
  refine ⟨(wires_link (wireOut_wires ..) i).trans (link_setLink_self ..), (wires_drawn (wireOut_wires ..)).trans ?_,
    (congrArg Lodestar.rseq (wires_lode (wireOut_wires ..))).trans ?_, (wires_cores (wireOut_wires ..)).trans ?_,
    fun hd => ⟨(shaking s i x c st).header (shaking s i x c st).txSeq 0 ftHandshake 80, ?_⟩⟩
  · cases i <;> rfl
  · cases i <;> rfl
  · cases i <;> rfl
  · rw [wireOut_direct hd, linkNet_direct hd]
    exact List.mem_append_right _ (List.mem_singleton.2 rfl)

theorem sendHandshake_none {s : State} (hc : s.config = none) (i : LinkId) (st : LinkState) : sendHandshake s i st = s := by
  unfold sendHandshake
  split
  next hc' => exact absurd (hc.symm.trans hc') nofun
  next => rfl

/-- A link that retrains keeps its sequence numbers and its replay buffer. -/
theorem retrain_spec (s : State) (i : LinkId) (x : Link) :
    (retrain s i x).cores = s.cores ∧ Grows s (retrain s i x)
      ∧ (∃ y, (retrain s i x).link i = some y ∧ y.replay = x.replay ∧ y.rxSeq = x.rxSeq ∧ y.waiting = x.waiting ∧ (x.owed = [] → y.owed = [])
        ∧ (isRouted i = false → y.st = .retraining ∧ .nzRetrain i ∈ (retrain s i x).out)
        ∧ (isRouted i = true → s.config.isSome = true → y.st = .rekeying)) := by
  have hlink : ((s.setLink i { x with st := .retraining, nakRun := 0 }).bump32 (retrainCtr i) 1).link i
      = some { x with st := .retraining, nakRun := 0 } := link_setLink_self ..
  have hcores : ((s.setLink i { x with st := .retraining, nakRun := 0 }).bump32 (retrainCtr i) 1).cores = s.cores := setLink_cores ..
  have hgrows : Grows s ((s.setLink i { x with st := .retraining, nakRun := 0 }).bump32 (retrainCtr i) 1) := .of_out (setLink_out ..)
  have hconfig : ((s.setLink i { x with st := .retraining, nakRun := 0 }).bump32 (retrainCtr i) 1).config = s.config := by cases i <;> rfl
  rw [retrain]
  generalize (s.setLink i { x with st := .retraining, nakRun := 0 }).bump32 (retrainCtr i) 1 = s1 at *
  cases hr : isRouted i with
  | false =>
    refine ⟨hcores, hgrows.trans (emit_grows ..), _, hlink, rfl, rfl, rfl, id, fun _ => ⟨rfl, ?_⟩, nofun⟩
    exact List.mem_append_right _ (List.mem_singleton.2 rfl)
  | true =>
    refine ⟨?_, hgrows.trans (sendHandshake_grows ..), ?_⟩
    · exact (inside_cores (sendHandshake_inside ..)).trans hcores
    cases hc : s1.config with
    | none =>
      rw [if_pos rfl, sendHandshake_none hc]
      exact ⟨_, hlink, rfl, rfl, rfl, id, nofun, fun _ h => by rw [← hconfig, hc] at h; cases h⟩
    | some c =>
      obtain ⟨hlink', -⟩ := sendHandshake_spec hlink hc .rekeying
      refine ⟨_, hlink', rfl, rfl, rfl, fun ho => ?_, nofun, fun _ _ => rfl⟩
      exact spent_owed_nil ho

end Sys2Proof.Machine

/-! ### Frames of a Nelzan link (R338 to R340) -/

namespace Sys2Proof.Machine

/-! #### The release of what was sent (R382) -/

/-- The cores and links of a state, its Lodestar, and what it has sent. -/
def State.wiresOut (s : State) := (s.wires, s.out)

theorem lzPut_wiresOut (s : State) (a : Nat) (b : Byte) : (lzPut s a b).wiresOut = s.wiresOut := by
  simp [lzPut, State.wiresOut, State.wires]

theorem lzRelease_wiresOut (s : State) (b n : Nat) : (lzRelease s b n).wiresOut = s.wiresOut := by
  refine foldl_field State.wiresOut _ (fun s i => ?_) (List.range (n * 4096)) s
  split
  · rfl
  · exact lzPut_wiresOut ..

theorem releaseSent_wiresOut (s : State) (l : Fin 8) : (releaseSent s l).wiresOut = s.wiresOut := by
  rw [releaseSent]
  split
  · rfl
  refine foldl_field State.wiresOut _ (fun s k => ?_) _ s
  refine foldl_field State.wiresOut _ (fun s e => ?_) _ s
  split
  · rfl
  split
  · exact lzRelease_wiresOut ..
  · rfl

/-- The release that follows an acknowledgement, before the link sends again. -/
def released (s : State) (i : LinkId) : State := match i with | .direct l => releaseSent s l | _ => s

theorem released_wiresOut (s : State) (i : LinkId) : (released s i).wiresOut = s.wiresOut := by
  cases i with
  | direct l => exact releaseSent_wiresOut s l
  | routed k node slot => rfl

theorem released_link (s : State) (i j : LinkId) : (released s i).link j = s.link j := wires_link (congrArg (·.1) (released_wiresOut s i)) j
theorem released_cores (s : State) (i : LinkId) : (released s i).cores = s.cores := wires_cores (congrArg (·.1) (released_wiresOut s i))
theorem released_out (s : State) (i : LinkId) : (released s i).out = s.out := congrArg (·.2) (released_wiresOut s i)

theorem afterAck_eq (s : State) (i : LinkId) : afterAck s i = pumpAll (released s i) i := by cases i <;> rfl

/-! #### What follows a frame -/

/-- What follows a frame that was taken: the release, the frames that wait, and the credit that is owed. -/
def frameTaken (i : LinkId) (s : State) : State := creditAll (afterAck s i) i

theorem frameTaken_sends (i : LinkId) (s : State) : Sends i s (frameTaken i s) := by
  have hrel : Sends i s (released s i) :=
    ⟨released_cores s i, .of_out (released_out s i), fun x hx => ⟨x, (released_link s i i).trans hx, rfl⟩⟩
  rw [frameTaken, afterAck_eq]
  exact hrel.trans ((pumpAll_sends ..).trans (creditAll_sends ..))

/-- A link with nothing waiting returns the credit that it owes, after the release. -/
theorem frameTaken_of_waiting_nil {s : State} {i : LinkId} {x : Link} (hx : s.link i = some x) (hw : x.waiting = []) :
    frameTaken i s = creditAll (released s i) i := by
  rw [frameTaken, afterAck_eq, pumpAll_idle ((released_link s i i).trans hx) hw]

/-- A link with nothing waiting and no credit owed is as it was. -/
theorem frameTaken_idle {s : State} {i : LinkId} {x : Link} (hx : s.link i = some x) (hw : x.waiting = []) (ho : x.owed = []) :
    (frameTaken i s).link i = some x ∧ (frameTaken i s).out = s.out ∧ (frameTaken i s).cores = s.cores := by
  rw [frameTaken_of_waiting_nil hx hw, creditAll_idle ((released_link s i i).trans hx) ho]
  exact ⟨(released_link s i i).trans hx, released_out s i, released_cores s i⟩

/-- A link with nothing waiting that owes one channel's credit returns it in one CREDIT frame. -/
theorem frameTaken_one {s : State} {i : LinkId} {x : Link} {vc n : Nat} (hx : s.link i = some x) (hup : x.st = .up) (hw : x.waiting = [])
    (ho : x.owed = [(vc, n)]) (hn : n ≤ 4095) :
    (∃ y, (frameTaken i s).link i = some y ∧ y.owed = [])
      ∧ (isRouted i = false → .nzFrame i (nzBits x.txSeq x.rxSeq 0 ftCredit 0 vc n x.txcnt) (nzNonce (!x.low) x.txcnt) none
        ∈ (frameTaken i s).out) := by
  have hgiving : x.giving = (vc, n) := by simp only [Link.giving, ho, Nat.min_eq_right hn]
  have hspent : x.spent.owed = [] := by
    have hzero : Sparse.set 0 [(vc, n)] vc 0 = [] := by simp [Sparse.set]
    rw [Link.spent, hgiving, ho]
    simpa [Sparse.get] using hzero
  have hlink := (released_link s i i).trans hx
  have heq : creditAll (released s i) i = sendControl (released s i) i x ftCredit := by
    rw [creditAll, hlink]
    simp only [ho, List.length_singleton, sendCredit, hlink, hup]
    exact if_pos ⟨trivial, by simp⟩
  rw [frameTaken_of_waiting_nil hx hw, heq]
  refine ⟨⟨_, nzOut_link .., hspent⟩, fun hd => ?_⟩
  rw [sendControl, nzOut_out _ _ _ _ _ _ _ _ hd, Link.header, hgiving]
  simp

/-! #### Frames that are taken and frames that are not (R339) -/

/-- Does a frame of type `ft` pass its checks, in its turn? -/
def inTurn (h : NzHeader) (x : Link) (ft : Nat) : Bool := h.tagOk && h.fits ft && decide (h.seq = x.rxSeq)

section
variable {s : State} {i : LinkId} {x : Link} {h : NzHeader} {ft : Nat} {f : State → Link → State} (hx : s.link i = some x) (hup : x.st = .up)
include hx hup

theorem onFrame_nak (hbad : inTurn h x ft = false) : onFrame i ft h s f = .next (sendControl s i x ftNak) := by
  have hcheck : h.tagOk = false ∨ h.fits ft = false ∨ h.seq ≠ x.rxSeq := by
    simp only [inTurn, Bool.and_eq_false_iff, decide_eq_false_iff_not] at hbad
    tauto
  rw [onFrame, hx]
  exact congrArg Host.Outcome.next ((if_neg (not_not.2 hup)).trans (if_pos hcheck))

theorem onFrame_taken (hgood : inTurn h x ft = true) :
    onFrame i ft h s f = .next (frameTaken i (f (s.setLink i ((x.acked h.ack).credited h.cvc h.ccnt)) ((x.acked h.ack).credited h.cvc h.ccnt))) := by
  have hcheck : ¬(h.tagOk = false ∨ h.fits ft = false ∨ h.seq ≠ x.rxSeq) := by
    simp only [inTurn, Bool.and_eq_true, decide_eq_true_eq] at hgood
    simp [hgood]
  rw [onFrame, hx]
  exact congrArg Host.Outcome.next ((if_neg (not_not.2 hup)).trans (if_neg hcheck))

end

/-- What a link keeps of an acknowledgement and a credit return. -/
theorem acked_credited (x : Link) (ack : BitVec 16) (vc n : Nat) :
    ((x.acked ack).credited vc n) = { x with replay := (x.acked ack).replay,
                                             credits := Sparse.set 0 x.credits vc (Sparse.get 0 x.credits vc - n) } := by
  rw [Link.credited, Link.acked]
  split
  · rfl
  dsimp only
  split <;> rfl

theorem mem_acked {x : Link} {ack : BitVec 16} {f : BitVec 16 × NzFrame} (h : f ∈ (x.acked ack).replay) : f ∈ x.replay := by
  rw [Link.acked] at h
  split at h
  · exact h
  dsimp only at h
  split at h
  · exact List.mem_of_mem_drop h
  · exact h

/-! #### The four types of frame -/

/-- The link that a data frame leaves: it expects the next SEQ, and the frame's words are owed. -/
def dataTaken (x : Link) (h : NzHeader) : Link :=
  { (x.acked h.ack).credited h.cvc h.ccnt with
    rxSeq := ((x.acked h.ack).credited h.cvc h.ccnt).rxSeq + 1
    owed := Sparse.set 0 ((x.acked h.ack).credited h.cvc h.ccnt).owed h.vc
      (Sparse.get 0 ((x.acked h.ack).credited h.cvc h.ccnt).owed h.vc + frameWords h.len) }

theorem dataTaken_eq (x : Link) (h : NzHeader) : dataTaken x h = { x with
    replay := (x.acked h.ack).replay
    credits := Sparse.set 0 x.credits h.cvc (Sparse.get 0 x.credits h.cvc - h.ccnt)
    rxSeq := x.rxSeq + 1
    owed := Sparse.set 0 x.owed h.vc (Sparse.get 0 x.owed h.vc + frameWords h.len) } := by
  rw [dataTaken, acked_credited]

/-- The state in which a data frame has been delivered. -/
def delivered (s : State) (i : LinkId) (x : Link) (h : NzHeader) : State :=
  ((s.setLink i ((x.acked h.ack).credited h.cvc h.ccnt)).setLink i (dataTaken x h)).emit (.nzDeliver i h.vc h.len)

theorem nzDataFrame_taken {s : State} {i : LinkId} {x : Link} {h : NzHeader} (hx : s.link i = some x) (hup : x.st = .up)
    (hgood : inTurn h x ftData = true) : exec (.nzDataFrame i h) s = .next (frameTaken i (delivered s i x h)) := by
  have hexec : exec (.nzDataFrame i h) s = execNzDataFrame i h s := rfl
  rw [hexec, execNzDataFrame, onFrame_taken hx hup hgood]
  rfl

theorem delivered_link (s : State) (i : LinkId) (x : Link) (h : NzHeader) : (delivered s i x h).link i = some (dataTaken x h) :=
  link_setLink_self ..

theorem delivered_cores (s : State) (i : LinkId) (x : Link) (h : NzHeader) : (delivered s i x h).cores = s.cores :=
  (setLink_cores ..).trans (setLink_cores ..)

theorem delivered_out (s : State) (i : LinkId) (x : Link) (h : NzHeader) : .nzDeliver i h.vc h.len ∈ (delivered s i x h).out :=
  List.mem_append_right _ (List.mem_singleton.2 rfl)

/-- A data frame owes its words at a link that owed none. -/
theorem delivered_credit {s : State} {i : LinkId} {x : Link} {h : NzHeader} (hup : x.st = .up) (hfits : h.fits ftData = true)
    (hw : x.waiting = []) (ho : x.owed = []) :
    (∃ y, (frameTaken i (delivered s i x h)).link i = some y ∧ y.owed = [])
      ∧ (isRouted i = false → 0 < h.len →
        .nzFrame i (nzBits x.txSeq (x.rxSeq + 1) 0 ftCredit 0 h.vc (frameWords h.len) x.txcnt) (nzNonce (!x.low) x.txcnt) none
          ∈ (frameTaken i (delivered s i x h)).out) := by
  have hlen : h.len ≤ 4096 := by
    simp only [NzHeader.fits, Bool.and_eq_true, decide_eq_true_eq] at hfits
    exact hfits.1.2.2.2
  have hwords : frameWords h.len ≤ 64 := by
    unfold frameWords ceilDiv
    omega
  have howed : (dataTaken x h).owed = Sparse.set 0 [] h.vc (frameWords h.len) := by
    rw [dataTaken_eq, ho]
    simp [Sparse.get]
  by_cases hzero : frameWords h.len = 0
  · have hnil : (dataTaken x h).owed = [] := by rw [howed, hzero]; rfl
    obtain ⟨hlink, -, -⟩ := frameTaken_idle (delivered_link s i x h) (by rw [dataTaken_eq]; exact hw) hnil
    refine ⟨⟨_, hlink, hnil⟩, fun _ hpos => ?_⟩
    unfold frameWords ceilDiv at hzero
    omega
  · have hone : (dataTaken x h).owed = [(h.vc, frameWords h.len)] := by rw [howed]; simp [Sparse.set, Sparse.put, hzero]
    obtain ⟨hlink, hout⟩ := frameTaken_one (delivered_link s i x h) (by rw [dataTaken_eq]; exact hup) (by rw [dataTaken_eq]; exact hw) hone
      (by omega)
    refine ⟨hlink, fun hd _ => ?_⟩
    have := hout hd
    rw [dataTaken_eq] at this
    exact this

/-- The number of NAKs running for one SEQ. -/
def nakRun (x : Link) (h : NzHeader) : Nat := if x.nakSeq = h.ack ∧ 0 < x.nakRun then x.nakRun + 1 else 1

/-- The link that has taken a NAK. -/
def nakTaken (x : Link) (h : NzHeader) : Link :=
  { (x.acked h.ack).credited h.cvc h.ccnt with nakSeq := h.ack, nakRun := nakRun ((x.acked h.ack).credited h.cvc h.ccnt) h }

theorem nakTaken_eq (x : Link) (h : NzHeader) : nakTaken x h = { x with
    replay := (x.acked h.ack).replay
    credits := Sparse.set 0 x.credits h.cvc (Sparse.get 0 x.credits h.cvc - h.ccnt)
    nakSeq := h.ack
    nakRun := nakRun x h } := by
  rw [nakTaken, acked_credited]
  rfl

/-- The state in which a NAK has been counted. -/
def nakCounted (s : State) (i : LinkId) (x : Link) (h : NzHeader) : State :=
  ((s.setLink i ((x.acked h.ack).credited h.cvc h.ccnt)).setLink i (nakTaken x h)).bump (nakCtr i) 1

theorem nzNakFrame_taken {s : State} {i : LinkId} {x : Link} {h : NzHeader} (hx : s.link i = some x) (hup : x.st = .up)
    (hgood : inTurn h x ftNak = true) : exec (.nzNakFrame i h) s = .next (frameTaken i (
      if 16 ≤ nakRun x h then retrain (nakCounted s i x h) i (nakTaken x h) else resend (nakCounted s i x h) i)) := by
  have hexec : exec (.nzNakFrame i h) s = execNzNakFrame i h s := rfl
  have hrun : nakRun ((x.acked h.ack).credited h.cvc h.ccnt) h = nakRun x h := by
    rw [acked_credited]
    rfl
  rw [hexec, execNzNakFrame, onFrame_taken hx hup hgood, ← hrun]
  rfl

section
variable (s : State) (i : LinkId) (x : Link) (h : NzHeader)

theorem nakCounted_link : (nakCounted s i x h).link i = some (nakTaken x h) := link_setLink_self ..

theorem nakCounted_cores : (nakCounted s i x h).cores = s.cores := (setLink_cores ..).trans (setLink_cores ..)

theorem nakCounted_out : (nakCounted s i x h).out = s.out := (setLink_out ..).trans (setLink_out ..)

theorem nakCounted_config : (nakCounted s i x h).config = s.config := by cases i <;> rfl

end

section
variable {s : State} {i : LinkId} {x : Link} {h : NzHeader} (hx : s.link i = some x) (hup : x.st = .up) (hw : x.waiting = [])
  (ho : x.owed = []) (hgood : inTurn h x ftNak = true)
include hx hup hw ho hgood

/-- A NAK that is not the sixteenth sends the replay buffer again. -/
theorem nak_resends (hrun : x.nakRun < 15) : ∃ t y, exec (.nzNakFrame i h) s = .next t ∧ t.link i = some y ∧ y.st = .up
    ∧ y.replay = ((x.acked h.ack).credited h.cvc h.ccnt).replay ∧ y.nakSeq = h.ack ∧ t.cores = s.cores
    ∧ (isRouted i = false → t.out = s.out ++ ((x.acked h.ack).credited h.cvc h.ccnt).replay.zipIdx.flatMap (fun e =>
        .nzFrame i (nzBits e.1.1 x.rxSeq e.1.2.vc ftData e.1.2.len 0 0 (x.txcnt + BitVec.ofNat 40 e.2))
          (nzNonce (!x.low) (x.txcnt + BitVec.ofNat 40 e.2)) none :: e.1.2.msg.toList)) := by
  have hfew : ¬16 ≤ nakRun x h := by unfold nakRun; split <;> omega
  have howed : (nakTaken x h).owed = [] := by rw [nakTaken_eq]; exact ho
  obtain ⟨hlink, hcores, -, hout⟩ := resendFrames_spec (nakTaken x h).replay (nakCounted_link s i x h)
  rw [← resend_eq (nakCounted_link s i x h)] at hlink hcores hout
  obtain ⟨hlast, hreplay, hwaiting⟩ := iterate_spent (nakTaken x h) (nakTaken x h).replay.length
  have howed' : (Link.spent^[(nakTaken x h).replay.length] (nakTaken x h)).owed = [] := by
    rw [iterate_spent_of_owed_nil howed]
    exact howed
  obtain ⟨hlink', hout', hcores'⟩ := frameTaken_idle hlink (hwaiting.trans (by rw [nakTaken_eq]; exact hw)) howed'
  refine ⟨_, _, (nzNakFrame_taken hx hup hgood).trans (by rw [if_neg hfew]), hlink', ?_, hreplay, ?_,
    hcores'.trans (hcores.trans (nakCounted_cores s i x h)), fun hd => ?_⟩
  · have hst := congrArg Link.st hlast
    rw [nakTaken_eq] at hst ⊢
    exact hst.trans hup
  · have hseq := congrArg Link.nakSeq hlast
    rw [nakTaken_eq] at hseq ⊢
    exact hseq
  · rw [hout', hout hd, nakCounted_out]
    have hre := resent_of_owed_nil (i := i) howed (nakTaken x h).replay 0
    simp only [BitVec.add_zero] at hre
    rw [hre, nakTaken_eq, acked_credited]

/-- The sixteenth NAK running for one SEQ retrains the link. -/
theorem nak_retrains (hseq : x.nakSeq = h.ack) (hrun : x.nakRun = 15) : ∃ t y, exec (.nzNakFrame i h) s = .next t ∧ t.link i = some y
    ∧ y.replay = ((x.acked h.ack).credited h.cvc h.ccnt).replay ∧ t.cores = s.cores
    ∧ (isRouted i = false → y.st = .retraining ∧ .nzRetrain i ∈ t.out)
    ∧ (isRouted i = true → s.config.isSome = true → y.st = .rekeying) := by
  have hmany : 16 ≤ nakRun x h := by rw [nakRun, if_pos ⟨hseq, by omega⟩]; omega
  obtain ⟨hcores, -, y, hlink, hreplay, -, hwaiting, howed, hdirect, hrouted⟩ := retrain_spec (nakCounted s i x h) i (nakTaken x h)
  have hw' : y.waiting = [] := hwaiting.trans (by rw [nakTaken_eq]; exact hw)
  have ho' : y.owed = [] := howed (by rw [nakTaken_eq]; exact ho)
  obtain ⟨hlink', hout', hcores'⟩ := frameTaken_idle hlink hw' ho'
  refine ⟨_, _, (nzNakFrame_taken hx hup hgood).trans (by rw [if_pos hmany]), hlink', hreplay,
    hcores'.trans (hcores.trans (nakCounted_cores s i x h)), fun hd => ?_, fun hr hc => hrouted hr ?_⟩
  · obtain ⟨hst, hsent⟩ := hdirect hd
    exact ⟨hst, hout' ▸ hsent⟩
  · rw [nakCounted_config]
    exact hc

end

section
variable {s : State} {i : LinkId} {x : Link} {h : NzHeader} (hx : s.link i = some x) (hup : x.st = .up)
include hx hup

/-- A frame of each type that fails a check, or is out of its turn. -/
theorem nzFrames_nak :
    (inTurn h x ftData = false → exec (.nzDataFrame i h) s = .next (sendControl s i x ftNak))
      ∧ (inTurn h x ftAck = false → exec (.nzAckFrame i h) s = .next (sendControl s i x ftNak))
      ∧ (inTurn h x ftCredit = false → exec (.nzCreditFrame i h) s = .next (sendControl s i x ftNak))
      ∧ (inTurn h x ftNak = false → exec (.nzNakFrame i h) s = .next (sendControl s i x ftNak)) := by
  have hdata : exec (.nzDataFrame i h) s = execNzDataFrame i h s := rfl
  have hack : exec (.nzAckFrame i h) s = execNzAckFrame i h s := rfl
  have hcredit : exec (.nzCreditFrame i h) s = execNzCreditFrame i h s := rfl
  have hnak : exec (.nzNakFrame i h) s = execNzNakFrame i h s := rfl
  refine ⟨fun hbad => ?_, fun hbad => ?_, fun hbad => ?_, fun hbad => ?_⟩
  · rw [hdata, execNzDataFrame, onFrame_nak hx hup hbad]
  · rw [hack, execNzAckFrame, onFrame_nak hx hup hbad]
  · rw [hcredit, execNzCreditFrame, onFrame_nak hx hup hbad]
  · rw [hnak, execNzNakFrame, onFrame_nak hx hup hbad]

/-- A data frame in its turn. -/
theorem data_delivers (hgood : inTurn h x ftData = true) : ∃ t y, exec (.nzDataFrame i h) s = .next t ∧ t.link i = some y
    ∧ y.rxSeq = x.rxSeq + 1 ∧ y.st = .up ∧ .nzDeliver i h.vc h.len ∈ t.out ∧ t.cores = s.cores
    ∧ (x.waiting = [] → x.owed = [] → y.owed = []
      ∧ (isRouted i = false → 0 < h.len →
        .nzFrame i (nzBits x.txSeq (x.rxSeq + 1) 0 ftCredit 0 h.vc (frameWords h.len) x.txcnt) (nzNonce (!x.low) x.txcnt) none ∈ t.out)) := by
  obtain ⟨hcores, hgrows, hlasting⟩ := frameTaken_sends i (delivered s i x h)
  obtain ⟨y, hy, hlast⟩ := hlasting _ (delivered_link s i x h)
  rw [dataTaken_eq] at hlast
  have hfits : h.fits ftData = true := by
    simp only [inTurn, Bool.and_eq_true] at hgood
    exact hgood.1.2
  refine ⟨_, y, nzDataFrame_taken hx hup hgood, hy, congrArg Link.rxSeq hlast, (congrArg Link.st hlast).trans hup,
    hgrows.mem (delivered_out s i x h), hcores.trans (delivered_cores s i x h), fun hw ho => ?_⟩
  obtain ⟨⟨z, hz, howed⟩, hout⟩ := delivered_credit (s := s) (i := i) (h := h) hup hfits hw ho
  obtain rfl : z = y := Option.some.inj (hz.symm.trans hy)
  exact ⟨howed, hout⟩

/-- An acknowledgement or a credit return, with nothing waiting and no credit owed. -/
theorem ack_takes (hw : x.waiting = []) (ho : x.owed = []) {e : Instr} {ft : Nat} (he : exec e s = onFrame i ft h s (fun s _ => s))
    (hgood : inTurn h x ft = true) : ∃ t, exec e s = .next t ∧ t.link i = some ((x.acked h.ack).credited h.cvc h.ccnt)
      ∧ t.out = s.out ∧ t.cores = s.cores := by
  obtain ⟨hlink, hout, hcores⟩ := frameTaken_idle (link_setLink_self s i ((x.acked h.ack).credited h.cvc h.ccnt))
    (by rw [acked_credited]; exact hw) (by rw [acked_credited]; exact ho)
  exact ⟨_, he.trans (onFrame_taken hx hup hgood), hlink, hout.trans (setLink_out ..), hcores.trans (setLink_cores ..)⟩

end

/-- Settles O50: each frame by its checks; what follows one that is taken is a lemma of its own. -/
theorem linkFramesAreSequencedAndReplayed : Obligations.LinkFramesAreSequencedAndReplayed := by
  intro s i x h hx hup
  obtain ⟨hdata, hack, hcredit, hnak⟩ := nzFrames_nak (h := h) hx hup
  exact ⟨hdata, hack, hcredit, hnak, nzOut_link .., nzOut_cores .., nzOut_mem .., fun hd => nzOut_out _ _ _ _ _ _ _ _ hd,
    data_delivers hx hup, fun hw ho => ⟨ack_takes hx hup hw ho rfl, ack_takes hx hup hw ho rfl,
      fun hgood hrun => nak_resends hx hup hw ho hgood hrun, fun hgood hseq hrun => nak_retrains hx hup hw ho hgood hseq hrun⟩,
    fun f hf => mem_acked hf⟩

end Sys2Proof.Machine

/-! ### The life of a Nelzan link (R339, R341 to R344, R435) -/

namespace Sys2Proof.Machine

/-! #### Handshakes sent -/

/-- `t` has sent the handshake of link `i`, which has become `y`, from state `s`. -/
def Shaken (s : State) (i : LinkId) (c : ConfigRec) (t : State) (y : Link) : Prop :=
  y.secret = Config.linkSecret s.drawn ∧ t.drawn = s.drawn + 1 ∧ t.lode.rseq = s.lode.rseq + 1 ∧ y.mine = shakePayload s i c
    ∧ (isRouted i = false → ∃ hd, .nzHandshake i hd y.mine none ∈ t.out)

section
variable {s : State} {i : LinkId} {x : Link} {c : ConfigRec} (hx : s.link i = some x) (hc : s.config = some c)
include hx hc

theorem sendHandshake_shaken (st : LinkState) : ∃ y, (sendHandshake s i st).link i = some y ∧ y.st = st ∧ y.replay = x.replay
    ∧ y.rxSeq = x.rxSeq ∧ y.txSeq = x.txSeq ∧ Shaken s i c (sendHandshake s i st) y ∧ (sendHandshake s i st).cores = s.cores := by
  obtain ⟨hlink, hdrawn, hrseq, hcores, hout⟩ := sendHandshake_spec hx hc st
  exact ⟨_, hlink, rfl, rfl, rfl, rfl, ⟨rfl, hdrawn, hrseq, rfl, hout⟩, hcores⟩

end

section
variable {s : State} {i : LinkId} {x : Link} (hx : s.link i = some x)
include hx

/-! #### Bring-up (R341) -/

theorem laneTrainingEnd_sends (hst : x.st = .training) : exec (.laneTrainingEnd i) s = .next (sendHandshake s i .handshaking) := by
  have hexec : exec (.laneTrainingEnd i) s = execLaneTrainingEnd i s := rfl
  rw [hexec, execLaneTrainingEnd, hx]
  exact congrArg Host.Outcome.next (if_pos hst)

theorem linkBringupTimeout_downs (hst : x.st = .training ∨ x.st = .handshaking) :
    ∃ t, exec (.linkBringupTimeout i) s = .next t ∧ t.link i = some { x with st := .down } ∧ t.cores = s.cores := by
  have hexec : execLinkBringupTimeout i s = noted s (.next (s.setLink i { x with st := .down })) := by
    rw [execLinkBringupTimeout, hx]
    exact congrArg (fun u => noted s (.next u)) (if_pos hst)
  obtain ⟨t, ht, q, b, p, l, rfl⟩ := noted_signalled hexec
  exact ⟨_, ht, link_setLink_self s i { x with st := .down }, setLink_cores ..⟩

theorem linkRetry_held (hheld : x.heldDown = true) : exec (.linkRetry i) s = .next s := by
  have hexec : exec (.linkRetry i) s = execLinkRetry i s := rfl
  rw [hexec, execLinkRetry, hx]
  exact congrArg Host.Outcome.next (if_neg (by simp [hheld]))

theorem linkRetry_tries (hst : x.st = .down) (hheld : x.heldDown = false) (hopen : s.portsOpen (pdOfLink i) = true) :
    exec (.linkRetry i) s = .next (if isRouted i then sendHandshake (s.setLink i Link.init) i .handshaking
      else s.setLink i { Link.init with st := .training }) := by
  have hexec : exec (.linkRetry i) s = execLinkRetry i s := rfl
  rw [hexec, execLinkRetry, hx]
  exact congrArg Host.Outcome.next (if_pos ⟨hst, hheld, hopen⟩)

/-! #### Silence, retraining and the TXCNT (R339, R341) -/

theorem linkSilence1ms_acks (hst : x.st = .up) : exec (.linkSilence1ms i) s = .next (sendControl s i x ftAck) := by
  have hexec : exec (.linkSilence1ms i) s = execLinkSilence1ms i s := rfl
  rw [hexec, execLinkSilence1ms, hx]
  exact congrArg Host.Outcome.next (if_pos hst)

theorem linkSilence10ms_retrains (hst : x.st = .up) : ∃ t y, exec (.linkSilence10ms i) s = .next t ∧ t.link i = some y
    ∧ y.replay = x.replay ∧ y.rxSeq = x.rxSeq ∧ t.cores = s.cores ∧ (isRouted i = false → y.st = .retraining ∧ .nzRetrain i ∈ t.out)
    ∧ (isRouted i = true → s.config.isSome = true → y.st = .rekeying) := by
  have hexec : execLinkSilence10ms i s = noted s (.next (retrain s i x)) := by
    rw [execLinkSilence10ms, hx]
    exact congrArg (fun u => noted s (.next u)) (if_pos hst)
  obtain ⟨hcores, -, y, hlink, hreplay, hrx, -, -, hdirect, hrouted⟩ := retrain_spec s i x
  generalize retrain s i x = s1 at *
  obtain ⟨t, ht, q, b, p, l, rfl⟩ := noted_signalled hexec
  refine ⟨_, y, ht, hlink, hreplay, hrx, hcores, fun hd => ?_, hrouted⟩
  obtain ⟨hst, hsent⟩ := hdirect hd
  exact ⟨hst, List.mem_append_left _ hsent⟩

theorem txcntWrapHandshake_sends (hst : x.st = .up) : exec (.txcntWrapHandshake i) s = .next (sendHandshake s i .rekeying) := by
  have hexec : exec (.txcntWrapHandshake i) s = execTxcntWrapHandshake i s := rfl
  rw [hexec, execTxcntWrapHandshake, hx]
  exact congrArg Host.Outcome.next (if_pos hst)

end

/-- A link that comes up sends its replay buffer again, then what waits. -/
def resumed (s : State) (i : LinkId) (x : Link) : State := pumpAll (resend (s.setLink i x) i) i

theorem resumed_spec (s : State) (i : LinkId) (x : Link) :
    (resumed s i x).cores = s.cores ∧ (∃ y, (resumed s i x).link i = some y ∧ y.lasting = x.lasting)
      ∧ (isRouted i = false → ∀ f ∈ x.replay,
        (∃ y : Link, .nzFrame i (y.header f.1 f.2.vc ftData f.2.len) (nzNonce (!y.low) y.txcnt) none ∈ (resumed s i x).out)
          ∧ ∀ m ∈ f.2.msg, m ∈ (resumed s i x).out) := by
  obtain ⟨hlink, hcores, -, hout⟩ := resendFrames_spec x.replay (link_setLink_self s i x)
  rw [← resend_eq (link_setLink_self s i x)] at hlink hcores hout
  obtain ⟨hcores', hgrows, hlasting⟩ := pumpAll_sends (resend (s.setLink i x) i) i
  obtain ⟨y, hy, hlast⟩ := hlasting _ hlink
  refine ⟨hcores'.trans (hcores.trans (setLink_cores ..)), ⟨y, hy, hlast.trans (iterate_spent ..).1⟩, fun hd f hf => ?_⟩
  have hmem (e : Emit) (he : e ∈ resent i x x.replay) : e ∈ (resumed s i x).out :=
    hgrows.mem (by rw [hout hd]; exact List.mem_append_right _ he)
  obtain ⟨⟨y, hy⟩, hm⟩ := mem_resent (i := i) hf x
  exact ⟨⟨y, hmem _ hy⟩, fun m h => hmem _ (hm m h)⟩

/-- The SEQ of a header lies in its low 16 bits. -/
theorem header_seq (y : Link) (seq : BitVec 16) (vc ft len : Nat) : BitVec.ofNat 16 (y.header seq vc ft len).toNat = seq := by
  apply BitVec.eq_of_toNat_eq
  rw [Link.header, nzBits, BitVec.toNat_ofNat, BitVec.toNat_ofNat]
  have := seq.isLt
  omega

section
variable {s : State} {i : LinkId} {x : Link} (hx : s.link i = some x)
include hx

theorem retrainEnd_resumes (hst : x.st = .retraining) : ∃ t y, exec (.retrainEnd i) s = .next t ∧ t.link i = some y ∧ y.st = .up
    ∧ y.rxSeq = x.rxSeq ∧ t.cores = s.cores
    ∧ (isRouted i = false → ∀ f ∈ x.replay, (∃ hd no, .nzFrame i hd no none ∈ t.out ∧ BitVec.ofNat 16 hd.toNat = f.1)
      ∧ ∀ m ∈ f.2.msg, m ∈ t.out) := by
  have hexec : execRetrainEnd i s = noted s (.next (resumed s i { x with st := .up })) := by
    rw [execRetrainEnd, hx]
    exact congrArg (fun u => noted s (.next u)) (if_pos hst)
  obtain ⟨hcores, ⟨y, hy, hlast⟩, hout⟩ := resumed_spec s i { x with st := .up }
  have hup : y.st = .up := (congrArg Link.st hlast :)
  have hrx : y.rxSeq = x.rxSeq := (congrArg Link.rxSeq hlast :)
  generalize resumed s i { x with st := .up } = s1 at *
  obtain ⟨t, ht, q, b, p, l, rfl⟩ := noted_signalled hexec
  refine ⟨_, y, ht, hy, hup, hrx, hcores, fun hd f hf => ?_⟩
  obtain ⟨⟨z, hz⟩, hm⟩ := hout hd f hf
  exact ⟨⟨_, _, List.mem_append_left _ hz, header_seq ..⟩, fun m h => List.mem_append_left _ (hm m h)⟩

theorem linkDown_discards (hst : x.st = .retraining ∨ x.st = .rekeying) : ∃ t y, exec (.linkDown i) s = .next t ∧ t.link i = some y
    ∧ y.st = .down ∧ y.replay = [] ∧ t.cores = s.cores := by
  have hexec : execLinkDown i s = noted s (.next (linkEvent (s.setLink i { Link.init with peerNode := x.peerNode, peerSlot := x.peerSlot })
      i .linkDown x)) := by
    rw [execLinkDown, hx]
    exact congrArg (fun u => noted s (.next u)) (if_pos hst)
  obtain ⟨t, ht, q, b, p, l, rfl⟩ := noted_signalled hexec
  exact ⟨_, _, ht, link_setLink_self s i { Link.init with peerNode := x.peerNode, peerSlot := x.peerSlot }, rfl, rfl, setLink_cores ..⟩

/-! #### Handshakes received (R343, R344) -/

/-- The link that a verified handshake brings up at revision `r`. -/
def broughtUp (x : Link) (h : Handshake) (r : Nat) : Link :=
  { x with st := .up, rev := r, peerNode := h.node, peerSlot := h.slot, peerArith := h.arithRev, txcnt := 0,
           keys := linkKeys x.secret { payload := x.mine, reportOk := true } h, low := firstSide { payload := x.mine, reportOk := true } h }

variable {c : ConfigRec} (hc : s.config = some c) (hst : x.st = .handshaking ∨ x.st = .rekeying) {h : Handshake}
include hc hst

/-- A handshake that a link waits for. -/
theorem execHandshake_awaited : execHandshake i h s = noted s (.next (
    if h.sound = false ∨ h.reportOk = false then failLink s i x h .linkAuth false
    else if wiringOk s i h = false then failLink s i x h .linkWiring false
    else match linkRev c h with
      | none => failLink s i x h .linkRevMismatch true
      | some r => resumed s i (broughtUp x h r))) := by
  have hnot : ¬(x.st ≠ .handshaking ∧ x.st ≠ .up ∧ x.st ≠ .rekeying) := by
    rcases hst with h | h <;> simp [h]
  have hup : x.st ≠ .up := by
    rcases hst with h | h <;> simp [h]
  unfold execHandshake
  rw [hc]
  simp only [hx, Option.isNone_some, Bool.false_and, Option.getD_some, if_neg hnot, decide_eq_false hup, Bool.or_self,
    Bool.false_eq_true, if_false]
  rfl

theorem handshake_up (hsound : h.sound = true) (hrep : h.reportOk = true) (hwire : wiringOk s i h = true) {r : Nat} (hr : linkRev c h = some r) :
    ∃ t y, exec (.handshake i h) s = .next t ∧ t.link i = some y ∧ y.st = .up ∧ y.rev = r
      ∧ y.peerNode = h.node ∧ y.peerSlot = h.slot ∧ y.peerArith = h.arithRev ∧ y.rxSeq = x.rxSeq ∧ t.cores = s.cores
      ∧ y.keys = linkKeys x.secret { payload := x.mine, reportOk := true } h := by
  have hexec := execHandshake_awaited hx hc hst (h := h)
  rw [if_neg (by simp [hsound, hrep]), if_neg (by simp [hwire]), hr] at hexec
  dsimp only at hexec
  obtain ⟨hcores, ⟨y, hy, hlast⟩, -⟩ := resumed_spec s i (broughtUp x h r)
  generalize resumed s i (broughtUp x h r) = s1 at *
  obtain ⟨t, ht, q, b, p, l, rfl⟩ := noted_signalled hexec
  exact ⟨_, y, ht, hy, congrArg Link.st hlast, congrArg Link.rev hlast, congrArg Link.peerNode hlast, congrArg Link.peerSlot hlast,
    congrArg Link.peerArith hlast, (congrArg Link.rxSeq hlast :), hcores, congrArg Link.keys hlast⟩

omit hx hc hst in
theorem failLink_link (s : State) (i : LinkId) (x : Link) (h : Handshake) (e : Code) (hold : Bool) :
    ∃ y, (failLink s i x h e hold).link i = some y ∧ y.st = .down ∧ y.heldDown = hold :=
  ⟨_, link_setLink_self .., rfl, rfl⟩

omit hx hc hst in
/-- What a link that cannot come up is after the command. -/
theorem failLink_noted {e : Code} {hold : Bool} (hexec : execHandshake i h s = noted s (.next (failLink s i x h e hold))) :
    ∃ t y, exec (.handshake i h) s = .next t ∧ t.link i = some y ∧ y.st = .down ∧ y.heldDown = hold := by
  obtain ⟨y, hy, hdown, hheld⟩ := failLink_link s i x h e hold
  generalize failLink s i x h e hold = s1 at *
  obtain ⟨t, ht, q, b, p, l, rfl⟩ := noted_signalled hexec
  exact ⟨_, y, ht, hy, hdown, hheld⟩

theorem handshake_mismatch (hsound : h.sound = true) (hrep : h.reportOk = true) (hwire : wiringOk s i h = true) (hr : linkRev c h = none) :
    ∃ t y, exec (.handshake i h) s = .next t ∧ t.link i = some y ∧ y.st = .down ∧ y.heldDown = true := by
  have hexec := execHandshake_awaited hx hc hst (h := h)
  rw [if_neg (by simp [hsound, hrep]), if_neg (by simp [hwire]), hr] at hexec
  dsimp only at hexec
  exact failLink_noted hexec

theorem handshake_unverified (hbad : h.sound = false ∨ h.reportOk = false ∨ wiringOk s i h = false) :
    ∃ t y, exec (.handshake i h) s = .next t ∧ t.link i = some y ∧ y.st = .down ∧ y.heldDown = false := by
  have hexec := execHandshake_awaited hx hc hst (h := h)
  by_cases hauth : h.sound = false ∨ h.reportOk = false
  · rw [if_pos hauth] at hexec
    exact failLink_noted hexec
  · rw [if_neg hauth, if_pos (by tauto)] at hexec
    exact failLink_noted hexec

end

/-! #### A link's reset (R435) -/

theorem nzLinkReset_resets (s : State) (l : Fin 8) : ∃ t, exec (.nzLinkReset l) s = .next t
    ∧ t.links.get l = { Link.init with st := if s.portsOpen (pdOf l) = true then .training else .down }
    ∧ (∀ m, m ≠ l → t.links.get m = s.links.get m) ∧ t.routed = s.routed ∧ t.cores = s.cores := by
  have hexec : execNzLinkReset l s = noted s (.next (resetLink s l)) := rfl
  have hself : (resetLink s l).links.get l = { Link.init with st := if s.portsOpen (pdOf l) = true then .training else .down } :=
    Vector.getElem_set_self _
  have hother (m : Fin 8) (hm : m ≠ l) : (resetLink s l).links.get m = s.links.get m :=
    Vector.getElem_set_ne l.isLt m.isLt fun h => hm (Fin.ext h.symm)
  have hrouted : (resetLink s l).routed = s.routed := rfl
  have hcores : (resetLink s l).cores = s.cores := rfl
  generalize resetLink s l = s1 at *
  obtain ⟨t, ht, q, b, p, e, rfl⟩ := noted_signalled hexec
  exact ⟨_, ht, hself, hother, hrouted, hcores⟩

theorem setLink_config (s : State) (i : LinkId) (x : Link) : (s.setLink i x).config = s.config := by cases i <;> rfl

/-- Settles O51: each command of the link's life is a lemma above. -/
theorem linksComeUpRetrainAndGoDown : Obligations.LinksComeUpRetrainAndGoDown := by
  intro s i x hx
  refine ⟨fun hst hc => ?_, fun c hst hc => ?_, linkBringupTimeout_downs hx, fun _ hheld => linkRetry_held hx hheld, fun hst hheld hopen => ?_,
    fun hst => ⟨linkSilence1ms_acks hx hst, nzOut_link .., linkSilence10ms_retrains hx hst, fun c hc => ?_⟩, retrainEnd_resumes hx,
    linkDown_discards hx,
    fun c h hc hst => ⟨fun hsound hrep hwire => ⟨fun r hr => handshake_up hx hc hst hsound hrep hwire hr,
      fun hr => handshake_mismatch hx hc hst hsound hrep hwire hr⟩, handshake_unverified hx hc hst⟩, nzLinkReset_resets s⟩
  · exact (laneTrainingEnd_sends hx hst).trans (congrArg Host.Outcome.next (sendHandshake_none hc ..))
  · obtain ⟨y, hy, hst', hreplay, -, -, hshaken, hcores⟩ := sendHandshake_shaken hx hc .handshaking
    exact ⟨_, y, laneTrainingEnd_sends hx hst, hy, hst', hreplay, hshaken, hcores⟩
  · have htries := linkRetry_tries hx hst hheld hopen
    refine ⟨fun hd => ?_, fun c hr hc => ?_⟩
    · rw [hd] at htries
      exact htries
    · rw [hr] at htries
      obtain ⟨y, hy, hst', hreplay, -, -, ⟨hsec, hdrawn, hrseq, hmine, hout⟩, hcores⟩ := sendHandshake_shaken
        (link_setLink_self s i Link.init) ((setLink_config ..).trans hc) .handshaking
      have hpay : shakePayload (s.setLink i Link.init) i c = shakePayload s i c := by cases i <;> rfl
      have hdrawn' : (s.setLink i Link.init).drawn = s.drawn := by cases i <;> rfl
      have hrseq' : (s.setLink i Link.init).lode = s.lode := by cases i <;> rfl
      rw [hdrawn'] at hsec hdrawn
      rw [hrseq'] at hrseq
      exact ⟨_, y, htries, hy, hst', hreplay, ⟨hsec, hdrawn, hrseq, hmine.trans hpay, hout⟩, hcores.trans (setLink_cores ..)⟩
  · obtain ⟨y, hy, hst', hreplay, hrx, htx, hshaken, hcores⟩ := sendHandshake_shaken hx hc .rekeying
    exact ⟨_, y, txcntWrapHandshake_sends hx hst, hy, hst', hreplay, hrx, htx, hshaken, hcores⟩

end Sys2Proof.Machine

/-! ### Ethernet ports (R367, R383, R435) -/

namespace Sys2Proof.Machine

section
variable (s : State) (p : Fin 8) (x : EthPort)

@[simp] theorem ports_setPort_self : (s.setPort p x).ports.get p = x := Vector.getElem_set_self _

theorem ports_setPort_ne {q : Fin 8} (h : q ≠ p) : (s.setPort p x).ports.get q = s.ports.get q :=
  Vector.getElem_set_ne p.isLt q.isLt fun hq => h (Fin.ext hq.symm)

end

/-! #### Reset and training (R435) -/

/-- Port `p` has been reset: it trains if ports may be used and keeps its addresses, and no other port has changed. -/
def PortReset (s : State) (p : Fin 8) (t : State) : Prop :=
  t.ethUp p = false ∧ (t.ports.get p).training = s.portsOpen (pdOf p) ∧ (t.ports.get p).addr = (s.ports.get p).addr
    ∧ (t.ports.get p).txq = [] ∧ (∀ q, q ≠ p → t.ports.get q = s.ports.get q) ∧ t.pds = s.pds ∧ t.reg = s.reg ∧ t.links = s.links
    ∧ t.cores = s.cores

theorem resetEth_spec (s : State) (p : Fin 8) : PortReset s p (resetEth s p) := by
  have hself := ports_setPort_self s p
    { s.ports.get p with up := false, training := s.portsOpen (pdOf p), paused := 0, pausedAll := false, txq := [] }
  exact ⟨congrArg EthPort.up hself, congrArg EthPort.training hself, (congrArg EthPort.addr hself :), congrArg EthPort.txq hself,
    fun q hq => ports_setPort_ne s p _ hq, rfl, rfl, rfl, rfl⟩

/-- A port reset that the host is told of. -/
theorem portReset_noted {s s' : State} {p : Fin 8} {i : Instr} (h : exec i s = noted s (.next s')) (hreset : PortReset s p s') :
    ∃ t, exec i s = .next t ∧ PortReset s p t := by
  obtain ⟨t, ht, q, b, e, l, rfl⟩ := noted_signalled h
  exact ⟨_, ht, hreset⟩

theorem ethTrainingEnd_trains {s : State} {p : Fin 8} (ht : (s.ports.get p).training = true) (ho : s.portsOpen (pdOf p) = true) :
    ∃ t, exec (.ethTrainingEnd p) s = .next t ∧ t.ports.get p = { s.ports.get p with up := true, training := false }
      ∧ (∀ q, q ≠ p → t.ports.get q = s.ports.get q) ∧ t.pds = s.pds ∧ t.cores = s.cores := by
  have hexec : execEthTrainingEnd p s = noted s (.next (s.setPort p { s.ports.get p with up := true, training := false })) :=
    congrArg (fun u => noted s (.next u)) (if_pos (by rw [ht, ho]; rfl))
  obtain ⟨t, ht, q, b, e, l, rfl⟩ := noted_signalled hexec
  exact ⟨_, ht, ports_setPort_self s p _, fun q hq => ports_setPort_ne s p _ hq, rfl, rfl⟩

theorem ethTrainingEnd_idle {s : State} {p : Fin 8} (ht : (s.ports.get p).training = false) : exec (.ethTrainingEnd p) s = .next s := by
  have hexec : execEthTrainingEnd p s = noted s (.next s) := congrArg (fun u => noted s (.next u)) (if_neg (by rw [ht]; simp))
  exact noted_same hexec

/-! #### Frames and pauses (R367, R383) -/

section
variable {s : State} {p : Fin 8} {f : EthFrame}

theorem frameCheck_fcs {a : PortAddr} (h : f.fcsOk = false) : frameCheck a p f = some (portCtr p.val 8) := if_pos (.inl h)

theorem ethFrameRx_up (hup : (s.ports.get p).up = true) : exec (.ethFrameRx p f) s
    = .next (match frameCheck (s.ports.get p).addr p f with
      | none => if f.fcsOk then s.bump (portCtr p.val 0) 1 else s
      | some o => (if f.fcsOk then s.bump (portCtr p.val 0) 1 else s).bump o 1) :=
  congrArg Host.Outcome.next (if_neg (by rw [State.ethUp, hup]; decide))

/-- A frame that passes the checks has a good FCS. -/
theorem fcsOk_of_frameCheck_none {a : PortAddr} (h : frameCheck a p f = none) : f.fcsOk = true := by
  cases hf : f.fcsOk with
  | true => rfl
  | false => rw [frameCheck_fcs hf] at h; cases h

end

/-! #### The ends of pauses (R367) -/

theorem flushPort_spec (s : State) (p : Fin 8) :
    (∀ q, q ≠ p → (flushPort s p).ports.get q = s.ports.get q) ∧ (flushPort s p).cores = s.cores
      ∧ ((flushPort s p).ports.get p).paused = (s.ports.get p).paused ∧ ((flushPort s p).ports.get p).pausedAll = (s.ports.get p).pausedAll
      ∧ ((s.ports.get p).held = false → ((flushPort s p).ports.get p).txq = [] ∧ (flushPort s p).out = s.out ++ (s.ports.get p).txq) := by
  cases hheld : (s.ports.get p).held with
  | true =>
    have heq : flushPort s p = s := if_pos hheld
    rw [heq]
    exact ⟨fun _ _ => rfl, rfl, rfl, rfl, nofun⟩
  | false =>
    have heq : flushPort s p = (s.setPort p { s.ports.get p with txq := [] }).emits (s.ports.get p).txq := if_neg (by rw [hheld]; decide)
    have hself := ports_setPort_self s p { s.ports.get p with txq := [] }
    rw [heq]
    exact ⟨fun q hq => ports_setPort_ne s p _ hq, rfl, (congrArg EthPort.paused hself :), (congrArg EthPort.pausedAll hself :),
      fun _ => ⟨congrArg EthPort.txq hself, rfl⟩⟩

/-- The port once the pause of some priorities has ended. -/
def unpaused (x : EthPort) (prios : BitVec 8) : EthPort :=
  { x with paused := x.paused &&& ~~~prios, pausedAll := x.pausedAll && decide (prios ≠ BitVec.allOnes 8) }

theorem unpaused_prios (x : EthPort) (prios : BitVec 8) : (unpaused x prios).paused &&& prios = 0 := by
  rw [unpaused, BitVec.and_assoc, BitVec.and_comm (~~~prios), BitVec.and_not_self]
  simp

theorem unpaused_all (x : EthPort) : (unpaused x (BitVec.allOnes 8)).pausedAll = false ∧ (unpaused x (BitVec.allOnes 8)).held = false := by
  simp [unpaused, EthPort.held]

theorem pauseTimeExpiry_flushes (s : State) (p : Fin 8) (prios : BitVec 8) : ∃ t, exec (.pauseTimeExpiry p prios) s = .next t
    ∧ (t.ports.get p).paused &&& prios = 0
    ∧ (prios = BitVec.allOnes 8 → (t.ports.get p).pausedAll = false ∧ (t.ports.get p).txq = [] ∧ t.out = s.out ++ (s.ports.get p).txq)
    ∧ (∀ q, q ≠ p → t.ports.get q = s.ports.get q) ∧ t.cores = s.cores := by
  have hexec : exec (.pauseTimeExpiry p prios) s = .next (flushPort (s.setPort p (unpaused (s.ports.get p) prios)) p) := rfl
  have hself := ports_setPort_self s p (unpaused (s.ports.get p) prios)
  have hother (q : Fin 8) (hq : q ≠ p) := ports_setPort_ne s p (unpaused (s.ports.get p) prios) hq
  obtain ⟨hne, hcores, hpaused, hall, hflush⟩ := flushPort_spec (s.setPort p (unpaused (s.ports.get p) prios)) p
  rw [hself] at hpaused hall hflush
  refine ⟨_, hexec, hpaused ▸ unpaused_prios .., fun h => ?_, fun q hq => (hne q hq).trans (hother q hq), hcores⟩
  subst h
  obtain ⟨hpall, hheld⟩ := unpaused_all (s.ports.get p)
  obtain ⟨htxq, hout⟩ := hflush hheld
  exact ⟨hall.trans hpall, htxq, hout⟩

theorem ownV4_iff {a : PortAddr} {d : BitVec 32} : ownV4 a d = true ↔ a.ipv4 ≠ 0 ∧ d = a.ipv4 := decide_eq_true_iff

theorem ownV6_iff {a : PortAddr} {d : BitVec 128} : ownV6 a d = true ↔ d = a.ipv6 ∨ d = linkLocal a := decide_eq_true_iff

/-- Settles O47: each command by its conditions; a reset and a pause's end by what they leave of the port. -/
theorem ethernetPortsAnswerWhatIsTheirs : Obligations.EthernetPortsAnswerWhatIsTheirs := by
  intro s p
  refine ⟨portReset_noted rfl (resetEth_spec s p), fun hup => ?_, fun hup => ?_, fun ht ho => ethTrainingEnd_trains ht ho,
    ethTrainingEnd_idle, fun f => ⟨fun hup => ?_, fun hup hf => ?_, fun hup hf => ?_, fun o hup hf ho => ?_⟩,
    fun e => ⟨fun hup => ?_, fun hup hall hp => ?_, fun hup hall => ?_⟩, fun target mac ip => ?_, fun dst src pl => ⟨?_, ?_⟩,
    fun target src => ?_, fun prios hup => ⟨?_, ?_⟩, pauseTimeExpiry_flushes s p, fun hup pfc prios => ?_, fun mac hup => ?_, fun ip mac hup => ?_⟩
  · have hexec : execEthSignalLoss p s = noted s (.next (resetEth s p)) := congrArg (fun u => noted s (.next u)) (if_pos hup)
    exact portReset_noted hexec (resetEth_spec s p)
  · have hexec : execEthSignalLoss p s = noted s (.next s) := congrArg (fun u => noted s (.next u)) (if_neg (Bool.eq_false_iff.1 hup))
    exact noted_same hexec
  · exact congrArg Host.Outcome.next (if_pos hup)
  · rw [ethFrameRx_up hup, hf, fcsOk_of_frameCheck_none hf]
    rfl
  · rw [ethFrameRx_up hup, frameCheck_fcs hf, hf]
    rfl
  · rw [ethFrameRx_up hup, ho, hf]
    rfl
  · exact if_pos hup
  · have hheld : (s.ports.get p).held = false := by simp [EthPort.held, hall, hp]
    exact (if_neg (by rw [hup]; decide)).trans (if_neg (by rw [hheld]; decide))
  · exact (if_neg (by rw [hup]; decide)).trans (if_pos (by rw [EthPort.held, hall]; rfl))
  · exact congrArg Host.Outcome.next (if_congr (Bool.and_eq_true_iff.trans (and_congr_right' ownV4_iff)) rfl rfl)
  · exact congrArg Host.Outcome.next (if_congr (Bool.and_eq_true_iff.trans (and_congr_right' ownV6_iff)) rfl rfl)
  · exact congrArg Host.Outcome.next (if_congr (Bool.and_eq_true_iff.trans (and_congr_right' ownV4_iff)) rfl rfl)
  · exact congrArg Host.Outcome.next (if_congr (Bool.and_eq_true_iff.trans (and_congr_right' ownV6_iff)) rfl rfl)
  · exact congrArg Host.Outcome.next ((if_neg (by rw [State.ethUp, hup]; decide)).trans (if_pos rfl))
  · exact congrArg Host.Outcome.next ((if_neg (by rw [State.ethUp, hup]; decide)).trans (if_neg (by decide)))
  · exact congrArg Host.Outcome.next (if_pos hup)
  · exact congrArg Host.Outcome.next (if_pos (by simp [State.ethUp, hup]))
  · exact congrArg Host.Outcome.next (if_pos hup)

end Sys2Proof.Machine

/-! ### What a group's round stores and sends (R345 to R363) -/

namespace Sys2Proof.Machine

/-! #### Stores of a group -/

@[simp] theorem grpPut_unstored (s : State) (pi seg o : Nat) (b : List Byte) : (grpPut s pi seg o b).unstored = s.unstored := by
  rw [grpPut]
  split
  · rfl
  split
  · exact segPuts_unstored ..
  · rfl

@[simp] theorem writeGroups_unstored (s : State) (c : GroupRec) (seg vals exps : Nat) (l : List Grp) :
    (writeGroups s c seg vals exps l).unstored = s.unstored := by
  rw [writeGroups, grpPut_unstored, grpPut_unstored]

@[simp] theorem writeReplica_unstored (s : State) (g : Group) (blk : Nat) (l : List Grp) : (writeReplica s g blk l).unstored = s.unstored :=
  writeGroups_unstored ..

@[simp] theorem writePub_unstored (s : State) (g : Group) (blk bank : Nat) (l : List Grp) : (writePub s g blk bank l).unstored = s.unstored :=
  writeGroups_unstored ..

@[simp] theorem writeState_unstored (s : State) (g : Group) (o : Nat) (l : List Int) : (writeState s g o l).unstored = s.unstored :=
  grpPut_unstored ..

@[simp] theorem storeBank_unstored (s : State) (g : Group) (blk bank : Nat) (w v : List Int) (l : List Grp) :
    (storeBank s g blk bank w v l).unstored = s.unstored := by
  rw [storeBank, writePub_unstored, writeState_unstored, writeState_unstored]

@[simp] theorem keepBlock_unstored (s : State) (g : Group) (blk : Nat) : (keepBlock s g blk).unstored = s.unstored := storeBank_unstored ..

@[simp] theorem initBlock_unstored (g : Group) (s : State) (blk : Nat) : (initBlock g s blk).unstored = s.unstored := by
  unfold initBlock
  dsimp only
  split
  · rw [storeBank_unstored, storeBank_unstored]
  · rfl

/-- A counter that is registered without claims stores its record. -/
theorem ctrInit_unstored {s t : State} {pi : Nat} {p : Option Pattern} {a next limit cmap : Nat} {notify : Option (Nat × Nat)}
    (h : ctrInit s pi p a next limit cmap false notify = .ok t) : t.unstored = s.unstored := by
  unfold ctrInit at h
  rw [if_neg (by simp)] at h
  split at h
  · cases h
  · cases h
  · dsimp only at h
    split at h
    · cases h
    · injection h with h
      subst h
      exact (recPut_unstored ..)

@[simp] theorem initBells_unstored (s : State) (gid : Nat) (g : Group) : (initBells s gid g).unstored = s.unstored := by
  rw [initBells]
  refine foldl_field State.unstored _ (fun s i => ?_) _ s
  split
  · rfl
  split
  next h => exact ctrInit_unstored h
  · rfl

@[simp] theorem writeStatus_unstored (s : State) (g : Group) : (writeStatus s g).unstored = s.unstored := grpPut_unstored ..

@[simp] theorem newRound_unstored (s : State) (gid : Nat) (g : Group) : (newRound s gid g).1.unstored = s.unstored := by
  rw [newRound, writeStatus_unstored, initBells_unstored]

/-! #### Messages of a group -/

@[simp] theorem makeRouted_inside (s : State) (i : LinkId) : (makeRouted s i).inside = s.inside := by
  rw [makeRouted]
  split
  · rw [sendHandshake_inside, setLink_inside]
  · rfl

@[simp] theorem sendModule_inside (s : State) (gid node slot n : Nat) (e : Emit) : (sendModule s gid node slot n e).inside = s.inside := by
  rw [sendModule]
  split
  · rfl
  split
  · rfl
  · rw [sendBytes_inside, makeRouted_inside]

theorem makeRouted_grows (s : State) (i : LinkId) : Grows s (makeRouted s i) := by
  rw [makeRouted]
  split
  · exact (setLink_grows ..).trans (sendHandshake_grows ..)
  · exact .refl s

theorem sendModule_grows (s : State) (gid node slot n : Nat) (e : Emit) : Grows s (sendModule s gid node slot n e) := by
  rw [sendModule]
  split
  · exact emit_grows ..
  split
  · exact .refl s
  · exact (makeRouted_grows ..).trans (sendBytes_grows ..)

/-! #### What changes neither the cores nor the groups -/

/-- `t` is `s` with memory, links and the outside changed; what was sent stays. -/
def Rounds (s t : State) : Prop := t.cores = s.cores ∧ t.groups = s.groups ∧ t.helm = s.helm ∧ t.chart = s.chart ∧ Grows s t

theorem Rounds.refl (s : State) : Rounds s s := ⟨rfl, rfl, rfl, rfl, .refl s⟩

theorem Rounds.trans {s t u : State} (h : Rounds s t) (h' : Rounds t u) : Rounds s u := by
  obtain ⟨hcores, hgroups, hhelm, hchart, hgrows⟩ := h
  obtain ⟨hcores', hgroups', hhelm', hchart', hgrows'⟩ := h'
  exact ⟨hcores'.trans hcores, hgroups'.trans hgroups, hhelm'.trans hhelm, hchart'.trans hchart, hgrows.trans hgrows'⟩

theorem Rounds.group {s t : State} (h : Rounds s t) (n : Nat) : t.group n = s.group n := by
  obtain ⟨-, hgroups, -, -, -⟩ := h
  rw [State.group, State.group, hgroups]

theorem Rounds.of_inside {s t : State} (h : t.inside = s.inside) (hgrows : Grows s t) : Rounds s t :=
  ⟨inside_cores h, inside_groups h, inside_helm h, (congrArg State.chart h :), hgrows⟩

theorem Rounds.of_unstored {s t : State} (h : t.unstored = s.unstored) : Rounds s t :=
  ⟨unstored_cores h, (congrArg State.groups h :), unstored_helm h, (congrArg State.chart h :), .of_out (unstored_out h)⟩

theorem foldl_rounds {α : Type} {f : State → α → State} (h : ∀ s a, Rounds s (f s a)) (l : List α) (s : State) : Rounds s (l.foldl f s) := by
  induction l generalizing s with
  | nil => exact .refl s
  | cons a l ih => exact (h s a).trans (ih _)

theorem sendModule_rounds (s : State) (gid node slot n : Nat) (e : Emit) : Rounds s (sendModule s gid node slot n e) :=
  .of_inside (sendModule_inside ..) (sendModule_grows ..)

theorem sendMember_rounds (s : State) (gid : Nat) (g : Group) (r n : Nat) (e : Emit) : Rounds s (sendMember s gid g r n e) :=
  sendModule_rounds ..

theorem sendRoster_rounds (s : State) (gid : Nat) (c : GroupRec) (i n : Nat) (e : Emit) : Rounds s (sendRoster s gid c i n e) := by
  rw [sendRoster]
  split
  · exact .refl s
  · exact sendModule_rounds ..

theorem collCtr_rounds (s : State) (gid o n : Nat) : Rounds s (collCtr s gid o n) := .of_inside rfl (.of_out rfl)

theorem collCtr32_rounds (s : State) (gid o n : Nat) : Rounds s (collCtr32 s gid o n) := by
  rw [collCtr32]
  split
  · exact .refl s
  · exact .of_inside rfl (.of_out rfl)

theorem event_rounds (s : State) (b : Nat) (c : Code) (d : Nat) : Rounds s (s.event b c d) := .of_inside rfl (.of_out rfl)

theorem groupEvent_rounds (s : State) (gid : Nat) (g : Group) (c : Code) (r : Nat) : Rounds s (groupEvent s gid g c r) := event_rounds ..

theorem sendChunk_rounds (s : State) (gid : Nat) (g : Group) (r w x : Nat) (c : Chunk) (e : Emit) : Rounds s (sendChunk s gid g r w x c e) :=
  (collCtr_rounds ..).trans (sendMember_rounds ..)

theorem optimise_rounds (s : State) (gid : Nat) (g : Group) (blk : Nat) (t : Sum) : Rounds s (optimise s gid g blk t) := by
  unfold optimise
  refine Rounds.trans ?_ (collCtr32_rounds ..)
  refine Rounds.trans (t := { s with drawn := _ }) ?_ (.of_unstored (storeBank_unstored ..))
  exact ⟨rfl, rfl, rfl, rfl, .of_out rfl⟩

/-- A message to this module itself goes out at once. -/
theorem sendModule_self {s : State} {gid node slot n : Nat} (hn : node = s.node) (hs : slot = s.slotNo) (e : Emit) :
    e ∈ (sendModule s gid node slot n e).out := by
  rw [sendModule, if_pos ⟨hn, hs⟩]
  exact List.mem_append_right _ (List.mem_singleton.2 rfl)

end Sys2Proof.Machine

/-! ### Groups form, and go (R346 to R350) -/

namespace Sys2Proof.Machine

section
variable {s : State} {gid : Fin 16} {g : Group} (hg : s.group gid.val = some g)
include hg

/-! #### Joining (R349) -/

theorem join_notes {rank : Nat} {hash : BitVec 384} {rev : Nat} (hphase : g.phase = .joining) (hlead : rosterIndex s g.cfg = some 0)
    (hnew : ∀ j ∈ g.joins, j.1 ≠ rank) (hrank : rank < g.cfg.roster.length) : exec (.join gid rank hash rev) s
      = .next (s.setGroup gid.val (some { g with joins := g.joins ++ [(rank, decide (hash = g.hash), decide (rev = s.arith))] })) := by
  have hexec : exec (.join gid rank hash rev) s = execJoin gid rank hash rev s := rfl
  have hfirst : g.joins.any (fun j => decide (j.1 = rank)) = false := by simpa using hnew
  rw [hexec, execJoin, hg]
  exact congrArg Host.Outcome.next (if_neg (by simp [hphase, hlead, hfirst, hrank]))

/-- The ranks that the leader admits: those that joined and agree. -/
def admitted (g : Group) : List Nat :=
  (List.range g.cfg.roster.length).filter (fun i => g.joins.any (fun j => decide (j.1 = i) && j.2.1 && j.2.2))

omit hg in
theorem mem_admitted {i : Nat} : i ∈ admitted g ↔ i < g.cfg.roster.length ∧ ∃ j ∈ g.joins, j.1 = i ∧ j.2.1 = true ∧ j.2.2 = true := by
  simp [admitted, and_assoc]

/-- FORMED sent to the members of the roster, in its order. -/
def sendFormed (s : State) (gid : Nat) (g : Group) (ranks : List Nat) (l : List Nat) : State :=
  l.foldl (fun s i => sendRoster s gid g.cfg i (ctlBytes + 2 * ranks.length) (.formed gid i ranks)) s

omit hg in
theorem sendFormed_rounds (ranks l : List Nat) : Rounds s (sendFormed s gid.val g ranks l) :=
  foldl_rounds (fun _ _ => sendRoster_rounds ..) l s

omit hg in
/-- The leader takes its own FORMED at once. -/
theorem sendFormed_leader (hlead : rosterIndex s g.cfg = some 0) (ranks : List Nat) :
    .formed gid.val 0 ranks ∈ (sendFormed s gid.val g ranks (List.range g.cfg.roster.length)).out := by
  have hfind := List.find?_some hlead
  cases hroster : g.cfg.roster with
  | nil => rw [hroster] at hfind; simp at hfind
  | cons e l =>
    rw [hroster] at hfind
    simp only [List.getElem?_cons_zero, decide_eq_true_eq] at hfind
    obtain ⟨hnode, hslot⟩ := hfind
    rw [List.length_cons, List.range_succ_eq_map, sendFormed, List.foldl_cons]
    refine (foldl_rounds (fun _ _ => sendRoster_rounds ..) _ _).2.2.2.2.mem ?_
    rw [sendRoster, hroster]
    exact sendModule_self hnode hslot _

theorem joinWindowEnd_forms (hphase : g.phase = .joining) (hlead : rosterIndex s g.cfg = some 0) :
    exec (.joinWindowEnd gid) s = .next (sendFormed s gid.val g (admitted g) (List.range g.cfg.roster.length)) := by
  have hexec : exec (.joinWindowEnd gid) s = execJoinWindowEnd gid s := rfl
  rw [hexec, execJoinWindowEnd, hg]
  exact congrArg Host.Outcome.next (if_neg (by simp [hphase, hlead]))

/-! #### FORMED (R349, R350) -/

omit hg in
/-- The rank of a member in a list of members. -/
theorem rankIn_none {ranks : List Nat} {i : Nat} (h : i ∉ ranks) :
    (List.range ranks.length).find? (fun r => decide (ranks[r]? = some i)) = none := by
  rw [List.find?_eq_none]
  intro r _ hr
  exact h (List.mem_of_getElem? (of_decide_eq_true hr))

omit hg in
theorem rankIn_some {ranks : List Nat} {i : Nat} (h : i ∈ ranks) :
    ∃ r, (List.range ranks.length).find? (fun r => decide (ranks[r]? = some i)) = some r ∧ ranks[r]? = some i := by
  obtain ⟨r, hr, hi⟩ := List.mem_iff_getElem.1 h
  have hsome : ((List.range ranks.length).find? (fun r => decide (ranks[r]? = some i))).isSome = true := by
    rw [List.find?_isSome]
    exact ⟨r, List.mem_range.2 hr, decide_eq_true (by rw [List.getElem?_eq_getElem hr, hi])⟩
  obtain ⟨q, hq⟩ := Option.isSome_iff_exists.1 hsome
  have hrank := List.find?_some hq
  exact ⟨q, hq, of_decide_eq_true hrank⟩

/-- A member that FORMED does not list. -/
theorem formed_excludes {ranks : List Nat} {i : Nat} (hphase : g.phase = .joining) (hi : rosterIndex s g.cfg = some i) (hnot : i ∉ ranks) :
    ∃ t, exec (.formed gid ranks) s = .next t ∧ t.group gid.val = some { g with phase := .excluded } ∧ t.cores = s.cores ∧ t.mem = s.mem := by
  have hexec : exec (.formed gid ranks) s = execFormed gid ranks s := rfl
  have hnone : (rosterIndex s g.cfg).bind (fun i => (List.range ranks.length).find? (fun r => decide (ranks[r]? = some i))) = none := by
    rw [hi]
    exact rankIn_none hnot
  rw [hexec, execFormed, hg]
  simp only [if_neg (not_not.2 hphase), hnone]
  exact ⟨_, rfl, group_setGroup_self s gid.val (some { g with phase := .excluded }), rfl, rfl⟩

/-- The group of a member as it begins at step 0. -/
def formedAs (g : Group) (ranks : List Nat) (r : Nat) : Group :=
  { g with phase := .formed, members := ranks, rank := r, cstep := 0, casts := [], written := [], pulling := [] }

omit hg in
theorem newRound_group (s : State) (n : Nat) (g : Group) : (newRound s n g).2.phase = g.phase ∧ (newRound s n g).2.members = g.members
    ∧ (newRound s n g).2.rank = g.rank ∧ (newRound s n g).2.cstep = g.cstep := ⟨rfl, rfl, rfl, rfl⟩

omit hg in
theorem putGroup_group (n : Nat) (a : State × Group) : (putGroup n a).group n = some a.2 := group_setGroup_self ..

/-- A member that FORMED lists. -/
theorem formed_begins {ranks : List Nat} {i : Nat} (hphase : g.phase = .joining) (hi : rosterIndex s g.cfg = some i) (hin : i ∈ ranks) :
    ∃ t h, exec (.formed gid ranks) s = .next t ∧ t.group gid.val = some h ∧ h.phase = .formed ∧ h.members = ranks
      ∧ ranks[h.rank]? = some i ∧ h.cstep = 0 ∧ t.cores = s.cores := by
  obtain ⟨r, hfind, hr⟩ := rankIn_some hin
  have hsome : (rosterIndex s g.cfg).bind (fun i => (List.range ranks.length).find? (fun r => decide (ranks[r]? = some i))) = some r := by
    rw [hi]
    exact hfind
  have hexec : exec (.formed gid ranks) s = .next (putGroup gid.val
      (newRound ((formedAs g ranks r).owned.foldl (initBlock (formedAs g ranks r)) s) gid.val (formedAs g ranks r))) := by
    have hexec : exec (.formed gid ranks) s = execFormed gid ranks s := rfl
    rw [hexec, execFormed, hg]
    simp only [if_neg (not_not.2 hphase), hsome]
    rfl
  have hcores : (newRound ((formedAs g ranks r).owned.foldl (initBlock (formedAs g ranks r)) s) gid.val (formedAs g ranks r)).1.cores = s.cores :=
    (unstored_cores (newRound_unstored ..)).trans
      (unstored_cores (foldl_field State.unstored _ (fun s b => initBlock_unstored _ s b) _ s))
  obtain ⟨hph, hmem, hrank, hcstep⟩ := newRound_group ((formedAs g ranks r).owned.foldl (initBlock (formedAs g ranks r)) s) gid.val
    (formedAs g ranks r)
  generalize newRound _ gid.val (formedAs g ranks r) = a at *
  exact ⟨_, a.2, hexec, putGroup_group .., hph, hmem, by rw [hrank]; exact hr, hcstep, hcores⟩

/-! #### A group without a leader, and one that is gone (R349, R360) -/

theorem groupNoleader_logs (hphase : g.phase = .joining) : ∃ t, exec (.groupNoleader gid) s = .next t ∧ t.groups = s.groups
    ∧ t.cores = s.cores ∧ t.mem = s.mem := by
  have hexec : exec (.groupNoleader gid) s = execGroupNoleader gid s := rfl
  rw [hexec, execGroupNoleader, hg]
  simp only [if_neg (not_not.2 hphase)]
  exact ⟨_, rfl, rfl, rfl, rfl⟩

theorem groupNoleader_ignored (hphase : g.phase ≠ .joining) : exec (.groupNoleader gid) s = .next s := by
  have hexec : exec (.groupNoleader gid) s = execGroupNoleader gid s := rfl
  rw [hexec, execGroupNoleader, hg]
  exact congrArg Host.Outcome.next (if_pos hphase)

omit hg in
theorem releaseHold_groups (s : State) (n : Nat) (g : Group) : (releaseHold s n g).groups = s.groups ∧ (releaseHold s n g).cores = s.cores := by
  rw [releaseHold]
  split <;> exact ⟨rfl, rfl⟩

/-- Group `n` is gone, the others stay, and the cores. -/
def Dropped (s : State) (n : Nat) (t : State) : Prop := t.group n = none ∧ (∀ m, m ≠ n → t.group m = s.group m) ∧ t.cores = s.cores

omit hg in
theorem dropGroup_drops (s : State) (n : Nat) (g : Group) : Dropped s n (dropGroup s n g) := by
  obtain ⟨hgroups, hcores⟩ := releaseHold_groups s n g
  refine ⟨group_setGroup_self (releaseHold s n g) n none, fun m hm => ?_, hcores⟩
  refine (group_setGroup_ne (releaseHold s n g) hm none).trans ?_
  rw [State.group, State.group, hgroups]

theorem groupLost_drops (hphase : g.phase = .formed) : ∃ t, exec (.groupLost gid) s = .next t ∧ Dropped s gid.val t := by
  have hexec : exec (.groupLost gid) s = execGroupLost gid s := rfl
  rw [hexec, execGroupLost, onGroup, hg]
  exact ⟨_, congrArg Host.Outcome.next (if_pos hphase), dropGroup_drops (groupEvent s gid.val g .groupLost 0) gid.val g⟩

/-! #### Sealed commands (R347, R348) -/

omit hg in
theorem SealEnded.groups {s t : State} (h : SealEnded s t) : t.groups = s.groups ∧ t.cores = s.cores := by
  obtain ⟨_, _, _, _, _, _, _, rfl⟩ := h
  exact ⟨rfl, rfl⟩

theorem collDissolve_drops {c : Sealed} (ha : s.lode.activeOk = true) (hcheck : sealedCheck s c 6 = none) :
    ∃ t, exec (.collDissolve c gid) s = .next t ∧ Dropped s gid.val t := by
  have heffect : (match s.group gid.val with
      | none => Except.ok (s, [])
      | some g => .ok (dropGroup s gid.val g, []) : Except Code (State × List Byte)) = .ok (dropGroup s gid.val g, []) := by rw [hg]
  have hexec : execCollDissolve c gid s = noted s (.next (sealedEnd (dropGroup s gid.val g) 6 .scOk [] false)) := by
    rw [execCollDissolve, sealedRun_commits ha hcheck heffect]
  obtain ⟨hgroups, hcores⟩ := SealEnded.groups (sealedEnd_frame (s := dropGroup s gid.val g) 6 .scOk [] false)
  obtain ⟨hgone, hothers, hkept⟩ := dropGroup_drops s gid.val g
  generalize sealedEnd (dropGroup s gid.val g) 6 .scOk [] false = s1 at *
  obtain ⟨t, ht, q, b, p, l, rfl⟩ := noted_signalled hexec
  have hgroup (n : Nat) : s1.group n = (dropGroup s gid.val g).group n := by rw [State.group, State.group, hgroups]
  exact ⟨_, ht, (hgroup _).trans hgone, fun n hn => (hgroup n).trans (hothers n hn), hcores.trans hkept⟩

end

theorem collForm_refused {s : State} {c : Sealed} {w : GroupWords} (ha : s.lode.activeOk = true) (hcheck : sealedCheck s c 5 = none)
    (hbad : collBad s (groupRecOf w) = true) : ∃ t, exec (.collForm c w) s = .next t ∧ t.groups = s.groups ∧ t.cores = s.cores := by
  have hexec : execCollForm c w s = noted s (.next (sealedEnd s 5 .collBadcfg [] false)) := by
    rw [execCollForm, sealedRun_refuses ha hcheck (if_pos hbad)]
  obtain ⟨hgroups, hcores⟩ := SealEnded.groups (sealedEnd_frame (s := s) 5 .collBadcfg [] false)
  generalize sealedEnd s 5 .collBadcfg [] false = s1 at *
  obtain ⟨t, ht, q, b, p, l, rfl⟩ := noted_signalled hexec
  exact ⟨_, ht, hgroups, hcores⟩

/-- The state without the group that has the number of a new one. -/
def withoutGroup (s : State) (n : Nat) : State := match s.group n with | none => s | some g => dropGroup s n g

/-- A group as it is configured. -/
def configured (s : State) (r : GroupRec) : Group :=
  { cfg := r, phase := .joining, hash := Config.sha384 r.bytes, joins := if decide (rosterIndex s r = some 0) then [(0, true, true)] else [],
    members := [], rank := 0, cstep := 0, layersDone := [], deadlines := [], contribs := [], partials := [], summed := [], updated := [],
    shards := [], incomplete := false, decided := false, layersDue := [], casts := [], written := [], pulling := [] }

theorem formGroup_eq (s : State) (r : GroupRec) : formGroup s r = if decide (rosterIndex s r = some 0) then
    (withoutGroup s r.gid).setGroup r.gid (some (configured s r))
    else sendRoster ((withoutGroup s r.gid).setGroup r.gid (some (configured s r))) r.gid r 0 ctlBytes
      (.join r.gid (Config.sha384 r.bytes) s.arith) := rfl

theorem withoutGroup_cores (s : State) (n : Nat) : (withoutGroup s n).cores = s.cores := by
  rw [withoutGroup]
  split
  · rfl
  · exact (dropGroup_drops ..).2.2

/-- A group that has been configured is joining under its record. -/
theorem formGroup_joins (s : State) (r : GroupRec) :
    (formGroup s r).group r.gid.val = some (configured s r) ∧ (formGroup s r).cores = s.cores := by
  have hself := group_setGroup_self (withoutGroup s r.gid) r.gid.val (some (configured s r))
  have hcores : ((withoutGroup s r.gid).setGroup r.gid (some (configured s r))).cores = s.cores := withoutGroup_cores s r.gid
  rw [formGroup_eq]
  generalize (withoutGroup s r.gid).setGroup r.gid (some (configured s r)) = s1 at *
  split
  · exact ⟨hself, hcores⟩
  · have hrounds := sendRoster_rounds s1 r.gid r 0 ctlBytes (.join r.gid (Config.sha384 r.bytes) s.arith)
    exact ⟨(hrounds.group _).trans hself, hrounds.1.trans hcores⟩

theorem collForm_forms {s : State} {c : Sealed} {w : GroupWords} (ha : s.lode.activeOk = true) (hcheck : sealedCheck s c 5 = none)
    (hgood : collBad s (groupRecOf w) = false) : ∃ t h, exec (.collForm c w) s = .next t ∧ t.group (groupRecOf w).gid.val = some h
      ∧ h.cfg = groupRecOf w ∧ h.phase = .joining ∧ t.cores = s.cores := by
  have hexec : execCollForm c w s = noted s (.next (sealedEnd (formGroup s (groupRecOf w)) 5 .scOk [] false)) := by
    rw [execCollForm, sealedRun_commits ha hcheck (if_neg (Bool.eq_false_iff.1 hgood))]
  obtain ⟨hgroups, hcores⟩ := SealEnded.groups (sealedEnd_frame (s := formGroup s (groupRecOf w)) 5 .scOk [] false)
  obtain ⟨hgroup, hkept⟩ := formGroup_joins s (groupRecOf w)
  generalize sealedEnd (formGroup s (groupRecOf w)) 5 .scOk [] false = s1 at *
  obtain ⟨t, ht, q, b, p, l, rfl⟩ := noted_signalled hexec
  have hsame : s1.group (groupRecOf w).gid.val = (formGroup s (groupRecOf w)).group (groupRecOf w).gid.val := by
    rw [State.group, State.group, hgroups]
  exact ⟨_, _, ht, hsame.trans hgroup, rfl, rfl, hcores.trans hkept⟩

/-- Settles O52: joining, FORMED at its leader and at its members, and the end of a group, each by a lemma above. -/
theorem groupsFormByTheirLeader : Obligations.GroupsFormByTheirLeader := by
  intro s gid g hg
  refine ⟨fun rank hash rev hphase hlead hnew hrank => join_notes hg hphase hlead hnew hrank, fun hphase hlead => ?_,
    fun ranks i hphase hi => ⟨fun hnot => formed_excludes hg hphase hi hnot, fun hin => formed_begins hg hphase hi hin⟩,
    groupNoleader_logs hg, groupNoleader_ignored hg, ⟨groupLost_drops hg, fun c ha hcheck => collDissolve_drops hg ha hcheck⟩,
    fun c w ha hcheck => ⟨collForm_refused ha hcheck, collForm_forms ha hcheck⟩⟩
  obtain ⟨hcores, hgroups, -⟩ := sendFormed_rounds (s := s) (gid := gid) (g := g) (admitted g) (List.range g.cfg.roster.length)
  exact ⟨admitted g, _, joinWindowEnd_forms hg hphase hlead, rfl, sendFormed_leader hlead _, hgroups, hcores,
    List.pairwise_lt_range.filter _, fun i => mem_admitted⟩

end Sys2Proof.Machine

/-! ### What a round's sums leave of a group (R355 to R361) -/

namespace Sys2Proof.Machine

/-- `b` is `a` with the group's sums further on: contributions and node sums have been added, and no other part of the group changed
but what is summed, updated and INCOMPLETE. -/
def Reduces (a b : State × Group) : Prop :=
  Rounds a.1 b.1 ∧ ∃ cs ps sm up inc,
    b.2 = { a.2 with contribs := a.2.contribs ++ cs, partials := a.2.partials ++ ps, summed := sm, updated := up, incomplete := inc }

theorem Reduces.refl (a : State × Group) : Reduces a a := by
  refine ⟨.refl a.1, [], [], a.2.summed, a.2.updated, a.2.incomplete, ?_⟩
  rw [List.append_nil, List.append_nil]

theorem Reduces.trans {a b c : State × Group} (h : Reduces a b) (h' : Reduces b c) : Reduces a c := by
  obtain ⟨hr, cs, ps, sm, up, inc, hb⟩ := h
  obtain ⟨hr', cs', ps', sm', up', inc', hc⟩ := h'
  refine ⟨hr.trans hr', cs ++ cs', ps ++ ps', sm', up', inc', ?_⟩
  rw [hc, hb]
  simp only [List.append_assoc]

/-- Only the state has changed. -/
theorem Rounds.reduces {s t : State} (h : Rounds s t) (g : Group) : Reduces (s, g) (t, g) := by
  refine ⟨h, [], [], g.summed, g.updated, g.incomplete, ?_⟩
  rw [List.append_nil, List.append_nil]

section
variable (s : State) (g : Group)

theorem summed_reduces (l : List Nat) : Reduces (s, g) (s, { g with summed := l }) :=
  ⟨.refl s, [], [], l, g.updated, g.incomplete, by simp⟩

theorem updated_reduces (l : List Nat) : Reduces (s, g) (s, { g with updated := l }) :=
  ⟨.refl s, [], [], g.summed, l, g.incomplete, by simp⟩

theorem incomplete_reduces (b : Bool) : Reduces (s, g) (s, { g with incomplete := b }) :=
  ⟨.refl s, [], [], g.summed, g.updated, b, by simp⟩

theorem partial_reduces (e : Nat × Nat × Sum) : Reduces (s, g) (s, { g with partials := g.partials ++ [e] }) :=
  ⟨.refl s, [], [e], g.summed, g.updated, g.incomplete, by simp⟩

theorem contrib_reduces (e : Nat × Nat × Sum) : Reduces (s, g) (s, { g with contribs := g.contribs ++ [e] }) :=
  ⟨.refl s, [e], [], g.summed, g.updated, g.incomplete, by simp⟩

end

theorem sendShard_rounds (s : State) (gid : Nat) (g : Group) (inc : Bool) : Rounds s (sendShard s gid g inc) := sendMember_rounds ..

theorem reportIncomplete_reduces (s : State) (gid : Nat) (g : Group) : Reduces (s, g) (reportIncomplete s gid g) := by
  rw [reportIncomplete]
  split
  · exact .refl _
  · exact ((sendShard_rounds s gid g true).reduces g).trans (incomplete_reduces ..)

theorem blockUpdated_reduces (s : State) (gid : Nat) (g : Group) (blk : Nat) : Reduces (s, g) (blockUpdated s gid g blk) := by
  unfold blockUpdated
  dsimp only
  refine (updated_reduces s g (g.updated ++ [blk])).trans ?_
  split
  · exact (sendShard_rounds ..).reduces _
  · exact .refl _

theorem tryFold_reduces (s : State) (gid : Nat) (g : Group) (blk : Nat) (late : Bool) : Reduces (s, g) (tryFold s gid g blk late) := by
  unfold tryFold
  split
  · exact .refl _
  split
  · exact .refl _
  · refine Reduces.trans (b := (optimise _ gid g blk _, g)) ?_ (blockUpdated_reduces ..)
    exact (((collCtr32_rounds ..).trans (collCtr32_rounds ..)).trans (optimise_rounds ..)).reduces g

theorem takePartial_reduces (s : State) (gid : Nat) (g : Group) (cstep blk node : Nat) (t : Sum) (inc : Bool) :
    Reduces (s, g) (takePartial s gid g cstep blk node t inc) := by
  rw [takePartial]
  split
  · split
    · exact reportIncomplete_reduces ..
    · exact .refl _
  split
  · exact .refl _
  · exact (partial_reduces s g (stepKey cstep blk, node, t)).trans (tryFold_reduces ..)

theorem giveSum_reduces (s : State) (gid : Nat) (g : Group) (blk : Nat) (t : Option Sum) (inc : Bool) :
    Reduces (s, g) (giveSum s gid g blk t inc) := by
  unfold giveSum
  dsimp only
  refine (summed_reduces s g (g.summed ++ [blk])).trans ?_
  split
  · exact .refl _
  split
  · exact takePartial_reduces ..
  · exact (sendChunk_rounds ..).reduces _

theorem trySum_reduces (s : State) (gid : Nat) (g : Group) (blk : Nat) (late : Bool) : Reduces (s, g) (trySum s gid g blk late) := by
  unfold trySum
  dsimp only
  split
  · exact .refl _
  · refine Reduces.trans ?_ (giveSum_reduces ..)
    exact ((collCtr32_rounds ..).trans (collCtr32_rounds ..)).reduces g

theorem takeContrib_reduces (s : State) (gid : Nat) (g : Group) (cstep blk rank : Nat) (t : Sum) :
    Reduces (s, g) (takeContrib s gid g cstep blk rank t) := by
  rw [takeContrib]
  split
  · exact .refl _
  · exact (contrib_reduces s g (stepKey cstep blk, rank, t)).trans (trySum_reduces ..)

theorem contribute_reduces (gid : Nat) (a : State × Group) (blk : Nat) : Reduces a (contribute gid a blk) := by
  unfold contribute
  split
  · exact .refl a
  dsimp only
  split
  · exact takeContrib_reduces ..
  · exact (sendChunk_rounds ..).reduces _

theorem foldl_reduces {α : Type} {f : State × Group → α → State × Group} (h : ∀ a x, Reduces a (f a x)) (l : List α) (a : State × Group) :
    Reduces a (l.foldl f a) := by
  induction l generalizing a with
  | nil => exact .refl a
  | cons x l ih => exact (h a x).trans (ih _)

theorem blockLate_reduces (gid : Nat) (a : State × Group) (blk : Nat) : Reduces a (blockLate gid a blk) := by
  unfold blockLate
  dsimp only
  split
  · have hserve : Reduces a (if decide (a.2.sumServer blk = a.2.rank) && !decide (blk ∈ a.2.summed) then trySum a.1 gid a.2 blk true else a) := by
      split
      · exact trySum_reduces ..
      · exact .refl a
    generalize (if decide (a.2.sumServer blk = a.2.rank) && !decide (blk ∈ a.2.summed) then trySum a.1 gid a.2 blk true else a) = b at *
    refine hserve.trans ?_
    split
    · exact tryFold_reduces ..
    · exact .refl b
  · have hserve : Reduces a (if decide (a.2.sumServer blk = a.2.rank) && !decide (blk ∈ a.2.summed) then giveSum a.1 gid a.2 blk none true else a) := by
      split
      · exact giveSum_reduces ..
      · exact .refl a
    generalize (if decide (a.2.sumServer blk = a.2.rank) && !decide (blk ∈ a.2.summed) then giveSum a.1 gid a.2 blk none true else a) = b at *
    refine hserve.trans ?_
    split
    · exact reportIncomplete_reduces ..
    · exact .refl b

/-- The contributions that are due go out; no other part of the group changes but its sums. -/
theorem contributeDue_reduces (gid : Nat) (a : State × Group) : Reduces (a.1, { a.2 with layersDue := [] }) (contributeDue gid a) :=
  foldl_reduces (fun a blk => contribute_reduces gid a blk) _ _

/-! #### A group put back -/

/-- The group that is put back is the one that is there. -/
theorem putGroup_spec (gid : Nat) (a : State × Group) : (putGroup gid a).group gid = some a.2 ∧ (putGroup gid a).cores = a.1.cores
    ∧ (putGroup gid a).out = a.1.out := ⟨putGroup_group gid a, rfl, rfl⟩

theorem releaseHold_spec (s : State) (gid : Nat) (g : Group) : (releaseHold s gid g).groups = s.groups ∧ (releaseHold s gid g).cores = s.cores
    ∧ (releaseHold s gid g).out = s.out := by
  rw [releaseHold]
  split <;> exact ⟨rfl, rfl, rfl⟩

theorem updateDone_spec (s : State) (gid : Nat) (g : Group) : (updateDone s gid g).groups = s.groups ∧ (updateDone s gid g).cores = s.cores
    ∧ (updateDone s gid g).out = s.out := by
  rw [updateDone]
  split
  · exact ⟨rfl, rfl, rfl⟩
  split
  · exact releaseHold_spec ..
  · exact ⟨rfl, rfl, rfl⟩

theorem group_of_groups {s t : State} (h : t.groups = s.groups) (n : Nat) : t.group n = s.group n := by rw [State.group, State.group, h]

theorem mem_wrote (g : Group) (cstep blk : Nat) : (cstep, blk) ∈ (g.wrote cstep blk).written := by
  rw [Group.wrote]
  split
  next h => exact h
  next => exact List.mem_append_right _ (List.mem_singleton.2 rfl)

theorem wrote_mono {g : Group} {e : Nat × Nat} (h : e ∈ g.written) (cstep blk : Nat) : e ∈ (g.wrote cstep blk).written := by
  rw [Group.wrote]
  split
  · exact h
  · exact List.mem_append_left _ h

end Sys2Proof.Machine

/-! ### The rounds of a formed group (R345, R352, R356 to R365) -/

namespace Sys2Proof.Machine

/-! #### Messages that go out at once (R345) -/

/-- Member `r` is this module, or the direct link to it is up, has nothing waiting, and has credit for a control message. -/
def Reached (s : State) (gid : Nat) (g : Group) (r : Nat) : Prop :=
  (g.nodeOf r = s.node ∧ g.slotOf r = s.slotNo)
    ∨ (g.nodeOf r = s.node ∧ g.slotOf r ≠ s.slotNo ∧ ∃ l x, s.linkTo (g.slotOf r) = some l ∧ s.link (.direct l) = some x ∧ x.st = .up
      ∧ x.waiting = [] ∧ x.canSend { vc := 2 + gid, len := ctlBytes, msg := none } = true)

theorem Reached.congr {s t : State} {gid : Nat} {g : Group} {r : Nat} (hchart : t.chart = s.chart) (hlinks : t.links = s.links)
    (h : Reached s gid g r) : Reached t gid g r := by
  have hnode : t.node = s.node := by simp only [State.node, State.config, hchart]
  have hslot : t.slotNo = s.slotNo := by simp only [State.slotNo, State.config, hchart]
  have hto : t.linkTo = s.linkTo := by
    have hup : t.linkUp = s.linkUp := by
      funext l
      rw [State.linkUp, State.linkUp, hlinks]
    funext d
    simp only [State.linkTo, hslot, hup]
  have hlink (l : Fin 8) : t.link (.direct l) = s.link (.direct l) := by rw [State.link, State.link, hlinks]
  simpa only [Reached, hnode, hslot, hto, hlink] using h

/-- A link with one frame waiting that it may send sends it. -/
theorem pumpAll_one {s : State} {i : LinkId} {x : Link} {f : NzFrame} (hx : s.link i = some x) (hup : x.st = .up) (hw : x.waiting = [f])
    (hcan : x.canSend f = true) : pumpAll s i = sendFrame s i { x with waiting := [] } f := by
  have hnext : x.nextFrame [] [f] = some f := by simp [Link.nextFrame, hcan]
  rw [pumpAll, hx]
  simp only [hw, List.length_singleton, pump, hx, hup, hnext, List.erase_cons_head]
  rfl

/-- A control message on a direct link that is up with credit and nothing waiting. -/
theorem sendBytes_direct {s : State} {l : Fin 8} {x : Link} {vc : Nat} {e : Emit} (hx : s.link (.direct l) = some x) (hup : x.st = .up)
    (hw : x.waiting = []) (hcan : x.canSend { vc := vc, len := ctlBytes, msg := none } = true) :
    e ∈ (sendBytes s (.direct l) vc ctlBytes e).out := by
  have hframe : framesOf vc ctlBytes e = [{ vc := vc, len := ctlBytes, msg := some e }] := rfl
  rw [sendBytes, hx]
  simp only [hw, List.nil_append, hframe]
  have hone := pumpAll_one (link_setLink_self s (.direct l) { x with waiting := [{ vc := vc, len := ctlBytes, msg := some e }] }) hup rfl hcan
  rw [hone, sendFrame, nzOut_out _ _ _ _ _ _ _ _ rfl]
  simp

theorem sendMember_reached {s : State} {gid : Nat} {g : Group} {r : Nat} (h : Reached s gid g r) (e : Emit) :
    e ∈ (sendMember s gid g r ctlBytes e).out := by
  rcases h with ⟨hnode, hslot⟩ | ⟨hnode, hslot, l, x, hl, hx, hup, hw, hcan⟩
  · exact sendModule_self hnode hslot e
  · have hlink : moduleLink s gid (g.nodeOf r) (g.slotOf r) = some (.direct l) := by rw [moduleLink, if_pos hnode, hl, Option.map_some]
    have hmade : makeRouted s (.direct l) = s := by
      rw [makeRouted, hx]
      rfl
    rw [sendMember, sendModule, if_neg fun hself => hslot hself.2, hlink]
    dsimp only
    rw [hmade]
    exact sendBytes_direct hx hup hw hcan

section
variable {s : State} {gid : Fin 16} {g : Group} (hg : s.group gid.val = some g) (hphase : g.phase = .formed)
include hg hphase

/-- A command for a formed group. -/
theorem onGroup_formed (f : Group → State) : onGroup s gid.val f = .next (f g) := by
  rw [onGroup, hg]
  exact congrArg Host.Outcome.next (if_pos hphase)

/-! #### Layers (R352, R356, R361, R364) -/

/-- The group with one more layer done. -/
def layerDone (g : Group) (layer : Nat) : Group := { g with layersDone := g.layersDone ++ [layer], layersDue := g.layersDue ++ [layer] }

theorem layerDoorbell_notes {layer : Nat} (hnew : layer ∉ g.layersDone) (hlayer : layer < g.cfg.layers.length) :
    ∃ t h, exec (.layerDoorbellComplete gid layer) s = .next t
      ∧ t.group gid.val = some h ∧ h.layersDone = g.layersDone ++ [layer] ∧ h.cstep = g.cstep ∧ t.cores = s.cores
      ∧ (g.pulling ≠ [] → t.out = s.out ∧ h.layersDue = g.layersDue ++ [layer] ∧ h.contribs = g.contribs) := by
  have hexec : exec (.layerDoorbellComplete gid layer) s
      = .next (putGroup gid.val (if g.pulling = [] then contributeDue gid.val (s, layerDone g layer) else (s, layerDone g layer))) := by
    have hexec : exec (.layerDoorbellComplete gid layer) s = execLayerDoorbellComplete gid layer s := rfl
    rw [hexec, execLayerDoorbellComplete, onGroup_formed hg hphase]
    exact congrArg Host.Outcome.next (if_neg (by simp [hnew, hlayer]))
  by_cases hp : g.pulling = []
  · rw [if_pos hp] at hexec
    obtain ⟨hrounds, cs, ps, sm, up, inc, heq⟩ := contributeDue_reduces gid.val (s, layerDone g layer)
    obtain ⟨hcores, -⟩ := hrounds
    generalize contributeDue gid.val (s, layerDone g layer) = a at *
    exact ⟨_, a.2, hexec, putGroup_group .., by rw [heq]; rfl, by rw [heq]; rfl, hcores, fun h => absurd hp h⟩
  · rw [if_neg hp] at hexec
    exact ⟨_, _, hexec, putGroup_group .., rfl, rfl, rfl, fun _ => ⟨rfl, rfl, rfl⟩⟩

theorem collDeadline_takes {layer : Nat} (hdone : layer ∈ g.layersDone) (hnew : layer ∉ g.deadlines) :
    ∃ t h, exec (.collDeadline gid layer) s = .next t ∧ t.group gid.val = some h ∧ h.deadlines = g.deadlines ++ [layer]
      ∧ h.cstep = g.cstep ∧ t.cores = s.cores := by
  have hexec : exec (.collDeadline gid layer) s = .next (putGroup gid.val
      ((g.cfg.layerBlks layer).foldl (blockLate gid.val) (s, { g with deadlines := g.deadlines ++ [layer] }))) := by
    have hexec : exec (.collDeadline gid layer) s = execCollDeadline gid layer s := rfl
    rw [hexec, execCollDeadline, onGroup_formed hg hphase]
    exact congrArg Host.Outcome.next (if_neg (by simp [hdone, hnew]))
  obtain ⟨hrounds, cs, ps, sm, up, inc, heq⟩ := foldl_reduces (blockLate_reduces gid.val) (g.cfg.layerBlks layer)
    (s, { g with deadlines := g.deadlines ++ [layer] })
  obtain ⟨hcores, -⟩ := hrounds
  generalize (g.cfg.layerBlks layer).foldl (blockLate gid.val) (s, { g with deadlines := g.deadlines ++ [layer] }) = a at *
  exact ⟨_, a.2, hexec, putGroup_group .., by rw [heq], by rw [heq], hcores⟩

/-! #### Chunks (R356, R357, R361 to R364) -/

theorem onChunk_formed (hpark : s.pwr.park = false) (f : State → Group → State) : onChunk s gid.val f = .next (f (chunkIn s gid.val) g) := by
  rw [onChunk, if_neg (Bool.eq_false_iff.1 hpark)]
  exact onGroup_formed (s := chunkIn s gid.val) hg hphase _

omit hg hphase in
theorem chunkIn_rounds (s : State) (n : Nat) : Rounds s (chunkIn s n) := collCtr_rounds ..

omit hg hphase in
/-- Chunks while PARK is set. -/
theorem chunks_parked (hpark : s.pwr.park = true) (c : Chunk) : exec (.contribChunk c) s = .next s ∧ exec (.updateChunk c) s = .next s
    ∧ exec (.pullAnswer c) s = .next s ∧ ∀ node, exec (.partialChunk c node) s = .next s :=
  ⟨if_pos hpark, if_pos hpark, if_pos hpark, fun _ => if_pos hpark⟩

variable (hpark : s.pwr.park = false) {c : Chunk} (hgid : c.gid = gid.val)
include hpark hgid

/-- Contributions and node sums of a step that is neither the group's nor the next. -/
theorem chunks_outOfStep (h : c.cstep < g.cstep ∨ g.cstep + 1 < c.cstep) : exec (.contribChunk c) s = .next (chunkIn s gid.val)
    ∧ ∀ node, exec (.partialChunk c node) s = .next (chunkIn s gid.val) := by
  have hstep : g.inStep c.cstep = false := by
    rw [Group.inStep, decide_eq_false_iff_not]
    omega
  have hcontrib : exec (.contribChunk c) s = execContribChunk c s := rfl
  refine ⟨?_, fun node => ?_⟩
  · rw [hcontrib, execContribChunk, hgid, onChunk_formed hg hphase hpark]
    exact congrArg Host.Outcome.next (if_pos (.inl hstep))
  · have hpartial : exec (.partialChunk c node) s = execPartialChunk c node s := rfl
    rw [hpartial, execPartialChunk, hgid, onChunk_formed hg hphase hpark]
    exact congrArg Host.Outcome.next (if_pos (.inl hstep))

variable (hlo : g.cstep ≤ c.cstep) (hhi : c.cstep ≤ g.cstep + 1) (hok : chunkOk g c = true)
include hlo hhi hok

/-- A contribution that is no repeat joins those of its block. -/
theorem contribChunk_joins (hserve : g.sumServer c.blk = g.rank) (hnode : g.nodeOf c.rank = g.nodeOf g.rank)
    (hnew : ∀ e ∈ g.contribs, e.1 ≠ stepKey c.cstep c.blk ∨ e.2.1 ≠ c.rank) (hopen : c.cstep ≠ g.cstep ∨ c.blk ∉ g.summed) :
    ∃ t h, exec (.contribChunk c) s = .next t ∧ t.group gid.val = some h ∧ h.cstep = g.cstep ∧ t.cores = s.cores
      ∧ (stepKey c.cstep c.blk, c.rank, { groups := c.groups, n := c.ncount }) ∈ h.contribs := by
  have hstep : g.inStep c.cstep = true := decide_eq_true ⟨hlo, hhi⟩
  have hfirst : g.contribs.any (fun e => decide (e.1 = stepKey c.cstep c.blk ∧ e.2.1 = c.rank)) = false := by
    simpa [imp_iff_not_or] using hnew
  have hexec : exec (.contribChunk c) s = .next (putGroup gid.val (trySum (chunkIn s gid.val) gid.val
      { g with contribs := g.contribs ++ [(stepKey c.cstep c.blk, c.rank, { groups := c.groups, n := c.ncount })] } c.blk false)) := by
    have hexec : exec (.contribChunk c) s = execContribChunk c s := rfl
    rw [hexec, execContribChunk, hgid, onChunk_formed hg hphase hpark]
    refine congrArg Host.Outcome.next ((if_neg (by simp [hstep, hok, hserve, hnode])).trans (congrArg (putGroup gid.val) ?_))
    exact if_neg (by rw [hfirst]; simp; tauto)
  obtain ⟨hrounds, cs, ps, sm, up, inc, heq⟩ := trySum_reduces (chunkIn s gid.val) gid.val
    { g with contribs := g.contribs ++ [(stepKey c.cstep c.blk, c.rank, { groups := c.groups, n := c.ncount })] } c.blk false
  obtain ⟨hcores, -⟩ := (chunkIn_rounds s gid.val).trans hrounds
  generalize trySum (chunkIn s gid.val) gid.val _ c.blk false = a at *
  exact ⟨_, a.2, hexec, putGroup_group .., by rw [heq], hcores, by rw [heq]; simp⟩

/-- A node sum that is no repeat joins those of its block. -/
theorem partialChunk_joins {node : Nat} (hinc : c.incomplete = false) (hown : g.owner c.blk = g.rank) (hnode : node ∈ g.nodes)
    (hnew : ∀ e ∈ g.partials, e.1 ≠ stepKey c.cstep c.blk ∨ e.2.1 ≠ node) (hopen : c.cstep ≠ g.cstep ∨ c.blk ∉ g.updated) :
    ∃ t h, exec (.partialChunk c node) s = .next t ∧ t.group gid.val = some h ∧ h.cstep = g.cstep ∧ t.cores = s.cores
      ∧ (stepKey c.cstep c.blk, node, { groups := c.groups, n := c.ncount }) ∈ h.partials := by
  have hstep : g.inStep c.cstep = true := decide_eq_true ⟨hlo, hhi⟩
  have hfirst : g.partials.any (fun e => decide (e.1 = stepKey c.cstep c.blk ∧ e.2.1 = node)) = false := by
    simpa [imp_iff_not_or] using hnew
  have hexec : exec (.partialChunk c node) s = .next (putGroup gid.val (tryFold (chunkIn s gid.val) gid.val
      { g with partials := g.partials ++ [(stepKey c.cstep c.blk, node, { groups := c.groups, n := c.ncount })] } c.blk false)) := by
    have hexec : exec (.partialChunk c node) s = execPartialChunk c node s := rfl
    rw [hexec, execPartialChunk, hgid, onChunk_formed hg hphase hpark]
    refine congrArg Host.Outcome.next ((if_neg (by simp [hstep, hok, hown, hnode])).trans (congrArg (putGroup gid.val) ?_))
    rw [hinc]
    exact (if_neg Bool.false_ne_true).trans (if_neg (by rw [hfirst]; simp; tauto))
  obtain ⟨hrounds, cs, ps, sm, up, inc, heq⟩ := tryFold_reduces (chunkIn s gid.val) gid.val
    { g with partials := g.partials ++ [(stepKey c.cstep c.blk, node, { groups := c.groups, n := c.ncount })] } c.blk false
  obtain ⟨hcores, -⟩ := (chunkIn_rounds s gid.val).trans hrounds
  generalize tryFold (chunkIn s gid.val) gid.val _ c.blk false = a at *
  exact ⟨_, a.2, hexec, putGroup_group .., by rw [heq], hcores, by rw [heq]; simp⟩

end

section
variable {s : State} {gid : Fin 16} {g : Group} (hg : s.group gid.val = some g) (hphase : g.phase = .formed) (hpark : s.pwr.park = false)
  {c : Chunk} (hgid : c.gid = gid.val) (hok : chunkOk g c = true)
include hg hphase hpark hgid hok

/-- An update of the step, or of the one before, is written and acknowledged to its owner. -/
theorem updateChunk_writes (hlo : g.cstep ≤ c.cstep + 1) (hhi : c.cstep ≤ g.cstep) (hown : g.owner c.blk ≠ g.rank) :
    ∃ t h, exec (.updateChunk c) s = .next t ∧ t.group gid.val = some h ∧ (c.cstep, c.blk) ∈ h.written
      ∧ (Reached s gid.val g (g.owner c.blk) → .updateAck gid.val (g.owner c.blk) c.blk ∈ t.out) ∧ t.cores = s.cores := by
  have hexec : ∃ s3, exec (.updateChunk c) s = .next (updateDone (s3.setGroup gid.val (some (g.wrote c.cstep c.blk))) gid.val (g.wrote c.cstep c.blk))
      ∧ Rounds (sendMember (writeReplica (chunkIn s gid.val) g c.blk c.groups) gid.val g (g.owner c.blk) ctlBytes
        (.updateAck gid.val (g.owner c.blk) c.blk)) s3 := by
    have hexec : exec (.updateChunk c) s = execUpdateChunk c s := rfl
    rw [hexec, execUpdateChunk, hgid, onChunk_formed hg hphase hpark]
    refine ⟨_, congrArg Host.Outcome.next (if_neg (by simp [hok, hown]; omega)), ?_⟩
    split
    · exact foldl_rounds (fun _ _ => sendChunk_rounds ..) _ _
    · exact .refl _
  obtain ⟨s3, hexec, hpassed⟩ := hexec
  have hstored := unstored_cores (writeReplica_unstored (chunkIn s gid.val) g c.blk c.groups)
  have hchart : (writeReplica (chunkIn s gid.val) g c.blk c.groups).chart = s.chart :=
    (congrArg State.chart (writeReplica_unstored (chunkIn s gid.val) g c.blk c.groups) :)
  have hlinks : (writeReplica (chunkIn s gid.val) g c.blk c.groups).links = s.links :=
    (congrArg State.links (writeReplica_unstored (chunkIn s gid.val) g c.blk c.groups) :)
  generalize writeReplica (chunkIn s gid.val) g c.blk c.groups = s1 at *
  have hsent := sendMember_rounds s1 gid.val g (g.owner c.blk) ctlBytes (.updateAck gid.val (g.owner c.blk) c.blk)
  obtain ⟨hcores, -⟩ := hsent.trans hpassed
  obtain ⟨hgroups, hkept, hout⟩ := updateDone_spec (s3.setGroup gid.val (some (g.wrote c.cstep c.blk))) gid.val (g.wrote c.cstep c.blk)
  refine ⟨_, _, hexec, (group_of_groups hgroups _).trans (group_setGroup_self ..), mem_wrote .., fun hr => ?_,
    hkept.trans (hcores.trans hstored)⟩
  rw [hout]
  exact hpassed.2.2.2.2.mem (sendMember_reached (hr.congr hchart hlinks) _)

omit hg hphase hpark hgid hok in
theorem pullNext_rounds (s : State) (n : Nat) (g : Group) : Rounds s (pullNext s n g) := by
  rw [pullNext]
  split
  · exact .refl s
  · exact sendMember_rounds ..

/-- The group that has got the block it pulls. -/
def answered (g : Group) (st : Nat) (c : Chunk) (rest : List (Nat × Nat)) : Group :=
  { (g.wrote st c.blk).wrote c.cstep c.blk with pulling := rest }

/-- The answer to the oldest pull is written, and the next pull goes out. -/
theorem pullAnswer_writes {st : Nat} {rest : List (Nat × Nat)} (hpull : g.pulling = (st, c.blk) :: rest) (hst : st ≤ c.cstep) :
    ∃ t h, exec (.pullAnswer c) s = .next t ∧ t.group gid.val = some h ∧ h.pulling = rest ∧ (st, c.blk) ∈ h.written ∧ t.cores = s.cores := by
  have hexec : ∃ s3, exec (.pullAnswer c) s = .next (if rest = []
        then putGroup gid.val (contributeDue gid.val
          (updateDone (pullNext (s3.setGroup gid.val (some (answered g st c rest))) gid.val (answered g st c rest)) gid.val (answered g st c rest),
            answered g st c rest))
        else updateDone (pullNext (s3.setGroup gid.val (some (answered g st c rest))) gid.val (answered g st c rest)) gid.val (answered g st c rest))
      ∧ Rounds s s3 := by
    have hexec : exec (.pullAnswer c) s = execPullAnswer c s := rfl
    rw [hexec, execPullAnswer, hgid, onChunk_formed hg hphase hpark]
    simp only [hpull]
    refine ⟨_, congrArg Host.Outcome.next (if_neg (by simp [hok, hst])), ?_⟩
    have hcounted : Rounds s (collCtr (writeReplica (chunkIn s gid.val) g c.blk c.groups) gid.val 0x1410 1) :=
      (chunkIn_rounds s gid.val).trans ((Rounds.of_unstored (writeReplica_unstored ..)).trans (collCtr_rounds ..))
    split
    · exact hcounted.trans (groupEvent_rounds ..)
    · exact hcounted
  obtain ⟨s3, hexec, hcores, -⟩ := hexec
  have hwritten : (st, c.blk) ∈ (answered g st c rest).written := wrote_mono (mem_wrote g st c.blk) c.cstep c.blk
  have hpulling : (answered g st c rest).pulling = rest := rfl
  generalize answered g st c rest = h at *
  have hnext := pullNext_rounds (s3.setGroup gid.val (some h)) gid.val h
  obtain ⟨hgroups, hkept, -⟩ := updateDone_spec (pullNext (s3.setGroup gid.val (some h)) gid.val h) gid.val h
  have hsame : (updateDone (pullNext (s3.setGroup gid.val (some h)) gid.val h) gid.val h).cores = s.cores :=
    hkept.trans (hnext.1.trans hcores)
  have hgroup : (updateDone (pullNext (s3.setGroup gid.val (some h)) gid.val h) gid.val h).group gid.val = some h :=
    (group_of_groups hgroups _).trans ((hnext.group _).trans (group_setGroup_self ..))
  generalize updateDone (pullNext (s3.setGroup gid.val (some h)) gid.val h) gid.val h = s5 at *
  by_cases hrest : rest = []
  · rw [if_pos hrest] at hexec
    obtain ⟨hrounds, cs, ps, sm, up, inc, heq⟩ := contributeDue_reduces gid.val (s5, h)
    have hdue := hrounds.1
    generalize contributeDue gid.val (s5, h) = a at *
    exact ⟨_, a.2, hexec, putGroup_group .., by rw [heq]; exact hpulling, by rw [heq]; exact hwritten, hdue.trans hsame⟩
  · rw [if_neg hrest] at hexec
    exact ⟨_, h, hexec, hgroup, hpulling, hwritten, hsame⟩

end

end Sys2Proof.Machine

/-! ### Commit, abort, multicast and pulls (R360 to R365) -/

namespace Sys2Proof.Machine

/-! #### Multicasts in progress (R363) -/

/-- A multicast without what it has sent. -/
def Cast.unsent (c : Cast) : Cast := { c with sent := [] }

/-- `b` is `a` with chunks sent: of the group only what its multicasts have sent changed. -/
def Casting (a b : State × Group) : Prop :=
  Rounds a.1 b.1 ∧ ∃ l, b.2 = { a.2 with casts := l } ∧ l.map Cast.unsent = a.2.casts.map Cast.unsent

theorem Casting.refl (a : State × Group) : Casting a a := ⟨.refl a.1, a.2.casts, rfl, rfl⟩

theorem Casting.trans {a b c : State × Group} (h : Casting a b) (h' : Casting b c) : Casting a c := by
  obtain ⟨hr, l, hb, hl⟩ := h
  obtain ⟨hr', l', hc, hl'⟩ := h'
  refine ⟨hr.trans hr', l', by rw [hc, hb], hl'.trans ?_⟩
  rw [hb]
  exact hl

theorem castGo_casting (gid n : Nat) (a : State × Group) : Casting a (castGo gid n a) := by
  induction n generalizing a with
  | zero => exact .refl a
  | succ n ih =>
    unfold castGo
    split
    · exact .refl a
    · refine Casting.trans ?_ (ih _)
      refine ⟨sendChunk_rounds .., _, rfl, ?_⟩
      rw [List.map_map]
      refine List.map_congr_left fun x _ => ?_
      rw [Function.comp_apply]
      split <;> rfl

theorem castAll_casting (gid : Nat) (a : State × Group) : Casting a (castAll gid a) := castGo_casting ..

/-- Does a receiver wait for a chunk of a block? -/
def awaits (blk rank : Nat) (c : Cast) : Bool := decide (c.blk = blk ∧ rank ∈ c.waiting)

/-- What a receiver waits for does not depend on what has been sent. -/
theorem awaits_unsent {l l' : List Cast} (h : l.map Cast.unsent = l'.map Cast.unsent) (blk rank : Nat) :
    (l.filter (awaits blk rank)).length = (l'.filter (awaits blk rank)).length := by
  have hmap (m : List Cast) : ((m.map Cast.unsent).filter (awaits blk rank)).length = (m.filter (awaits blk rank)).length := by
    rw [List.filter_map, List.length_map]
    rfl
  rw [← hmap l, h, hmap]

/-- An acknowledgement ends one wait. -/
theorem ackCast_awaits (blk rank : Nat) (l : List Cast) :
    ((ackCast blk rank l).filter (awaits blk rank)).length = (l.filter (awaits blk rank)).length - 1 := by
  induction l with
  | nil => rfl
  | cons c l ih =>
    rw [ackCast]
    split
    next h =>
      have hopen : awaits blk rank c = true := decide_eq_true h
      have hclosed : awaits blk rank { c with waiting := c.waiting.filter (fun r => decide (r ≠ rank)) } = false := by
        simp [awaits]
      rw [List.filter_cons_of_neg (by rw [hclosed]; decide), List.filter_cons_of_pos hopen, List.length_cons, Nat.add_sub_cancel]
    next h =>
      have hclosed : ¬awaits blk rank c = true := by rwa [awaits, decide_eq_true_iff]
      rw [List.filter_cons_of_neg hclosed, List.filter_cons_of_neg hclosed, ih]

/-- Chunks for which nobody waits are none that a receiver waits for. -/
theorem filter_waiting_awaits (blk rank : Nat) (l : List Cast) :
    (l.filter (fun c => decide (c.waiting ≠ []))).filter (awaits blk rank) = l.filter (awaits blk rank) := by
  rw [List.filter_filter]
  refine List.filter_congr fun c _ => ?_
  by_cases h : awaits blk rank c = true
  · have hne : c.waiting ≠ [] := List.ne_nil_of_mem (of_decide_eq_true h).2
    rw [h, decide_eq_true hne]
    rfl
  · rw [Bool.eq_false_iff.2 h]
    rfl

/-! #### The blocks of an owner at COMMIT (R360, R363) -/

/-- `b` is `a` with blocks entered: of the group only the blocks written and the multicasts changed, and no written block is lost. -/
def Entering (a b : State × Group) : Prop :=
  Rounds a.1 b.1 ∧ ∃ w cs, b.2 = { a.2 with written := w, casts := cs } ∧ ∀ e ∈ a.2.written, e ∈ w

theorem castBlock_entering (a : State × Group) (blk : Nat) :
    Entering a (castBlock a blk) ∧ (a.2.cstep, blk) ∈ (castBlock a blk).2.written := by
  have hkeep : Rounds a.1 (if a.2.shardSent then a.1 else keepBlock a.1 a.2 blk) := by
    split
    · exact .refl a.1
    · exact .of_unstored (keepBlock_unstored ..)
  have hwrote : a.2.wrote a.2.cstep blk = { a.2 with written := (a.2.wrote a.2.cstep blk).written } := by
    rw [Group.wrote]
    split <;> rfl
  have hgroup : (castBlock a blk).2 = { a.2.wrote a.2.cstep blk with casts := (castBlock a blk).2.casts } := rfl
  refine ⟨⟨hkeep.trans (.of_unstored (writeReplica_unstored ..)), (a.2.wrote a.2.cstep blk).written, (castBlock a blk).2.casts, ?_,
    fun e he => wrote_mono he a.2.cstep blk⟩, mem_wrote a.2 a.2.cstep blk⟩
  exact hgroup.trans (by rw [hwrote])

theorem castBlocks_entering (l : List Nat) (a : State × Group) :
    Entering a (l.foldl castBlock a) ∧ ∀ b ∈ l, (a.2.cstep, b) ∈ (l.foldl castBlock a).2.written := by
  induction l generalizing a with
  | nil => exact ⟨⟨.refl a.1, a.2.written, a.2.casts, rfl, fun _ h => h⟩, nofun⟩
  | cons b l ih =>
    obtain ⟨⟨hr, w, cs, hg, hmono⟩, hmem⟩ := castBlock_entering a b
    obtain ⟨⟨hr', w', cs', hg', hmono'⟩, hmem'⟩ := ih (castBlock a b)
    have hall (e : Nat × Nat) (he : e ∈ (castBlock a b).2.written) : e ∈ (l.foldl castBlock (castBlock a b)).2.written := by
      rw [hg']
      exact hmono' e he
    have hcstep : (castBlock a b).2.cstep = a.2.cstep := by rw [hg]
    refine ⟨⟨hr.trans hr', w', cs', by rw [List.foldl_cons, hg', hg], fun e he => hmono' e ?_⟩, fun x hx => ?_⟩
    · rw [hg]
      exact hmono e he
    · rcases List.mem_cons.1 hx with rfl | hx
      · exact hall _ hmem
      · exact hcstep ▸ hmem' x hx

theorem newRound_rounds (s : State) (gid : Nat) (g : Group) : Rounds s (newRound s gid g).1 := .of_unstored (newRound_unstored ..)

/-- A round begins with nothing of its own; what was written and pulled stays. -/
theorem newRound_spec (s : State) (gid : Nat) (g : Group) : (newRound s gid g).2.cstep = g.cstep ∧ (newRound s gid g).2.layersDone = []
    ∧ (newRound s gid g).2.shards = [] ∧ (newRound s gid g).2.written = g.written
    ∧ (newRound s gid g).2.contribs = g.contribs.filter (fun c => decide (stepKey g.cstep 0 ≤ c.1))
    ∧ (newRound s gid g).2.partials = g.partials.filter (fun c => decide (stepKey g.cstep 0 ≤ c.1)) := ⟨rfl, rfl, rfl, rfl, rfl, rfl⟩

section
variable {s : State} {gid : Fin 16} {g : Group} (hg : s.group gid.val = some g) (hphase : g.phase = .formed)
include hg hphase

/-! #### The leader (R360, R361) -/

/-- The leader puts its group back and tells every member. -/
def told (s : State) (gid : Nat) (g : Group) (h : Group) (m : Nat → Emit) : State :=
  (List.range g.nf).foldl (fun t r => sendMember t gid h r ctlBytes (m r)) (s.setGroup gid (some h))

/-- The group with one more report noted. -/
def reported (g : Group) (rank : Nat) (inc : Bool) : Group := { g with shards := g.shards ++ [(rank, inc)] }

section
variable (hlead : g.leads = true) {rank : Nat} (howner : rank ∈ g.owners) (hnew : ∀ e ∈ g.shards, e.1 ≠ rank)
include hlead howner hnew

theorem execShardDone_new (inc : Bool) : exec (.shardDone gid rank inc) s = .next (
    if g.decided then s.setGroup gid.val (some (reported g rank inc))
    else if inc then told s gid.val g { reported g rank inc with decided := true } (.abort gid.val)
    else if g.owners.all (fun r => (reported g rank inc).shards.any (fun e => decide (e.1 = r)))
      then told s gid.val g { reported g rank inc with decided := true } (.commit gid.val)
    else s.setGroup gid.val (some (reported g rank inc))) := by
  have hexec : exec (.shardDone gid rank inc) s = execShardDone gid rank inc s := rfl
  have hfirst : g.shards.any (fun e => decide (e.1 = rank)) = false := by simpa using hnew
  rw [hexec, execShardDone, onGroup_formed hg hphase]
  exact congrArg Host.Outcome.next (if_neg (by simp [hlead, hfirst, howner]))

theorem shardDone_decided (inc : Bool) (hd : g.decided = true) :
    exec (.shardDone gid rank inc) s = .next (s.setGroup gid.val (some (reported g rank inc))) := by
  rw [execShardDone_new hg hphase hlead howner hnew, if_pos hd]

theorem shardDone_incomplete (hd : g.decided = false) : exec (.shardDone gid rank true) s
    = .next (told s gid.val g { reported g rank true with decided := true } (.abort gid.val)) := by
  rw [execShardDone_new hg hphase hlead howner hnew, if_neg (by rw [hd]; decide), if_pos rfl]

theorem shardDone_last (hd : g.decided = false) (hall : ∀ r ∈ g.owners, r = rank ∨ ∃ e ∈ g.shards, e.1 = r) :
    exec (.shardDone gid rank false) s = .next (told s gid.val g { reported g rank false with decided := true } (.commit gid.val)) := by
  have hlast : g.owners.all (fun r => (reported g rank false).shards.any (fun e => decide (e.1 = r))) = true := by
    simp only [reported, List.any_append, List.all_eq_true, Bool.or_eq_true, List.any_eq_true, decide_eq_true_eq, List.mem_singleton,
      exists_eq_left]
    exact fun r hr => (hall r hr).elim (fun h => .inr h.symm) .inl
  rw [execShardDone_new hg hphase hlead howner hnew, if_neg (by rw [hd]; decide), if_neg (by decide), if_pos hlast]

theorem shardDone_open (hd : g.decided = false) (hsome : ∃ r ∈ g.owners, r ≠ rank ∧ ∀ e ∈ g.shards, e.1 ≠ r) :
    exec (.shardDone gid rank false) s = .next (s.setGroup gid.val (some (reported g rank false))) := by
  have hnot : ¬g.owners.all (fun r => (reported g rank false).shards.any (fun e => decide (e.1 = r))) = true := by
    obtain ⟨r, hr, hne, hnone⟩ := hsome
    intro hall
    obtain ⟨e, he, her⟩ := List.any_eq_true.1 (List.all_eq_true.1 hall r hr)
    rcases List.mem_append.1 he with he | he
    · exact hnone e he (of_decide_eq_true her)
    · rw [List.mem_singleton.1 he] at her
      exact hne (of_decide_eq_true her).symm
  rw [execShardDone_new hg hphase hlead howner hnew, if_neg (by rw [hd]; decide), if_neg (by decide), if_neg hnot]

end

theorem leaderStepTimeout_decided (hd : g.decided = true) : exec (.leaderStepTimeout gid) s = .next s := by
  have hexec : exec (.leaderStepTimeout gid) s = execLeaderStepTimeout gid s := rfl
  rw [hexec, execLeaderStepTimeout, onGroup_formed hg hphase]
  exact congrArg Host.Outcome.next (if_pos (.inr (.inl hd)))

theorem leaderStepTimeout_aborts (hlead : g.leads = true) (hd : g.decided = false) (hmode : g.cfg.rmode = false)
    (hlayers : g.cfg.layers.length ≤ g.layersDone.length) (hlate : ∃ r ∈ g.owners, ∀ e ∈ g.shards, e.1 ≠ r) :
    exec (.leaderStepTimeout gid) s = .next (told s gid.val g { g with decided := true } (.abort gid.val)) := by
  have hsome : g.owners.filter (fun r => !g.shards.any (fun e => decide (e.1 = r))) ≠ [] := by
    obtain ⟨r, hr, hnone⟩ := hlate
    exact List.ne_nil_of_mem (List.mem_filter.2 ⟨hr, by simpa using hnone⟩)
  have hexec : exec (.leaderStepTimeout gid) s = execLeaderStepTimeout gid s := rfl
  rw [hexec, execLeaderStepTimeout, onGroup_formed hg hphase]
  refine congrArg Host.Outcome.next ((if_neg ?_).trans (if_neg (Bool.eq_false_iff.1 hmode)))
  rintro (h | h | h | h)
  · rw [hlead] at h; cases h
  · rw [hd] at h; cases h
  · exact hsome h
  · omega

/-! #### COMMIT and ABORT (R360, R361, R363, R365) -/

/-- The owner's blocks enter its replica. -/
def committed (g : Group) (a : State × Group) : Group :=
  { a.2 with cstep := g.cstep + 1, written := a.2.written.filter (fun e => decide (g.cstep ≤ e.1)) }

omit hg hphase in
/-- A group put back, and its Pattern's hold looked at again. -/
theorem putDone_spec (n : Nat) (b : State × Group) : (updateDone (putGroup n b) n b.2).group n = some b.2
    ∧ (updateDone (putGroup n b) n b.2).cores = b.1.cores := by
  obtain ⟨hgroups, hkept, -⟩ := updateDone_spec (putGroup n b) n b.2
  exact ⟨(group_of_groups hgroups n).trans (putGroup_group n b), hkept⟩

/-- The round that a commit begins, with the owner's multicasts sent as far as there is credit. -/
def commitRound (gid : Nat) (g : Group) (a : State × Group) : State × Group := castAll gid (newRound a.1 gid (committed g a))

omit hg hphase in
theorem commitRound_spec (gid : Nat) (a : State × Group) : Rounds a.1 (commitRound gid g a).1 ∧ (commitRound gid g a).2.cstep = g.cstep + 1
    ∧ (commitRound gid g a).2.layersDone = [] ∧ (commitRound gid g a).2.shards = []
    ∧ ∀ x, (g.cstep, x) ∈ a.2.written → (g.cstep, x) ∈ (commitRound gid g a).2.written := by
  have hround := newRound_rounds a.1 gid (committed g a)
  obtain ⟨hcstep, hlayers, hshards, hwritten, -⟩ := newRound_spec a.1 gid (committed g a)
  rw [commitRound]
  generalize newRound a.1 gid (committed g a) = n at *
  obtain ⟨hcast, l, heq, -⟩ := castAll_casting gid n
  rw [heq]
  refine ⟨hround.trans hcast, hcstep, hlayers, hshards, fun x hx => ?_⟩
  change (g.cstep, x) ∈ n.2.written
  rw [hwritten]
  exact List.mem_filter.2 ⟨hx, decide_eq_true (Nat.le_refl g.cstep)⟩

theorem execCollCommit_formed : exec (.collCommit gid) s = .next (updateDone
    (putGroup gid.val (commitRound gid.val g (g.owned.foldl castBlock (s, g)))) gid.val
    (commitRound gid.val g (g.owned.foldl castBlock (s, g))).2) := by
  have hexec : exec (.collCommit gid) s = execCollCommit gid s := rfl
  rw [hexec, execCollCommit, onGroup_formed hg hphase]
  rfl

theorem collCommit_publishes : ∃ t h, exec (.collCommit gid) s = .next t ∧ t.group gid.val = some h ∧ h.cstep = g.cstep + 1
    ∧ h.layersDone = [] ∧ h.shards = [] ∧ (∀ b ∈ g.owned, (g.cstep, b) ∈ h.written) ∧ t.cores = s.cores := by
  have hexec := execCollCommit_formed hg hphase
  obtain ⟨⟨hent, -⟩, howned⟩ := castBlocks_entering g.owned (s, g)
  obtain ⟨hround, hcstep, hlayers, hshards, hwritten⟩ := commitRound_spec (g := g) gid.val (g.owned.foldl castBlock (s, g))
  have hcores := (hent.trans hround).1
  have hwrote (x : Nat) (hx : x ∈ g.owned) := hwritten x (howned x hx)
  obtain ⟨hgroup, hput⟩ := putDone_spec gid.val (commitRound gid.val g (g.owned.foldl castBlock (s, g)))
  exact ⟨_, _, hexec, hgroup, hcstep, hlayers, hshards, hwrote, hput.trans hcores⟩

omit hg hphase in
/-- The Patterns' holds stay, but for the one that is released. -/
theorem releaseHold_pat {t : State} {p : Pattern} (n : Nat) (hp : t.pat g.cfg.pat = some p) : (releaseHold t n g).pat g.cfg.pat
    = some { p with updateHold := p.updateHold.filter (fun x => decide (x ≠ n)) } := by
  rw [releaseHold, hp]
  exact pat_setPat_self ..

omit hg hphase in
/-- How the hold of a group's Pattern ends at an abort. -/
theorem abortHold {t : State} {p : Pattern} (n : Nat) (hp : t.pat g.cfg.pat = some p) :
    ∃ q, (if g.cstep = 0 then releaseHold t n g else updateDone t n g).pat g.cfg.pat = some q ∧ (g.cstep = 0 → n ∉ q.updateHold)
      ∧ (g.pulling = [] → (∀ b, b < g.cfg.nBlk → (g.cstep - 1, b) ∈ g.written) → n ∉ q.updateHold)
      ∧ (g.cstep ≠ 0 → g.pulling ≠ [] → q.updateHold = p.updateHold) := by
  have hrel := releaseHold_pat n hp
  have hgone : n ∉ p.updateHold.filter (fun x => decide (x ≠ n)) := by simp
  by_cases hzero : g.cstep = 0
  · rw [if_pos hzero]
    exact ⟨_, hrel, fun _ => hgone, fun _ _ => hgone, fun h => absurd hzero h⟩
  rw [if_neg hzero, updateDone]
  by_cases hpull : g.pulling = []
  · rw [if_neg (by simp [hzero, hpull])]
    split
    next => exact ⟨_, hrel, fun h => absurd h hzero, fun _ _ => hgone, fun _ h => absurd hpull h⟩
    next hnot =>
      refine ⟨p, hp, fun h => absurd h hzero, fun _ hall => absurd ?_ hnot, fun _ h => absurd hpull h⟩
      exact List.all_eq_true.2 fun b hb => decide_eq_true (hall b (List.mem_range.1 hb))
  · rw [if_pos (.inr hpull)]
    exact ⟨p, hp, fun h => absurd h hzero, fun h => absurd h hpull, fun _ _ => rfl⟩

omit hg hphase in
theorem markAgain_spec (t : State) (pi : Nat) : (markAgain t pi).groups = t.groups ∧ (markAgain t pi).cores = t.cores
    ∧ (markAgain t pi).helm.pats = t.helm.pats := by
  rw [markAgain]
  split <;> exact ⟨rfl, rfl, rfl⟩

/-- The group whose step has been aborted, and its state: the step begins again. -/
def abortRound (s : State) (gid : Nat) (g : Group) : State × Group :=
  newRound (collCtr32 (groupEvent s gid g .stepIncomplete g.rank) gid 0x1420 1) gid { g with contribs := [], partials := [] }

omit hg hphase in
theorem abortRound_spec (s : State) (gid : Nat) (g : Group) : Rounds s (abortRound s gid g).1 ∧ (abortRound s gid g).2.cstep = g.cstep
    ∧ (abortRound s gid g).2.contribs = [] ∧ (abortRound s gid g).2.partials = [] ∧ (abortRound s gid g).2.layersDone = [] :=
  ⟨(groupEvent_rounds ..).trans ((collCtr32_rounds ..).trans (newRound_rounds ..)), rfl, rfl, rfl, rfl⟩

omit hg hphase in
/-- A group put back while its Pattern's oldest step is marked to be repeated. -/
theorem putMarked_spec (n : Nat) (b : State × Group) (pi : Nat) : (markAgain (putGroup n b) pi).group n = some b.2
    ∧ (markAgain (putGroup n b) pi).cores = b.1.cores ∧ (markAgain (putGroup n b) pi).helm.pats = b.1.helm.pats := by
  obtain ⟨hgroups, hcores, hpats⟩ := markAgain_spec (putGroup n b) pi
  exact ⟨(group_of_groups hgroups n).trans (putGroup_group n b), hcores, hpats⟩

theorem collAbort_restarts : ∃ t h, exec (.collAbort gid) s = .next t ∧ t.group gid.val = some h ∧ h.cstep = g.cstep ∧ h.contribs = []
    ∧ h.partials = [] ∧ h.layersDone = [] ∧ t.cores = s.cores
    ∧ ∀ p, s.pat g.cfg.pat = some p → ∃ q, t.pat g.cfg.pat = some q
      ∧ (g.cstep = 0 → gid.val ∉ q.updateHold)
      ∧ (g.pulling = [] → (∀ b, b < g.cfg.nBlk → (g.cstep - 1, b) ∈ g.written) → gid.val ∉ q.updateHold)
      ∧ (g.cstep ≠ 0 → g.pulling ≠ [] → q.updateHold = p.updateHold) := by
  have hexec : exec (.collAbort gid) s = .next (if g.cstep = 0
      then releaseHold (markAgain (putGroup gid.val (abortRound s gid.val g)) g.cfg.pat) gid.val g
      else updateDone (markAgain (putGroup gid.val (abortRound s gid.val g)) g.cfg.pat) gid.val g) := by
    have hexec : exec (.collAbort gid) s = execCollAbort gid s := rfl
    rw [hexec, execCollAbort, onGroup_formed hg hphase]
    rfl
  obtain ⟨⟨hcores, -, hhelm, -⟩, hcstep, hcs, hps, hlayers⟩ := abortRound_spec s gid.val g
  obtain ⟨hgroup, hput, hpats⟩ := putMarked_spec gid.val (abortRound s gid.val g) g.cfg.pat
  have hpat (p : Pattern) (hp : s.pat g.cfg.pat = some p) :
      (markAgain (putGroup gid.val (abortRound s gid.val g)) g.cfg.pat).pat g.cfg.pat = some p := by
    rw [State.pat, hpats, hhelm]
    exact hp
  have hend : (if g.cstep = 0 then releaseHold (markAgain (putGroup gid.val (abortRound s gid.val g)) g.cfg.pat) gid.val g
        else updateDone (markAgain (putGroup gid.val (abortRound s gid.val g)) g.cfg.pat) gid.val g).groups
          = (markAgain (putGroup gid.val (abortRound s gid.val g)) g.cfg.pat).groups
      ∧ (if g.cstep = 0 then releaseHold (markAgain (putGroup gid.val (abortRound s gid.val g)) g.cfg.pat) gid.val g
        else updateDone (markAgain (putGroup gid.val (abortRound s gid.val g)) g.cfg.pat) gid.val g).cores
          = (markAgain (putGroup gid.val (abortRound s gid.val g)) g.cfg.pat).cores := by
    split
    · obtain ⟨hgroups, hkept, -⟩ := releaseHold_spec (markAgain (putGroup gid.val (abortRound s gid.val g)) g.cfg.pat) gid.val g
      exact ⟨hgroups, hkept⟩
    · obtain ⟨hgroups, hkept, -⟩ := updateDone_spec (markAgain (putGroup gid.val (abortRound s gid.val g)) g.cfg.pat) gid.val g
      exact ⟨hgroups, hkept⟩
  exact ⟨_, _, hexec, (group_of_groups hend.1 _).trans hgroup, hcstep, hcs, hps, hlayers, hend.2.trans (hput.trans hcores),
    fun p hp => abortHold gid.val (hpat p hp)⟩

/-! #### Acknowledgements, drops and pulls (R363, R364) -/

theorem updateAck_ends (blk rank : Nat) : ∃ t h, exec (.updateAck gid blk rank) s = .next t ∧ t.group gid.val = some h ∧ t.cores = s.cores
    ∧ (h.casts.filter (awaits blk rank)).length = (g.casts.filter (awaits blk rank)).length - 1 := by
  have hexec : exec (.updateAck gid blk rank) s = .next (putGroup gid.val (castAll gid.val
      (s, { g with casts := (ackCast blk rank g.casts).filter (fun c => decide (c.waiting ≠ [])) }))) := by
    have hexec : exec (.updateAck gid blk rank) s = execUpdateAck gid blk rank s := rfl
    rw [hexec, execUpdateAck, onGroup_formed hg hphase]
  obtain ⟨hrounds, l, heq, hl⟩ := castAll_casting gid.val
    (s, { g with casts := (ackCast blk rank g.casts).filter (fun c => decide (c.waiting ≠ [])) })
  refine ⟨_, _, hexec, putGroup_group .., hrounds.1, ?_⟩
  rw [heq]
  refine (awaits_unsent hl blk rank).trans ?_
  rw [filter_waiting_awaits, ackCast_awaits]

/-- The multicasts for which a receiver no longer waits. -/
def withoutReceiver (rank : Nat) (l : List Cast) : List Cast :=
  (l.map (fun c => { c with waiting := c.waiting.filter (fun r => decide (r ≠ rank)) })).filter (fun c => decide (c.waiting ≠ []))

omit hg hphase in
theorem withoutReceiver_none {rank : Nat} {l : List Cast} {c : Cast} (h : c ∈ withoutReceiver rank l) : rank ∉ c.waiting := by
  obtain ⟨d, -, rfl⟩ := List.mem_map.1 (List.mem_of_mem_filter h)
  simp

theorem mcDropped_ends {rank : Nat} (hwait : ∃ c ∈ g.casts, rank ∈ c.waiting) : ∃ t h, exec (.mcDropped gid rank) s = .next t
    ∧ t.group gid.val = some h ∧ (∀ c ∈ h.casts, rank ∉ c.waiting) ∧ (Reached s gid.val g rank → .dropped gid.val rank ∈ t.out)
    ∧ t.cores = s.cores := by
  have hexec : exec (.mcDropped gid rank) s = .next (putGroup gid.val (castAll gid.val
      (sendMember (collCtr32 (groupEvent s gid.val g .mcDropped rank) gid.val 0x1424 1) gid.val g rank ctlBytes (.dropped gid.val rank),
        { g with casts := withoutReceiver rank g.casts }))) := by
    have hexec : exec (.mcDropped gid rank) s = execMcDropped gid rank s := rfl
    rw [hexec, execMcDropped, onGroup_formed hg hphase]
    refine congrArg Host.Outcome.next (if_neg fun hnone => ?_)
    obtain ⟨c, hc, hr⟩ := hwait
    simpa [hr] using List.all_eq_true.1 hnone c hc
  have hsent := sendMember_rounds (collCtr32 (groupEvent s gid.val g .mcDropped rank) gid.val 0x1424 1) gid.val g rank ctlBytes
    (.dropped gid.val rank)
  have hout (h : Reached s gid.val g rank) := sendMember_reached (s := collCtr32 (groupEvent s gid.val g .mcDropped rank) gid.val 0x1424 1)
    (h.congr rfl rfl) (.dropped gid.val rank)
  have hcores := (((groupEvent_rounds s gid.val g .mcDropped rank).trans (collCtr32_rounds ..)).trans hsent).1
  generalize sendMember (collCtr32 (groupEvent s gid.val g .mcDropped rank) gid.val 0x1424 1) gid.val g rank ctlBytes (.dropped gid.val rank)
    = s1 at *
  obtain ⟨⟨hkept, -, -, -, hgrows⟩, l, heq, hl⟩ := castAll_casting gid.val (s1, { g with casts := withoutReceiver rank g.casts })
  refine ⟨_, _, hexec, putGroup_group .., fun c hc => ?_, fun h => hgrows.mem (hout h), hkept.trans hcores⟩
  rw [heq] at hc
  have hmem : c.unsent ∈ (withoutReceiver rank g.casts).map Cast.unsent := hl ▸ List.mem_map_of_mem hc
  obtain ⟨d, hd, hdc⟩ := List.mem_map.1 hmem
  have hwaiting : d.waiting = c.waiting := (congrArg Cast.waiting hdc :)
  exact hwaiting ▸ withoutReceiver_none hd

/-- The blocks among the first `n` that a receiver lacks of an owner, and does not pull yet. -/
def lackingBlocks (g : Group) (owner n : Nat) : List Nat := (List.range n).filter (fun b =>
  decide (g.owner b = owner) && !decide ((g.cstep - 1, b) ∈ g.written) && !decide ((g.cstep - 1, b) ∈ g.pulling))

/-- The group that pulls what it lacks from an owner. -/
def lacking (g : Group) (owner : Nat) : Group :=
  { g with pulling := g.pulling ++ (lackingBlocks g owner g.cfg.nBlk).map (fun b => (g.cstep - 1, b)) }

omit hg hphase in
theorem mem_lackingBlocks {owner n b : Nat} (hp : g.pulling = []) :
    b ∈ lackingBlocks g owner n ↔ b < n ∧ g.owner b = owner ∧ (g.cstep - 1, b) ∉ g.written := by
  simp [lackingBlocks, hp]

omit hg hphase in
theorem mem_lacking {owner : Nat} {e : Nat × Nat} (hp : g.pulling = []) :
    e ∈ (lacking g owner).pulling ↔ e.1 = g.cstep - 1 ∧ e.2 ∈ lackingBlocks g owner g.cfg.nBlk := by
  have hpulling : (lacking g owner).pulling = (lackingBlocks g owner g.cfg.nBlk).map (fun b => (g.cstep - 1, b)) := by
    rw [lacking, hp, List.nil_append]
  rw [hpulling, List.mem_map]
  constructor
  · rintro ⟨b, hb, rfl⟩
    exact ⟨rfl, hb⟩
  · rintro ⟨hstep, hb⟩
    exact ⟨e.2, hb, Prod.ext hstep.symm rfl⟩

theorem dropped_pulls {owner : Nat} (hstep : g.cstep ≠ 0) (hp : g.pulling = []) : ∃ t h, exec (.dropped gid owner) s = .next t
    ∧ t.group gid.val = some h ∧ t.cores = s.cores
    ∧ (∀ b, (g.cstep - 1, b) ∈ h.pulling ↔ (b < g.cfg.nBlk ∧ g.owner b = owner ∧ (g.cstep - 1, b) ∉ g.written))
    ∧ ∀ e rest, h.pulling = e :: rest → Reached s gid.val g owner → .pull gid.val owner e.2 ∈ t.out := by
  have hexec : exec (.dropped gid owner) s
      = .next (pullNext (s.setGroup gid.val (some (lacking g owner))) gid.val (lacking g owner)) := by
    have hexec : exec (.dropped gid owner) s = execDropped gid owner s := rfl
    rw [hexec, execDropped, onGroup_formed hg hphase]
    exact congrArg Host.Outcome.next ((if_neg hstep).trans (if_pos hp))
  have hnext := pullNext_rounds (s.setGroup gid.val (some (lacking g owner))) gid.val (lacking g owner)
  refine ⟨_, _, hexec, (hnext.group _).trans (group_setGroup_self ..), hnext.1, fun b => (mem_lacking hp).trans ((and_iff_right rfl).trans (mem_lackingBlocks hp)),
    fun e rest he hr => ?_⟩
  obtain ⟨-, hmem⟩ := (mem_lacking hp).1 (he ▸ List.mem_cons_self ..)
  obtain ⟨-, hown, -⟩ := (mem_lackingBlocks hp).1 hmem
  rw [pullNext, he]
  have hsent := sendMember_reached (s := s.setGroup gid.val (some (lacking g owner))) (g := lacking g owner) (hr.congr rfl rfl)
    (.pull gid.val owner e.2)
  rw [← hown] at hsent ⊢
  exact hsent

omit hg hphase in
theorem collCtr_inside (s : State) (n o k : Nat) : (collCtr s n o k).inside = s.inside := bump_inside ..

omit hg hphase in
theorem sendMember_inside (s : State) (n : Nat) (g : Group) (r bytes : Nat) (e : Emit) : (sendMember s n g r bytes e).inside = s.inside :=
  sendModule_inside ..

omit hg hphase in
/-- A chunk that is counted and sent changes neither groups, memory nor cores. -/
theorem answer_quiet (s : State) (n : Nat) (g : Group) (r bytes : Nat) (e : Emit) :
    (sendMember (collCtr (collCtr s n 0x1410 1) n 0x1408 1) n g r bytes e).groups = s.groups
      ∧ (sendMember (collCtr (collCtr s n 0x1410 1) n 0x1408 1) n g r bytes e).mem = s.mem
      ∧ (sendMember (collCtr (collCtr s n 0x1410 1) n 0x1408 1) n g r bytes e).cores = s.cores := by
  have hin : (sendMember (collCtr (collCtr s n 0x1410 1) n 0x1408 1) n g r bytes e).inside = s.inside := by
    rw [sendMember_inside, collCtr_inside, collCtr_inside]
  exact ⟨inside_groups hin, inside_mem hin, inside_cores hin⟩

theorem pull_answers {blk rank : Nat} (hstep : g.cstep ≠ 0) (hown : g.owner blk = g.rank) (hblk : blk < g.cfg.nBlk) :
    ∃ t, exec (.pull gid blk rank) s = .next t ∧ t.groups = s.groups ∧ t.mem = s.mem ∧ t.cores = s.cores
      ∧ t = sendMember (collCtr (collCtr s gid.val 0x1410 1) gid.val 0x1408 1) gid.val g rank
          (chunkBytes (mkChunk gid.val g (g.cstep - 1) blk g.nf false (readPub s g blk ((g.cstep - 1) % 2))) g.cfg.rb 1)
          (.pullAnswer gid.val rank (mkChunk gid.val g (g.cstep - 1) blk g.nf false (readPub s g blk ((g.cstep - 1) % 2)))) := by
  have hexec : exec (.pull gid blk rank) s = .next (sendMember (collCtr (collCtr s gid.val 0x1410 1) gid.val 0x1408 1) gid.val g rank
      (chunkBytes (mkChunk gid.val g (g.cstep - 1) blk g.nf false (readPub s g blk ((g.cstep - 1) % 2))) g.cfg.rb 1)
      (.pullAnswer gid.val rank (mkChunk gid.val g (g.cstep - 1) blk g.nf false (readPub s g blk ((g.cstep - 1) % 2))))) := by
    have hexec : exec (.pull gid blk rank) s = execPull gid blk rank s := rfl
    rw [hexec, execPull, onGroup_formed hg hphase]
    have hgo : ¬(g.cstep = 0 ∨ g.owner blk ≠ g.rank ∨ g.cfg.nBlk ≤ blk) := by
      rintro (h | h | h)
      · exact hstep h
      · exact h hown
      · exact Nat.not_lt.2 h hblk
    exact congrArg Host.Outcome.next (if_neg hgo)
  obtain ⟨hgroups, hmem, hcores⟩ := answer_quiet s gid.val g rank
    (chunkBytes (mkChunk gid.val g (g.cstep - 1) blk g.nf false (readPub s g blk ((g.cstep - 1) % 2))) g.cfg.rb 1)
    (.pullAnswer gid.val rank (mkChunk gid.val g (g.cstep - 1) blk g.nf false (readPub s g blk ((g.cstep - 1) % 2))))
  exact ⟨_, hexec, hgroups, hmem, hcores, rfl⟩

end

/-- Settles O53: each command of the round by its conditions, and by what the round's sums and multicasts leave of the group. -/
theorem collectiveStepsReduceCommitAndPublish : Obligations.CollectiveStepsReduceCommitAndPublish := by
  intro s gid g hg hphase
  refine ⟨fun r e hr => sendMember_reached hr e, fun layer hnew hlayer => layerDoorbell_notes hg hphase hnew hlayer,
    fun c hgid => ⟨fun hpark => chunks_parked hpark c, fun hpark => ⟨fun h => chunks_outOfStep hg hphase hpark hgid h,
      fun hlo hhi hok => ⟨fun hserve hnode hnew hopen => contribChunk_joins hg hphase hpark hgid hlo hhi hok hserve hnode hnew hopen,
        fun node hinc hown hnode hnew hopen => partialChunk_joins hg hphase hpark hgid hlo hhi hok hinc hown hnode hnew hopen⟩,
      fun hlo hhi hok hown => updateChunk_writes hg hphase hpark hgid hok hlo hhi hown,
      fun st rest hpull hst hok => pullAnswer_writes hg hphase hpark hgid hok hpull hst⟩⟩,
    fun layer hdone hnew => collDeadline_takes hg hphase hdone hnew,
    fun hlead => ⟨fun rank howner hnew => ⟨fun b hd => shardDone_decided hg hphase hlead howner hnew b hd,
      fun hd => ⟨shardDone_incomplete hg hphase hlead howner hnew hd, fun hall => shardDone_last hg hphase hlead howner hnew hd hall,
        fun hsome => shardDone_open hg hphase hlead howner hnew hd hsome⟩⟩,
      fun hd => leaderStepTimeout_decided hg hphase hd,
      fun hd hmode hlayers hlate => leaderStepTimeout_aborts hg hphase hlead hd hmode hlayers hlate⟩,
    collCommit_publishes hg hphase, collAbort_restarts hg hphase, fun blk rank => updateAck_ends hg hphase blk rank,
    fun rank hwait => mcDropped_ends hg hphase hwait, fun owner hstep hp => dropped_pulls hg hphase hstep hp,
    fun blk rank hstep hown hblk => pull_answers hg hphase hstep hown hblk⟩

end Sys2Proof.Machine

/-! ### Connections of the request protocol (R369 to R376, R384) -/

namespace Sys2Proof.Machine

/-! #### What sending and the landing zone leave of the connections -/

theorem conn_congr {s t : State} (h : t.pds = s.pds) (k : Fin 4) (n : Nat) : t.conn k n = s.conn k n := by
  rw [State.conn, State.conn, State.pd, State.pd, h]

theorem setLink_pds (s : State) (i : LinkId) (x : Link) : (s.setLink i x).pds = s.pds := by cases i <;> rfl

theorem transmit_pds (s : State) (p : Fin 8) (e : Emit) : (s.transmit p e).pds = s.pds := by
  simp only [State.transmit]
  split
  · rfl
  split <;> rfl

theorem transmits_pds (s : State) (p : Fin 8) (es : List Emit) : (s.transmits p es).pds = s.pds :=
  foldl_field State.pds _ (fun s e => transmit_pds s p e) es s

theorem wireOut_pds (s : State) (i : LinkId) (es : List Emit) : (wireOut s i es).pds = s.pds := by
  cases i with
  | direct l => rfl
  | routed k node slot => exact transmits_pds ..

theorem sendFrame_pds (s : State) (i : LinkId) (x : Link) (f : NzFrame) : (sendFrame s i x f).pds = s.pds := by
  rw [sendFrame, nzOut, wireOut_pds]
  exact setLink_pds ..

theorem pump_pds (i : LinkId) (n : Nat) (s : State) : (pump i n s).pds = s.pds := by
  induction n generalizing s with
  | zero => rfl
  | succ n ih =>
    rw [pump]
    split
    · rfl
    split
    · rfl
    split
    · rfl
    · rw [ih, sendFrame_pds]

theorem sendBytes_pds (s : State) (i : LinkId) (vc n : Nat) (e : Emit) : (sendBytes s i vc n e).pds = s.pds := by
  rw [sendBytes]
  split
  · rfl
  rw [pumpAll]
  split
  · exact setLink_pds ..
  · rw [pump_pds, setLink_pds]

theorem forwardCancel_pds (s : State) (x : Conn) : (forwardCancel s x).pds = s.pds := by
  rw [forwardCancel]
  split
  · rfl
  · exact sendBytes_pds ..

theorem forwardCancel_cores (s : State) (x : Conn) : (forwardCancel s x).cores = s.cores := by
  rw [forwardCancel]
  split
  · rfl
  · exact inside_cores (sendBytes_inside ..)

theorem lzPut_pds (s : State) (a : Nat) (b : Byte) : (lzPut s a b).pds = s.pds := by simp [lzPut]

theorem lzPuts_pds (s : State) (a : Nat) (bs : List Byte) : (lzPuts s a bs).pds = s.pds := by
  induction bs generalizing s a with
  | nil => rfl
  | cons b bs ih => rw [lzPuts, ih, lzPut_pds]

theorem lzPuts_lz (s : State) (a : Nat) (bs : List Byte) : (lzPuts s a bs).lz = s.lz := by
  induction bs generalizing s a with
  | nil => rfl
  | cons b bs ih => simp [lzPuts, ih, lzPut]

theorem lzPuts_wiresOut (s : State) (a : Nat) (bs : List Byte) : (lzPuts s a bs).wiresOut = s.wiresOut := by
  induction bs generalizing s a with
  | nil => rfl
  | cons b bs ih => rw [lzPuts, ih, lzPut_wiresOut]

theorem wiresOut_cores {s t : State} (h : t.wiresOut = s.wiresOut) : t.cores = s.cores := wires_cores (congrArg (·.1) h)

theorem wiresOut_out {s t : State} (h : t.wiresOut = s.wiresOut) : t.out = s.out := congrArg (·.2) h

theorem wiresOut_drawn {s t : State} (h : t.wiresOut = s.wiresOut) : t.drawn = s.drawn := wires_drawn (congrArg (·.1) h)

theorem lzRelease_pds (s : State) (b n : Nat) : (lzRelease s b n).pds = s.pds := by
  refine foldl_field State.pds _ (fun s i => ?_) (List.range (n * 4096)) s
  split
  · rfl
  · exact lzPut_pds ..

theorem lzRelease_cores (s : State) (b n : Nat) : (lzRelease s b n).cores = s.cores := wiresOut_cores (lzRelease_wiresOut ..)

theorem lzRelease_out (s : State) (b n : Nat) : (lzRelease s b n).out = s.out := wiresOut_out (lzRelease_wiresOut ..)

/-! #### Messages of a connection (R375, R376) -/

section
variable {s : State} {k : Fin 4} {n : Nat} {x : Conn}

theorem sendBacklog_conn (h : s.conn k n = some x) : (sendBacklog s k n).conn k n
    = some { x with unacked := x.unacked ++ x.backlog.take (64 - x.unacked.length),
                    backlog := x.backlog.drop (64 - x.unacked.length) } := by
  simp only [sendBacklog, h]
  rw [conn_congr (transmits_pds ..), conn_setConn_self]

/-- With nothing held back, nothing goes out. -/
theorem sendBacklog_nil (h : s.conn k n = some x) (hx : x.backlog = []) : sendBacklog s k n = s.setConn k n (some x) := by
  simp only [sendBacklog, h, hx, List.take_nil, List.drop_nil, List.append_nil, List.map_nil]
  cases x
  cases hx
  rfl

theorem respond_conn (h : s.conn k n = some x) (hvia : x.via = none) (kind : Nat) (body : List Byte) :
    ∃ y, (respond s k n kind body).conn k n = some y ∧ y.via = none := by
  simp only [respond, h, hvia]
  exact ⟨_, sendBacklog_conn (conn_setConn_self ..), rfl⟩

/-- The last message of a connection of this module's own client. -/
theorem finalStatus_conn (h : s.conn k n = some x) (hvia : x.via = none) (hphase : x.phase ≠ .kept) (c : Code) :
    ∃ y, (finalStatus s k n c).conn k n = some y ∧ y.phase = .closing ∧ y.statusSent = some (codeValue c) := by
  obtain ⟨y, hy, hyvia⟩ := respond_conn h hvia 2 (toBytes 2 (codeValue c))
  have hkept : ¬(s.conn k n).any (fun x => decide (x.phase = .kept)) = true := by simp [h, hphase]
  simp only [finalStatus, if_neg hkept, hy, hyvia, Option.isSome_none]
  exact ⟨_, conn_setConn_self .., rfl, rfl⟩

/-- The end of a connection gives its space back, with the same record left. -/
theorem closed_conn (h : s.conn k n = some x) (hvia : x.via = none) (hphase : x.phase ≠ .kept) (c : Code) (b m : Nat) :
    ∃ y, (lzRelease (finalStatus s k n c) b m).conn k n = some y ∧ y.phase = .closing ∧ y.statusSent = some (codeValue c) := by
  obtain ⟨y, hy, hrest⟩ := finalStatus_conn h hvia hphase c
  exact ⟨y, (conn_congr (lzRelease_pds ..) k n).trans hy, hrest⟩

theorem closed_cores (s : State) (k : Fin 4) (n : Nat) (c : Code) (b m : Nat) :
    (lzRelease (finalStatus s k n c) b m).cores = s.cores :=
  (lzRelease_cores ..).trans (inside_cores (finalStatus_inside ..))

theorem keepConn_conn (s : State) (k : Fin 4) (n : Nat) (x : Conn) : ∃ y, (keepConn s k n x).conn k n = some y ∧ y.phase = .kept :=
  ⟨_, conn_setConn_self .., rfl⟩

/-! #### RQACK and a FIRST segment (R371 to R373) -/

theorem sendRqack_conn (s : State) (k : Fin 4) (n : Nat) (x : Conn) :
    (sendRqack s k n x).conn k n = some { x with unackedRq := 0 } :=
  (conn_congr (transmit_pds ..) k n).trans (conn_setConn_self ..)

theorem sendRqack_inside (s : State) (k : Fin 4) (n : Nat) (x : Conn) : (sendRqack s k n x).inside = s.inside :=
  (transmit_inside ..).trans (setConn_inside ..)

theorem inside_lz {s t : State} (h : t.inside = s.inside) : t.lz = s.lz := by
  change t.inside.lz = s.inside.lz
  rw [h]

/-- The record with one more segment of its request. -/
def Conn.withSegment (x : Conn) (seg : RqSegment) : Conn :=
  let got := Sparse.set false x.got seg.seq true
  let runs := addRun x.runs seg.offset (seg.offset + seg.payload.length)
  { x with got := got, runs := runs, ackNext := nextAck got (got.length + 1) x.ackNext, unackedRq := x.unackedRq + 1,
           phase := if decide (runs = [(0, x.tlen)]) then .whole else .receiving }

/-- A record is put back, with an acknowledgement where one is due. -/
def putAcked (due : Prop) [Decidable due] (s : State) (k : Fin 4) (n : Nat) (x : Conn) : State :=
  if due then sendRqack (s.setConn k n (some x)) k n x else s.setConn k n (some x)

theorem takeSegment_eq (s : State) (k : Fin 4) (n : Nat) (x : Conn) (seg : RqSegment) : takeSegment s k n x seg =
    let s' := putAcked (seg.seq ≠ x.ackNext ∨ 8 ≤ (x.withSegment seg).unackedRq) (landSegment s x seg) k n (x.withSegment seg)
    match s'.conn k n with
    | none => s'
    | some z => if decide ((x.withSegment seg).runs = [(0, x.tlen)]) = true ∧ z.pre.fwd = true ∧ z.pre.dslot ≠ s.slotNo then forwardOut s' k n z
      else s' := rfl

theorem putAcked_spec (due : Prop) [Decidable due] (s : State) (k : Fin 4) (n : Nat) (x : Conn) : ∃ u,
    (putAcked due s k n x).conn k n = some { x with unackedRq := u } ∧ (putAcked due s k n x).inside = s.inside := by
  rw [putAcked]
  split
  · exact ⟨_, sendRqack_conn .., (sendRqack_inside ..).trans (setConn_inside ..)⟩
  · exact ⟨_, conn_setConn_self .., setConn_inside ..⟩

/-- A segment of a request that this module serves leaves the record at its key, in its space. -/
theorem takeSegment_spec (s : State) (k : Fin 4) (n : Nat) (x : Conn) (seg : RqSegment) (hfwd : x.pre.fwd = false) :
    ∃ y, (takeSegment s k n x seg).conn k n = some y ∧ y.key = x.key ∧ y.lzBase = x.lzBase ∧ y.lzLen = x.lzLen
      ∧ (takeSegment s k n x seg).lz = s.lz ∧ (takeSegment s k n x seg).cores = s.cores := by
  have hlz : (landSegment s x seg).lz = s.lz := lzPuts_lz ..
  have hcores : (landSegment s x seg).cores = s.cores := wiresOut_cores (lzPuts_wiresOut ..)
  obtain ⟨u, hconn, hinside⟩ := putAcked_spec (seg.seq ≠ x.ackNext ∨ 8 ≤ (x.withSegment seg).unackedRq)
    (landSegment s x seg) k n (x.withSegment seg)
  have hserved : ¬(decide ((x.withSegment seg).runs = [(0, x.tlen)]) = true ∧ x.pre.fwd = true ∧ x.pre.dslot ≠ s.slotNo) := by simp [hfwd]
  have htake : takeSegment s k n x seg = putAcked (seg.seq ≠ x.ackNext ∨ 8 ≤ (x.withSegment seg).unackedRq)
      (landSegment s x seg) k n (x.withSegment seg) := by
    rw [takeSegment_eq]
    simp only [hconn]
    exact if_neg hserved
  rw [htake]
  exact ⟨_, hconn, rfl, rfl, rfl, (inside_lz hinside).trans hlz, (inside_cores hinside).trans hcores⟩

end

section
variable {s : State} {k : Fin 4} {seg : RqSegment}

theorem execRqSegment_new (hup : s.ethUp seg.key.port = true) (hk : pdOf seg.key.port = k) (hnone : s.findConn k seg.key = none)
    (hfirst : seg.first = true) (hfits : seg.fits = true) : exec (.rqSegment seg) s = .next (openConn s k seg) := by
  subst hk
  have hexec : exec (.rqSegment seg) s = execRqSegment seg s := rfl
  simp only [hexec, execRqSegment, hup, hfits, hnone, hfirst, Bool.true_eq_false, or_self, if_false, if_true]

section
variable {pre : Preamble} (hoffset : seg.offset = 0) (hpre : preambleOf seg.payload = some pre) (hgood : preGood pre = true)
  (hlen : seg.payload.length ≤ preTotal pre)
include hoffset hpre hgood hlen

/-- A FIRST segment whose preamble holds to the rules is taken, or turned away. -/
theorem openConn_eq (s : State) (k : Fin 4) : openConn s k seg =
    match s.parking, s.freeConn k, lzAlloc s (ceilDiv pre.clen 4096) with
    | false, some n, some b =>
      takeSegment { s.setConn k n (some (Conn.start seg.key pre b (ceilDiv pre.clen 4096))) with
        lz := s.lz ++ [(b, ceilDiv pre.clen 4096)] } k n (Conn.start seg.key pre b (ceilDiv pre.clen 4096)) seg
    | _, _, _ => turnAway s seg.key := by
  have hshort : ¬preTotal pre < seg.offset + seg.payload.length := by omega
  rw [openConn, if_neg (not_not_intro hoffset)]
  simp only [hpre, hgood, Bool.true_eq_false, if_false, if_neg hshort] <;> rfl

theorem openConn_full (hfull : s.parking = true ∨ s.freeConn k = none ∨ lzAlloc s (ceilDiv pre.clen 4096) = none) :
    openConn s k seg = turnAway s seg.key := by
  rw [openConn_eq hoffset hpre hgood hlen]
  split
  next hp hc ha =>
    rw [hp, hc, ha] at hfull
    simp at hfull
  · rfl

end

end

/-! #### REQUEST_OPEN (R377 to R380, R424) -/

section
variable {s : State} {k : Fin 4} {n : Nat} {x : Conn}

theorem openFail_spec (h : s.conn k n = some x) (hphase : x.phase = .whole) (hvia : x.via = none) (c : Code) :
    ∃ y, (openFail s k n x c).conn k n = some y ∧ y.phase = .closing ∧ y.statusSent = some (codeValue c)
      ∧ (openFail s k n x c).cores = s.cores := by
  have hkept : x.phase ≠ .kept := by simp [hphase]
  obtain ⟨y, hy, hclosing, hstatus⟩ := closed_conn h hvia hkept c x.lzBase x.lzLen
  simp only [openFail, refuseConn, h]
  exact ⟨y, hy, hclosing, hstatus, closed_cores s k n c x.lzBase x.lzLen⟩

theorem spillReq_pds (s : State) (k : Fin 4) (hm : Fin 2) (q : Ingress) (a b : Nat) : (spillReq s k hm q a b).pds = s.pds :=
  foldl_field State.pds _ (fun _ _ => lzPuts_pds ..) (List.range (b - a)) s

theorem spillReq_wiresOut (s : State) (k : Fin 4) (hm : Fin 2) (q : Ingress) (a b : Nat) :
    (spillReq s k hm q a b).wiresOut = s.wiresOut :=
  foldl_field State.wiresOut _ (fun _ _ => lzPuts_wiresOut ..) (List.range (b - a)) s

/-- An ingress queue with one more item, which has spent its credits. -/
def Ingress.pushed (q : Ingress) (i : ReqItem) : Ingress := { q with items := q.items ++ [i], credits := q.credits - 3 }.advance 0 3

theorem sendReq_pds (s : State) (k : Fin 4) (hm : Fin 2) (i : ReqItem) : (sendReq s k hm i).pds
    = (s.setPd k { s.pd k with ingress := (s.pd k).ingress.set hm.val (((s.pd k).ingress.get hm).pushed i) hm.isLt }).pds := by
  simp only [sendReq]
  split <;> exact spillReq_pds ..

theorem sendReq_cores (s : State) (k : Fin 4) (hm : Fin 2) (i : ReqItem) : (sendReq s k hm i).cores = s.cores := by
  simp only [sendReq]
  split <;> exact (wiresOut_cores (spillReq_wiresOut ..)).trans rfl

theorem sendReq_drawn (s : State) (k : Fin 4) (hm : Fin 2) (i : ReqItem) : (sendReq s k hm i).drawn = s.drawn := by
  simp only [sendReq]
  split <;> exact (wiresOut_drawn (spillReq_wiresOut ..)).trans rfl

theorem sendReq_conn (s : State) (k : Fin 4) (n : Nat) (hm : Fin 2) (i : ReqItem) : (sendReq s k hm i).conn k n = s.conn k n := by
  rw [conn_congr (sendReq_pds ..), State.conn, pd_setPd_self, State.conn]

theorem sendReq_ingress (s : State) (k : Fin 4) (hm : Fin 2) (i : ReqItem) :
    ((sendReq s k hm i).pd k).ingress.get hm = ((s.pd k).ingress.get hm).pushed i := by
  rw [State.pd, sendReq_pds]
  have h := congrArg (fun x : PortDie => x.ingress.get hm) (pd_setPd_self s k
    { s.pd k with ingress := (s.pd k).ingress.set hm.val (((s.pd k).ingress.get hm).pushed i) hm.isLt })
  exact h.trans (Vector.getElem_set_self _)

end

end Sys2Proof.Machine

/-! ### Requests are received, opened and answered (R369 to R385) -/

namespace Sys2Proof.Machine

section
variable {s : State} {k : Fin 4} {n : Nat} {x : Conn} (h : s.conn k n = some x)
include h

/-! #### REQUEST_OPEN -/

section
variable (hphase : x.phase = .whole)
include hphase

theorem execRequestOpen_key (hkey : openKey s x.pre = none) (r : OpenResult) :
    exec (.requestOpen k n r) s = .next (openFail s k n x .refusedKey) := by
  have hexec : exec (.requestOpen k n r) s = execRequestOpen k n r s := rfl
  simp only [hexec, execRequestOpen, h, hphase, hkey, ne_eq, not_true_eq_false, if_false]

theorem execRequestOpen_auth {pki : Nat} (hkey : openKey s x.pre = some pki) :
    exec (.requestOpen k n .authFail) s = .next (openFail s k n x .refusedAuth) := by
  have hexec : exec (.requestOpen k n .authFail) s = execRequestOpen k n .authFail s := rfl
  simp only [hexec, execRequestOpen, h, hphase, hkey, ne_eq, not_true_eq_false, if_false]

theorem execRequestOpen_plain {pki : Nat} {b : List Byte} (hkey : openKey s x.pre = some pki) (hb : b.length = x.plainLen) :
    exec (.requestOpen k n (.plain b)) s = .next (openPlain s k n x pki b) := by
  have hexec : exec (.requestOpen k n (.plain b)) s = execRequestOpen k n (.plain b) s := rfl
  simp only [hexec, execRequestOpen, h, hphase, hkey, hb, ne_eq, not_true_eq_false, if_false, if_true]

end

/-- The state in which an opened request's plaintext stands, with its record in place. -/
def openedState (s : State) (k : Fin 4) (n : Nat) (x y : Conn) (b : List Byte) : State :=
  (lzPuts { s with drawn := s.drawn + 1 } (x.lzBase * 4096) (b ++ List.replicate 16 0)).setConn k n (some y)

omit h in
theorem openedState_spec (s : State) (k : Fin 4) (n : Nat) (x y : Conn) (b : List Byte) :
    (openedState s k n x y b).drawn = s.drawn + 1 ∧ (openedState s k n x y b).cores = s.cores
      ∧ (openedState s k n x y b).conn k n = some y ∧ ((openedState s k n x y b).pd k).ingress = (s.pd k).ingress := by
  have hwires := lzPuts_wiresOut { s with drawn := s.drawn + 1 } (x.lzBase * 4096) (b ++ List.replicate 16 0)
  have hpds := lzPuts_pds { s with drawn := s.drawn + 1 } (x.lzBase * 4096) (b ++ List.replicate 16 0)
  refine ⟨(wiresOut_drawn hwires :), (wiresOut_cores hwires :), conn_setConn_self .., ?_⟩
  rw [openedState, State.setConn, pd_setPd_self]
  exact congrArg (fun v : Vector PortDie 4 => (v.get k).ingress) hpds

/-- A load request waits for the loader. -/
theorem requestOpen_load (hphase : x.phase = .whole) {pki : Nat} {b : List Byte} (hkey : openKey s x.pre = some pki)
    (hkeyid : x.pre.keyid = 0) (hb : b.length = x.plainLen) :
    ∃ t, exec (.requestOpen k n (.plain b)) s = .next t ∧ t.drawn = s.drawn + 1 ∧ t.cores = s.cores
      ∧ t.conn k n = some { x with phase := .opened, sealed := true, sclass := 0, load := some (loadHeadOf (plainHead b)),
                                   staging := some (Config.responseKey s.drawn) }
      ∧ (t.pd k).ingress = (s.pd k).ingress := by
  have hopen : openPlain s k n x pki b = openedState s k n x { x with
      phase := .opened, sealed := true, sclass := 0, load := some (loadHeadOf (plainHead b)),
      staging := some (Config.responseKey s.drawn) } b := by
    rw [openPlain, if_pos hkeyid]
    rfl
  exact ⟨_, (execRequestOpen_plain h hphase hkey hb).trans (congrArg Host.Outcome.next hopen), openedState_spec ..⟩

/-- Any other becomes the tail of the ingress queue of the Helm with more room. -/
theorem requestOpen_item (hphase : x.phase = .whole) {pki : Nat} {b : List Byte} (hkey : openKey s x.pre = some pki)
    (hkeyid : x.pre.keyid ≠ 0) (hb : b.length = x.plainLen) (hroom : 3 ≤ ((s.pd k).ingress.get (ingressHelm s)).credits) :
    ∃ t, exec (.requestOpen k n (.plain b)) s = .next t ∧ t.drawn = s.drawn + 1 ∧ t.cores = s.cores
      ∧ t.conn k n = some { x with phase := .opened, sealed := true, sclass := (innerOf (plainHead b)).sclass.val,
                                   staging := some (Config.responseKey s.drawn) }
      ∧ (t.pd k).ingress.get (ingressHelm s) = ((s.pd k).ingress.get (ingressHelm s)).pushed
          { crec := n, pd := k, port := x.key.port, conn := x.key.conn, lzBase := x.lzBase, lzLen := x.lzLen, pki := pki,
            head := plainHead b, bodyLen := b.length - 64 } := by
  have hopen : openPlain s k n x pki b = sendReq (openedState s k n x { x with
      phase := .opened, sealed := true, sclass := (innerOf (plainHead b)).sclass.val,
      staging := some (Config.responseKey s.drawn) } b) k (ingressHelm s)
      { crec := n, pd := k, port := x.key.port, conn := x.key.conn, lzBase := x.lzBase, lzLen := x.lzLen, pki := pki,
        head := plainHead b, bodyLen := b.length - 64 } := by
    rw [openPlain, if_neg hkeyid, if_neg (Nat.not_lt.2 hroom)]
    rfl
  refine ⟨_, (execRequestOpen_plain h hphase hkey hb).trans (congrArg Host.Outcome.next hopen), ?_⟩
  obtain ⟨hdrawn, hcores, hconn, hingress⟩ := openedState_spec s k n x { x with
      phase := .opened, sealed := true, sclass := (innerOf (plainHead b)).sclass.val,
      staging := some (Config.responseKey s.drawn) } b
  exact ⟨(sendReq_drawn ..).trans hdrawn, (sendReq_cores ..).trans hcores, (sendReq_conn ..).trans hconn,
    (sendReq_ingress ..).trans (by rw [hingress])⟩

/-! #### Acknowledgements, cancels and timers -/

theorem execRqackTimer_eq : exec (.rqackTimer k n) s = .next (if 0 < x.unackedRq then sendRqack s k n x else s) := by
  have hexec : exec (.rqackTimer k n) s = execRqackTimer k n s := rfl
  simp only [hexec, execRqackTimer, h]

/-- Once every segment that went out is acknowledged, nothing goes out; a record at its end is kept. -/
theorem execRsack_all {ack : Nat} (sack : BitVec 64) (hback : x.backlog = []) (hack : ∀ g ∈ x.unacked, g.seq < ack) :
    exec (.rsack k n ack sack) s = .next (
      let s1 := (s.setConn k n (some { x with unacked := [] })).setConn k n (some { x with unacked := [] })
      if x.phase = .closing then keepConn s1 k n { x with unacked := [] } else s1) := by
  have hexec : exec (.rsack k n ack sack) s = execRsack k n ack sack s := rfl
  have hopen : x.unacked.filter (fun g =>
      decide (ack ≤ g.seq) && !(decide (ack < g.seq) && sack.getLsbD (g.seq - ack - 1))) = [] := by
    refine List.filter_eq_nil_iff.2 fun g hg => ?_
    simp [Nat.not_le.2 (hack g hg)]
  have hidle : sendBacklog (s.setConn k n (some { x with unacked := [] })) k n
      = (s.setConn k n (some { x with unacked := [] })).setConn k n (some { x with unacked := [] }) :=
    sendBacklog_nil (conn_setConn_self ..) hback
  simp only [hexec, execRsack, h, hopen]
  rw [hidle, conn_setConn_self]
  simp only [hback, and_true]

theorem execRqpCancel_closing (hphase : x.phase = .receiving ∨ x.phase = .whole) :
    exec (.rqpCancel k n) s = .next (lzRelease (finalStatus s k n .endCancel) x.lzBase x.lzLen) := by
  have hexec : exec (.rqpCancel k n) s = execRqpCancel k n s := rfl
  cases hphase with
  | inl hp => simp only [hexec, execRqpCancel, h, hp]
  | inr hp => simp only [hexec, execRqpCancel, h, hp]

theorem execRqpCancel_forwarded {l : Fin 8} (hphase : x.phase = .forwarded) (hl : s.linkTo x.pre.dslot = some l) :
    exec (.rqpCancel k n) s = .next (sendBytes s (.direct l) 1 64 (.forwardCancel l x.key)) := by
  have hexec : exec (.rqpCancel k n) s = execRqpCancel k n s := rfl
  simp only [hexec, execRqpCancel, h, hphase, forwardCancel, hl]

theorem execRsRetransmit_again {g : RsSeg} (hg : x.unacked = [g]) (htries : g.tries < 12) :
    exec (.rsRetransmit k n g.seq) s = .next
      (((s.setConn k n (some { x with unacked := [{ g with tries := g.tries + 1 }] })).bump (portCtr x.key.port.val 0x28) 1).transmit
        x.key.port (rsPacket s x { g with tries := g.tries + 1 })) := by
  have hexec : exec (.rsRetransmit k n g.seq) s = execRsRetransmit k n g.seq s := rfl
  simp [hexec, execRsRetransmit, h, hg, htries]

/-- After twelve times the record is kept, and a request that another module serves is cancelled there. -/
theorem execRsRetransmit_last {g : RsSeg} (hg : x.unacked = [g]) (htries : 12 ≤ g.tries) (hphase : x.phase ≠ .opened) :
    ∃ t y, exec (.rsRetransmit k n g.seq) s = .next t ∧ t.conn k n = some y ∧ y.phase = .kept ∧ t.cores = s.cores := by
  have hexec : exec (.rsRetransmit k n g.seq) s = execRsRetransmit k n g.seq s := rfl
  have hcores : (if x.phase = .forwarded then forwardCancel s x else s).cores = s.cores := by
    split
    · exact forwardCancel_cores ..
    · rfl
  simp only [hexec, execRsRetransmit, h, hg, List.find?_cons, decide_true, if_neg (Nat.not_lt.2 htries), if_neg hphase]
  exact ⟨_, _, rfl, conn_setConn_self .., rfl, hcores⟩

theorem requestTimeout_spec (hphase : x.phase = .receiving) :
    ∃ t y, exec (.requestTimeout k n) s = .next t ∧ t.conn k n = some y ∧ y.phase = .kept ∧ t.cores = s.cores
      ∧ t.out = (statusOnce s x.key .refusedTimeout).out := by
  have hexec : exec (.requestTimeout k n) s = execRequestTimeout k n s := rfl
  simp only [hexec, execRequestTimeout, h, hphase, ne_eq, not_true_eq_false, if_false]
  refine ⟨_, _, rfl, conn_setConn_self .., rfl, ?_, ?_⟩
  · exact (lzRelease_cores ..).trans (inside_cores (transmit_inside ..))
  · exact lzRelease_out ..

omit h in
theorem transmit_up (s : State) {p : Fin 8} (e : Emit) (hup : s.ethUp p = true) (hheld : (s.ports.get p).held = false) :
    s.transmit p e = s.emit e := by
  have hup' : (s.ports.get p).up = true := hup
  simp only [State.transmit, hup', hheld, Bool.true_eq_false, Bool.false_eq_true, if_false]

theorem execRequestTimeout_other (hphase : x.phase ≠ .receiving) : exec (.requestTimeout k n) s = .next s := by
  have hexec : exec (.requestTimeout k n) s = execRequestTimeout k n s := rfl
  simp only [hexec, execRequestTimeout, h, if_pos hphase]

theorem execConnRecordExpiry_other (hphase : x.phase ≠ .kept) : exec (.connRecordExpiry k n) s = .next s := by
  have hexec : exec (.connRecordExpiry k n) s = execConnRecordExpiry k n s := rfl
  simp only [hexec, execConnRecordExpiry, h, if_pos hphase]

/-- A record that was kept is freed, and with it the space of a request that was sent on. -/
theorem connRecordExpiry_spec (hphase : x.phase = .kept) : ∃ t, exec (.connRecordExpiry k n) s = .next t ∧ t.conn k n = none
    ∧ (∀ m, m ≠ n → t.conn k m = s.conn k m) ∧ t.out = s.out := by
  have hexec : exec (.connRecordExpiry k n) s = execConnRecordExpiry k n s := rfl
  simp only [hexec, execConnRecordExpiry, h, hphase, ne_eq, not_true_eq_false, if_false]
  refine ⟨_, rfl, ?_⟩
  split
  · exact ⟨(conn_congr (lzRelease_pds ..) k n).trans (conn_setConn_self ..),
      fun m hm => (conn_congr (lzRelease_pds ..) k m).trans (conn_setConn_ne s k hm none), lzRelease_out ..⟩
  · exact ⟨conn_setConn_self .., fun m hm => conn_setConn_ne s k hm none, rfl⟩

end

/-! #### The statement -/

section
variable {s : State} {k : Fin 4} {seg : RqSegment}

/-- A FIRST segment that opens a connection. -/
theorem rqSegment_opens {pre : Preamble} {n b : Nat} (hup : s.ethUp seg.key.port = true) (hk : pdOf seg.key.port = k)
    (hnone : s.findConn k seg.key = none) (hfirst : seg.first = true) (hfits : seg.fits = true) (hoffset : seg.offset = 0)
    (hpre : preambleOf seg.payload = some pre) (hgood : preGood pre = true) (hlen : seg.payload.length ≤ preTotal pre)
    (hfwd : pre.fwd = false) (hpark : s.parking = false) (hfree : s.freeConn k = some n)
    (halloc : lzAlloc s (ceilDiv pre.clen 4096) = some b) :
    ∃ t y, exec (.rqSegment seg) s = .next t ∧ t.conn k n = some y ∧ y.key = seg.key ∧ y.lzBase = b
      ∧ y.lzLen = ceilDiv pre.clen 4096 ∧ t.lz = s.lz ++ [(b, ceilDiv pre.clen 4096)] ∧ t.cores = s.cores := by
  have hexec := execRqSegment_new hup hk hnone hfirst hfits
  rw [openConn_eq hoffset hpre hgood hlen, hpark, hfree, halloc] at hexec
  obtain ⟨y, hrest⟩ := takeSegment_spec { s.setConn k n (some (Conn.start seg.key pre b (ceilDiv pre.clen 4096))) with
    lz := s.lz ++ [(b, ceilDiv pre.clen 4096)] } k n (Conn.start seg.key pre b (ceilDiv pre.clen 4096)) seg hfwd
  exact ⟨_, y, hexec, hrest⟩

/-- A segment that has come is acknowledged again. -/
theorem rqSegment_again {n : Nat} {x : Conn} (hup : s.ethUp seg.key.port = true) (hk : pdOf seg.key.port = k)
    (hconn : s.findConn k seg.key = some (n, x)) (hvia : x.via = none) (hfits : seg.fits = true)
    (hgot : Sparse.get false x.got seg.seq = true) : exec (.rqSegment seg) s = .next (sendRqack s k n x) := by
  subst hk
  have hexec : exec (.rqSegment seg) s = execRqSegment seg s := rfl
  simp only [hexec, execRqSegment, hup, hfits, hconn, hgot, hvia, Option.isSome_none, Bool.true_eq_false, Bool.false_eq_true,
    or_self, true_or, if_true, if_false]

end

/-- Settles O48: a case for each command and phase of the record. -/
theorem requestsAreReceivedOpenedAndAnswered : Obligations.RequestsAreReceivedOpenedAndAnswered := by
  unfold Obligations.RequestsAreReceivedOpenedAndAnswered
  intro s k n
  refine ⟨fun seg pre b hup hk hnone hfirst hfits hoffset hpre hgood hlen hfwd => ⟨?_, fun hfull => ?_⟩,
    fun seg x hup hk hconn hvia hfits hgot => rqSegment_again hup hk hconn hvia hfits hgot, fun x h => ?_⟩
  · exact rqSegment_opens hup hk hnone hfirst hfits hoffset hpre hgood hlen hfwd
  · rw [execRqSegment_new hup hk hnone hfirst hfits, openConn_full hoffset hpre hgood hlen hfull, turnAway]
  refine ⟨fun hphase hvia => ⟨fun r hkey => ?_, fun pki hkey => ?_, fun pki b hkey hkeyid hb => ?_, fun pki b hkey hkeyid hb => ?_⟩,
    fun ack sack hback hack => ?_, fun hphase hvia => ?_, fun l => execRqpCancel_forwarded h, fun hn => ?_, fun hn => ?_,
    fun g hg => ⟨execRsRetransmit_again h hg, execRsRetransmit_last h hg⟩, fun hphase => ?_, execRequestTimeout_other h,
    execConnRecordExpiry_other h, connRecordExpiry_spec h⟩
  · obtain ⟨y, hrest⟩ := openFail_spec h hphase hvia .refusedKey
    exact ⟨_, y, execRequestOpen_key h hphase hkey r, hrest⟩
  · obtain ⟨y, hrest⟩ := openFail_spec h hphase hvia .refusedAuth
    exact ⟨_, y, execRequestOpen_auth h hphase hkey, hrest⟩
  · exact requestOpen_load h hphase hkey hkeyid hb
  · intro q hroom
    obtain ⟨t, hexec, hdrawn, hcores, hconn, hqueue⟩ := requestOpen_item h hphase hkey hkeyid hb hroom
    exact ⟨t, hexec, hdrawn, hcores, hconn, congrArg Ingress.credits hqueue, congrArg Ingress.items hqueue⟩
  · have hexec := execRsack_all h sack hback hack
    refine ⟨fun hphase => ?_, fun hphase => ?_⟩
    · simp only [if_pos hphase] at hexec
      exact ⟨_, _, hexec, conn_setConn_self .., rfl, rfl⟩
    · simp only [if_neg hphase] at hexec
      exact ⟨_, hexec, conn_setConn_self .., rfl⟩
  · have hkept : x.phase ≠ .kept := by rintro hp; simp [hp] at hphase
    obtain ⟨y, hconn, hclosing, hstatus⟩ := closed_conn h hvia hkept .endCancel x.lzBase x.lzLen
    exact ⟨_, y, execRqpCancel_closing h hphase, hconn, hclosing, hstatus, closed_cores ..⟩
  · rw [execRqackTimer_eq h, hn]
    rfl
  · rw [execRqackTimer_eq h, if_pos hn]
    rfl
  · obtain ⟨t, y, hexec, hconn, hkept, hcores, hout⟩ := requestTimeout_spec h hphase
    refine ⟨t, y, hexec, hconn, hkept, hcores, fun hup hheld => ?_⟩
    rw [hout, statusOnce, transmit_up s _ hup hheld]
    rfl

end Sys2Proof.Machine

/-! ### Forwarded requests and the loader (R252, R257, R382, R424 to R426) -/

namespace Sys2Proof.Machine

/-! #### Requests and responses of another module (R382) -/

theorem forwardedRequest_spec {s : State} {l : Fin 8} {src n b : Nat} {pre : Preamble} {body : List Byte} (key : ConnKey)
    (hup : s.linkUp l = true) (hsrc : slotOn s.slotNo l = src) (hbody : body.length = pre.clen) (hpark : s.parking = false)
    (hfree : s.freeConn (pdOf l) = some n) (halloc : lzAlloc s (ceilDiv pre.clen 4096) = some b) :
    ∃ t y, exec (.forwardedRequest l src key pre body) s = .next t ∧ t.conn (pdOf l) n = some y ∧ y.key = key ∧ y.phase = .whole
      ∧ y.via = some l ∧ y.lzBase = b ∧ t.lz = s.lz ++ [(b, ceilDiv pre.clen 4096)] ∧ t.cores = s.cores := by
  have hexec : exec (.forwardedRequest l src key pre body) s = execForwardedRequest l src key pre body s := rfl
  simp only [hexec, execForwardedRequest, hup, hsrc, hbody, hpark, hfree, halloc, Bool.true_eq_false, ne_eq, not_true_eq_false,
    or_self, if_false]
  exact ⟨_, _, rfl, (conn_congr (lzPuts_pds ..) (pdOf l) n).trans (conn_setConn_self ..), rfl, rfl, rfl, rfl, lzPuts_lz ..,
    wiresOut_cores (lzPuts_wiresOut ..)⟩

/-- A body that is already sealed is the connection's next message. -/
theorem relay_spec (s : State) (k : Fin 4) (n : Nat) (x : Conn) (kind : Nat) (body : List Byte) :
    ∃ y, (relay s k n x kind body).conn k n = some y ∧ y.nextMsg = x.nextMsg + 1 ∧ y.phase = x.phase
      ∧ (relay s k n x kind body).cores = s.cores :=
  ⟨_, sendBacklog_conn (conn_setConn_self ..), rfl, rfl, inside_cores (sendBacklog_inside ..)⟩

theorem forwardedResponse_spec {s : State} {l : Fin 8} {key : ConnKey} {b : Byte} {rest : List Byte} {n : Nat} {x : Conn}
    (hup : s.linkUp l = true) (hconn : s.findConn (pdOf key.port) key = some (n, x)) (hphase : x.phase = .forwarded) :
    ∃ t y, exec (.forwardedResponse l key (b :: rest)) s = .next t ∧ t.conn (pdOf key.port) n = some y ∧ y.nextMsg = x.nextMsg + 1
      ∧ y.phase = (if b.toNat = 2 then .closing else .forwarded) ∧ t.cores = s.cores := by
  obtain ⟨y, hy, hmsg, hyphase, hcores⟩ := relay_spec s (pdOf key.port) n x b.toNat rest
  have hexec : exec (.forwardedResponse l key (b :: rest)) s = execForwardedResponse l key (b :: rest) s := rfl
  simp only [hexec, execForwardedResponse, hup, hconn, hphase, hy, Bool.true_eq_false, ne_eq, not_true_eq_false, if_false]
  split
  · exact ⟨_, _, rfl, conn_setConn_self .., hmsg, rfl, hcores⟩
  · exact ⟨_, _, rfl, hy, hmsg, hyphase.trans hphase, hcores⟩

/-! #### The answer to a load request (R425) -/

theorem lzRelease_helm (s : State) (b n : Nat) : (lzRelease s b n).helm = s.helm := by
  refine foldl_field State.helm _ (fun s i => ?_) (List.range (n * 4096)) s
  split
  · rfl
  · simp [lzPut]

theorem answerLoad_spec (s : State) (h : LoadHeader) (c : Code) (sect entry : Nat) :
    (answerLoad s h c sect entry).helm = s.helm ∧ (answerLoad s h c sect entry).cores = s.cores
      ∧ .loadStatus h.phash h.part c sect entry ∈ (answerLoad s h c sect entry).out := by
  have hout : .loadStatus h.phash h.part c sect entry ∈ (s.emit (.loadStatus h.phash h.part c sect entry)).out :=
    List.mem_append_right _ (List.mem_singleton.2 rfl)
  rw [answerLoad]
  split
  · exact ⟨rfl, rfl, hout⟩
  · exact ⟨(lzRelease_helm ..).trans (inside_helm (finalStatus_inside ..)), closed_cores ..,
      ((finalStatus_grows ..).trans (.of_out (lzRelease_out ..))).mem hout⟩

theorem loadConn_congr {s t : State} (h : t.pds = s.pds) (hd : LoadHeader) : loadConn t hd = loadConn s hd := by
  simp only [loadConn, State.pd, h]

/-- With no connection to answer, the answer leaves memory alone. -/
theorem answerLoad_mem {s : State} {h : LoadHeader} (hconn : loadConn s h = none) (c : Code) (sect entry : Nat) :
    (answerLoad s h c sect entry).mem = s.mem := by
  have hemit : loadConn (s.emit (.loadStatus h.phash h.part c sect entry)) h = none := (loadConn_congr rfl h).trans hconn
  simp only [answerLoad, hemit]
  rfl

theorem refuseLoad_spec (s : State) (h : LoadHeader) (e : LoadErr) :
    (refuseLoad s h e).helm = s.helm ∧ (refuseLoad s h e).cores = s.cores
      ∧ .loadStatus h.phash h.part e.1 e.2.1 e.2.2 ∈ (refuseLoad s h e).out := answerLoad_spec ..

/-! #### The end of a load (R425) -/

theorem placeRegionCores_helm (s : State) (pi ri : Nat) (p : Pattern) (r : Region) (atLoad : Bool) :
    (placeRegionCores s pi ri p r atLoad).helm = s.helm := by
  refine foldl_field State.helm _ (fun s i => ?_) (List.range r.cores.length) s
  split <;> rfl

theorem finishLoad_helm (s : State) (pi : Nat) (p : Pattern) :
    (finishLoad s pi p).helm = { (s.setPat pi { p with resident := true }).helm with load := none } := by
  simp only [finishLoad, resumeReplans]
  exact foldl_field State.helm _ (fun s e => placeRegionCores_helm ..) _ _

section
variable (s : State) (pi : Nat) {p : Pattern} (h : LoadHeader)

/-- The last part makes the Pattern resident. -/
theorem loadProgress_last (hparts : p.partsDone.length = p.manifest.parts.length) :
    (loadProgress s pi p h).pat pi = some { p with resident := true } ∧ (loadProgress s pi p h).helm.load = none
      ∧ .loadStatus h.phash h.part .loadDone 0 0 ∈ (loadProgress s pi p h).out := by
  rw [loadProgress, if_pos hparts]
  obtain ⟨hhelm, -, hout⟩ := answerLoad_spec (finishLoad s pi p) h .loadDone 0 0
  rw [State.pat, hhelm, finishLoad_helm]
  exact ⟨pat_setPat_self .., rfl, hout⟩

/-- After any other the load goes on. -/
theorem loadProgress_more (hparts : p.partsDone.length ≠ p.manifest.parts.length) :
    (loadProgress s pi p h).pat pi = some p ∧ (loadProgress s pi p h).helm.load = s.helm.load
      ∧ (loadProgress s pi p h).cores = s.cores ∧ .loadStatus h.phash h.part .loadPartOk 0 0 ∈ (loadProgress s pi p h).out
      ∧ (loadConn s h = none → (loadProgress s pi p h).mem = s.mem) := by
  rw [loadProgress, if_neg hparts]
  obtain ⟨hhelm, hcores, hout⟩ := answerLoad_spec (s.setPat pi p) h .loadPartOk 0 0
  refine ⟨?_, ?_, hcores, hout, fun hconn => ?_⟩
  · rw [State.pat, hhelm]
    exact pat_setPat_self ..
  · rw [hhelm]
    rfl
  · exact answerLoad_mem (s := s.setPat pi p) ((loadConn_congr rfl h).trans hconn) ..

end

/-! #### LOAD_PART0 and LOAD_PART -/

section
variable {s : State} {h : LoadHeader}

theorem execLoadPart0_unlisted (m : Manifest) (hlist : listed s h.phash = false) :
    exec (.loadPart0 m h) s = .next (refuseLoad s h (.loadUnlisted, 0, 0)) := by
  have hexec : exec (.loadPart0 m h) s = execLoadPart0 m h s := rfl
  rw [hexec, execLoadPart0, if_pos hlist]

/-- The device with a manifest's reservation made, and its load begun. -/
def loadBegun (s s1 : State) : State := { s1 with helm := { s1.helm with load := some s.freePat, loads := s1.helm.loads + 1 } }

theorem execLoadPart0_reserved {m : Manifest} {s1 : State} {p : Pattern} (hlist : listed s h.phash = true)
    (hnew : s.patOfHash h.phash = none) (hidle : s.helm.load = none) (hhash : m.hash = h.phash) (hpart : h.part = 0)
    (hnpart : h.npart = m.parts.length + 1) (hreserve : reserve s s.freePat (newPattern s m) = .ok (s1, p)) :
    exec (.loadPart0 m h) s = .next (loadProgress (loadBegun s s1) s.freePat p h) := by
  have hexec : exec (.loadPart0 m h) s = execLoadPart0 m h s := rfl
  simp only [hexec, execLoadPart0, hlist, hnew, hidle, hhash, hpart, hnpart, hreserve, Option.isSome_none, Bool.true_eq_false,
    Bool.false_eq_true, ne_eq, not_true_eq_false, or_self, if_false]
  rfl

section
variable {pi : Nat} {p : Pattern} {body : List Byte} {e : PartEnt} {g : Segment} (hlist : listed s h.phash = true)
  (hload : s.helm.load = some pi) (hp : s.pat pi = some p) (hhash : p.manifest.hash = h.phash) (hpart : h.part ≠ 0)
  (hentry : p.manifest.parts[h.part - 1]? = some e) (hnpart : h.npart = p.manifest.parts.length + 1) (hseg : h.seg = e.seg)
  (hoffset : h.offset = e.offset) (hlen : body.length = e.length) (hg : p.segs[e.seg]? = some g)
include hlist hload hp hhash hpart hentry

theorem execLoadPart_bad (hbad : Config.sha384 body ≠ e.hash) :
    exec (.loadPart h body) s = .next (refuseLoad s h (.loadPartBad, 10, h.part)) := by
  have hexec : exec (.loadPart h body) s = execLoadPart h body s := rfl
  simp only [hexec, execLoadPart, hlist, hload, hp, hhash, hpart, hentry, hbad, Option.bind_some, Option.map_some,
    Bool.true_eq_false, ne_eq, not_true_eq_false, not_false_eq_true, or_true, if_true, if_false]

include hnpart hseg hoffset hlen hg

/-- A part that agrees with its table entry is written, once. -/
theorem execLoadPart_good (hgood : Config.sha384 body = e.hash) (hnew : h.part ∉ p.partsDone) : exec (.loadPart h body) s =
    .next (loadProgress (segPuts s pi e.seg g e.offset body) pi { p with partsDone := p.partsDone ++ [h.part] } h) := by
  have hexec : exec (.loadPart h body) s = execLoadPart h body s := rfl
  simp only [hexec, execLoadPart, hlist, hload, hp, hhash, hpart, hentry, hgood, hnew, hnpart, hseg, hoffset, hlen, hg,
    Option.bind_some, Option.map_some, Bool.true_eq_false, ne_eq, not_true_eq_false, or_self, if_false]

end

end

theorem unstored_pds {s t : State} (h : t.unstored = s.unstored) : t.pds = s.pds := by
  change t.unstored.pds = s.unstored.pds
  rw [h]

/-! #### What a Pattern leaves (R230, R257, R306, R426) -/

theorem clearFrames_unstored (s : State) (f n : Nat) : (clearFrames s f n).unstored = s.unstored := by
  rw [clearFrames, openRows_unstored]
  rfl

theorem takeFrames_workers (s : State) (f n : Nat) (taken : Bool) : (s.takeFrames f n taken).workers = s.workers := rfl

theorem takeFrames_load (s : State) (f n : Nat) (taken : Bool) : (s.takeFrames f n taken).helm.load = s.helm.load := rfl

theorem unstored_workers {s t : State} (h : t.unstored = s.unstored) : t.workers = s.workers := by
  rw [State.workers, State.workers, unstored_cores h, unstored_helm h]

theorem giveFrame_workers (s : State) (f : Nat) : (giveFrame s f).workers = s.workers := by
  rw [giveFrame, takeFrames_workers]
  exact unstored_workers (clearFrames_unstored ..)

theorem giveFrame_load (s : State) (f : Nat) : (giveFrame s f).helm.load = s.helm.load := by
  rw [giveFrame, takeFrames_load, unstored_helm (clearFrames_unstored ..)]

theorem releaseSlot_workers (s : State) (slot : Nat) : (releaseSlot s slot).workers = s.workers := by
  rw [releaseSlot]
  split
  · rfl
  split
  · rfl
  split
  · rfl
  · simp only
    split <;> rfl

theorem vacate_spec (s : State) (c : Nat) : ((vacate s c).core c).st = .reset ∧ (∀ d, d ≠ c → (vacate s c).core d = s.core d)
    ∧ (vacate s c).helm = s.helm := by
  rw [vacate, core_setCore_self]
  exact ⟨rfl, fun d hd => core_setCore_ne s hd _, rfl⟩

theorem vacateAll_spec (l : List Nat) (s : State) : (∀ c ∈ l, ((l.foldl vacate s).core c).st = .reset)
    ∧ (∀ c, c ∉ l → (l.foldl vacate s).core c = s.core c) ∧ (l.foldl vacate s).helm = s.helm := by
  induction l generalizing s with
  | nil => exact ⟨fun _ h => absurd h List.not_mem_nil, fun _ _ => rfl, rfl⟩
  | cons d l ih =>
    obtain ⟨hreset, hother, hhelm⟩ := vacate_spec s d
    obtain ⟨ihreset, ihother, ihhelm⟩ := ih (vacate s d)
    refine ⟨fun c hc => ?_, fun c hc => ?_, ihhelm.trans hhelm⟩
    · by_cases hl : c ∈ l
      · exact ihreset c hl
      · obtain rfl : c = d := (List.mem_cons.1 hc).resolve_right hl
        rw [List.foldl_cons, ihother c hl, hreset]
    · obtain ⟨hd, hl⟩ := not_or.1 (fun hx => hc (List.mem_cons.2 hx))
      rw [List.foldl_cons, ihother c hl, hother c hd]

/-- Pattern `pi` is gone from `t`, and its cores are in RESET; the others stand as in `s`. -/
def PatternGone (s t : State) (pi : Nat) (p : Pattern) : Prop :=
  t.pat pi = none ∧ (∀ q, q ≠ pi → t.pat q = s.pat q) ∧ (∀ c ∈ p.coresOf, (t.core c).st = .reset)
    ∧ ∀ c, c ∉ p.coresOf → t.core c = s.core c

theorem PatternGone.of_workers {s s' t : State} {pi : Nat} {p : Pattern} (h : s'.workers = s.workers) (hgone : PatternGone s' t pi p) :
    PatternGone s t pi p := by
  obtain ⟨hpat, hpats, hreset, hcore⟩ := hgone
  have hcores : s'.cores = s.cores := congrArg (·.1) h
  have hhelm : s'.helm.pats = s.helm.pats := congrArg (·.2) h
  refine ⟨hpat, fun q hq => (hpats q hq).trans ?_, hreset, fun c hc => (hcore c hc).trans ?_⟩
  · rw [State.pat, State.pat, hhelm]
  · rw [State.core, State.core, hcores]

/-- The frames that a Pattern holds. -/
def patternFrames (s : State) (pi : Nat) (p : Pattern) : List Nat :=
  p.segs.flatMap (fun g => g.frames ++ g.parity ++ g.lists) ++ p.spills
    ++ (s.helm.migs.filter (fun m => decide (m.pat = pi))).flatMap (fun m => [m.oldF, m.newF])

/-- The state in which the cores and the frames of a Pattern have been given back. -/
def givenBack (s : State) (pi : Nat) (p : Pattern) : State :=
  (patternFrames s pi p).dedup.foldl giveFrame ((p.coresOf.foldl vacate s).setPat pi p)

theorem freePattern_cores (s : State) (pi : Nat) (p : Pattern) : (freePattern s pi p).cores = (givenBack s pi p).cores := rfl

theorem freePattern_pats (s : State) (pi : Nat) (p : Pattern) :
    (freePattern s pi p).helm.pats = Sparse.set none (givenBack s pi p).helm.pats pi none := rfl

theorem freePattern_load (s : State) (pi : Nat) (p : Pattern) :
    (freePattern s pi p).helm.load = if (givenBack s pi p).helm.load = some pi then none else (givenBack s pi p).helm.load := rfl

theorem givenBack_workers (s : State) (pi : Nat) (p : Pattern) :
    (givenBack s pi p).workers = ((p.coresOf.foldl vacate s).setPat pi p).workers :=
  foldl_field State.workers giveFrame giveFrame_workers (patternFrames s pi p).dedup _

theorem givenBack_load (s : State) (pi : Nat) (p : Pattern) : (givenBack s pi p).helm.load = s.helm.load := by
  refine (foldl_field (fun s => s.helm.load) giveFrame giveFrame_load (patternFrames s pi p).dedup _).trans ?_
  change (p.coresOf.foldl vacate s).helm.load = _
  rw [(vacateAll_spec p.coresOf s).2.2]

theorem freePattern_loading (s : State) (pi : Nat) (p : Pattern) (h : s.helm.load = some pi) :
    (freePattern s pi p).helm.load = none := by
  rw [freePattern_load, givenBack_load, if_pos h]

theorem freePattern_gone (s : State) (pi : Nat) (p : Pattern) : PatternGone s (freePattern s pi p) pi p := by
  obtain ⟨hreset, hother, hhelm⟩ := vacateAll_spec p.coresOf s
  have hcores : (givenBack s pi p).cores = (p.coresOf.foldl vacate s).cores := congrArg (·.1) (givenBack_workers s pi p)
  have hpats : (givenBack s pi p).helm.pats = ((p.coresOf.foldl vacate s).setPat pi p).helm.pats :=
    congrArg (·.2) (givenBack_workers s pi p)
  have hcore (c : Nat) : (freePattern s pi p).core c = (p.coresOf.foldl vacate s).core c := by
    rw [State.core, freePattern_cores, hcores]
    rfl
  refine ⟨?_, fun q hq => ?_, fun c hc => ?_, fun c hc => ?_⟩
  · rw [State.pat, freePattern_pats]
    exact Sparse.get_set_self ..
  · rw [State.pat, freePattern_pats, Sparse.get_set_ne _ _ hq, hpats]
    refine (pat_setPat_ne (p.coresOf.foldl vacate s) hq p).trans ?_
    rw [State.pat, hhelm]
    rfl
  · rw [hcore, hreset c hc]
  · rw [hcore, hother c hc]

/-! #### LOAD_ABANDONED and UNLOAD_COMPLETE -/

section
variable {s : State}

theorem execLoadAbandoned_idle (h : s.helm.load = none) : exec .loadAbandoned s = .next s := by
  have hexec : exec .loadAbandoned s = execLoadAbandoned s := rfl
  simp only [hexec, execLoadAbandoned, h, Option.bind_none]

variable {pi : Nat} {p : Pattern} (hp : s.pat pi = some p)
include hp

theorem loadAbandoned_spec (h : s.helm.load = some pi) :
    ∃ t, exec .loadAbandoned s = .next t ∧ PatternGone s t pi p ∧ t.helm.load = none := by
  have hexec : exec .loadAbandoned s = execLoadAbandoned s := rfl
  simp only [hexec, execLoadAbandoned, h, hp, Option.bind_some, Option.map_some]
  exact ⟨_, rfl, freePattern_gone s pi p, freePattern_loading s pi p h⟩

theorem execUnloadComplete_resident (h : p.unloading = false) : exec (.unloadComplete pi) s = .next s := by
  have hexec : exec (.unloadComplete pi) s = execUnloadComplete pi s := rfl
  simp only [hexec, execUnloadComplete, hp, h, true_or, if_true]

theorem unloadComplete_spec (h : p.unloading = true) (hsteps : ∀ u ∈ s.helm.steps, u.pat ≠ pi) :
    ∃ t, exec (.unloadComplete pi) s = .next t ∧ PatternGone s t pi p := by
  have hexec : exec (.unloadComplete pi) s = execUnloadComplete pi s := rfl
  have hnone : s.helm.steps.any (fun t => decide (t.pat = pi)) = false := by
    rw [List.any_eq_false]
    exact fun u hu he => hsteps u hu (of_decide_eq_true he)
  simp only [hexec, execUnloadComplete, hp, h, hnone, Bool.true_eq_false, Bool.false_eq_true, or_self, if_false]
  exact ⟨_, rfl, .of_workers (foldl_field State.workers releaseSlot releaseSlot_workers _ s) (freePattern_gone ..)⟩

end

/-- Settles O49: the commands of forwarding and of the loader one by one. -/
theorem forwardedRequestsAndPatternLoads : Obligations.ForwardedRequestsAndPatternLoads := by
  unfold Obligations.ForwardedRequestsAndPatternLoads
  intro s
  refine ⟨fun l src key pre body n b hup hsrc hbody hpark hfree halloc =>
      forwardedRequest_spec key hup hsrc hbody hpark hfree halloc,
    fun l key b rest n x hup hconn hphase => forwardedResponse_spec hup hconn hphase,
    fun m h => ⟨fun hlist => ?_, fun s1 p hlist hnew hidle hhash hpart hnpart hreserve => ?_⟩,
    fun pi p h body e g hlist hload hp hhash hpart hentry hnpart hseg hoffset hlen hg => ⟨fun hbad => ?_, fun hgood hnew => ?_⟩,
    execLoadAbandoned_idle, fun pi p hp _ _ => ⟨loadAbandoned_spec hp, execUnloadComplete_resident hp, unloadComplete_spec hp⟩⟩
  · obtain ⟨hhelm, hcores, hout⟩ := refuseLoad_spec s h (.loadUnlisted, 0, 0)
    exact ⟨_, execLoadPart0_unlisted m hlist, congrArg HelmSt.pats hhelm, congrArg HelmSt.load hhelm, hcores, hout⟩
  · have hexec := execLoadPart0_reserved hlist hnew hidle hhash hpart hnpart hreserve
    refine ⟨fun hmore => ?_, fun hlast => ?_⟩
    · obtain ⟨hpat, hload, -, hout, -⟩ := loadProgress_more (loadBegun s s1) s.freePat h hmore
      exact ⟨_, hexec, hpat, hload, hpart ▸ hout⟩
    · obtain ⟨hpat, hload, hout⟩ := loadProgress_last (loadBegun s s1) s.freePat h hlast
      exact ⟨_, hexec, hpat, hload, hpart ▸ hout⟩
  · obtain ⟨hhelm, hcores, hout⟩ := refuseLoad_spec s h (.loadPartBad, 10, h.part)
    exact ⟨_, execLoadPart_bad hlist hload hp hhash hpart hentry hbad, congrArg HelmSt.pats hhelm, hout, hcores⟩
  · have hexec := execLoadPart_good hlist hload hp hhash hpart hentry hnpart hseg hoffset hlen hg hgood hnew
    have hput : (segPuts s pi e.seg g e.offset body).unstored = s.unstored := segPuts_unstored ..
    have hlength : (p.partsDone ++ [h.part]).length = p.partsDone.length + 1 := List.length_append
    refine ⟨fun hmore => ?_, fun hlast => ?_⟩
    · obtain ⟨hpat, -, hcores, -, hmem⟩ := loadProgress_more (segPuts s pi e.seg g e.offset body) pi (h := h)
        (p := { p with partsDone := p.partsDone ++ [h.part] }) (hlength ▸ hmore)
      exact ⟨_, hexec, hpat, hcores.trans (unstored_cores hput), fun hconn => hmem ((loadConn_congr (unstored_pds hput) h).trans hconn)⟩
    · obtain ⟨hpat, hload, hout⟩ := loadProgress_last (segPuts s pi e.seg g e.offset body) pi (h := h)
        (p := { p with partsDone := p.partsDone ++ [h.part] }) (hlength ▸ hlast)
      exact ⟨_, hexec, hload, hpat, hout⟩

end Sys2Proof.Machine

/-! ### Ingress queues, admission and release (R275, R288 to R292, R298, R306) -/

namespace Sys2Proof.Machine

/-! #### Ingress queues (R273, R275, R288) -/

/-- The ingress queues of each port die. -/
def State.ingresses (s : State) (k : Fin 4) : Vector Ingress 2 := (s.pd k).ingress

theorem ingresses_congr {s t : State} (h : t.pds = s.pds) : t.ingresses = s.ingresses := by
  funext k
  rw [State.ingresses, State.ingresses, State.pd, State.pd, h]

theorem setConn_ingresses (s : State) (k : Fin 4) (n : Nat) (x : Option Conn) : (s.setConn k n x).ingresses = s.ingresses := by
  funext j
  rw [State.ingresses, State.setConn]
  by_cases hj : j = k
  · subst hj
    rw [pd_setPd_self]
    rfl
  · rw [pd_setPd_ne s hj]
    rfl

theorem sendBacklog_ingresses (s : State) (k : Fin 4) (n : Nat) : (sendBacklog s k n).ingresses = s.ingresses := by
  rw [sendBacklog]
  split
  · rfl
  · rw [ingresses_congr (transmits_pds ..), setConn_ingresses]

theorem respond_ingresses (s : State) (k : Fin 4) (n kind : Nat) (body : List Byte) :
    (respond s k n kind body).ingresses = s.ingresses := by
  simp only [respond]
  split
  · rfl
  split
  · rw [ingresses_congr (sendBytes_pds ..), setConn_ingresses]
  · rw [sendBacklog_ingresses, setConn_ingresses]

theorem finalStatus_ingresses (s : State) (k : Fin 4) (n : Nat) (c : Code) : (finalStatus s k n c).ingresses = s.ingresses := by
  simp only [finalStatus]
  split
  · rfl
  split
  · rw [respond_ingresses]
  split <;> rw [setConn_ingresses, respond_ingresses]

/-- What the refusal of a request leaves alone: the cores, the Helms' records and the ingress queues. -/
def State.intake (s : State) : List (Nat × Core) × HelmSt × (Fin 4 → Vector Ingress 2) := (s.cores, s.helm, s.ingresses)

theorem logRec_intake (s : State) (r : EventRec) : (s.logRec r).intake = s.intake := rfl

/-- A request that the reset of its queue takes back. -/
def retryItem (h : Fin 2) (s : State) (i : ReqItem) : State :=
  (lzRelease (finalStatus s (pdOf i.port) i.crec .refusedRetry) i.lzBase i.lzLen).refusal (2 + h.val) .refusedRetry 0

/-- One that is discarded from the queue itself, which MSG_STALE names. -/
def staleItem (h : Fin 2) (pd : Fin 4) (q : Ingress) (s : State) (i : ReqItem) : State :=
  (retryItem h s i).logRec
    { mkRec (2 + h.val) .event .msgStale with detail := BitVec.ofNat 256 (pd.val + h.val * 2 ^ 16 + q.epoch.toNat * 2 ^ 24) }

theorem retryItem_intake (h : Fin 2) (s : State) (i : ReqItem) : (retryItem h s i).intake = s.intake := by
  have hcores := closed_cores s (pdOf i.port) i.crec .refusedRetry i.lzBase i.lzLen
  have hhelm := (lzRelease_helm (finalStatus s (pdOf i.port) i.crec .refusedRetry) i.lzBase i.lzLen).trans
    (inside_helm (finalStatus_inside ..))
  have hqueues := (ingresses_congr (lzRelease_pds (finalStatus s (pdOf i.port) i.crec .refusedRetry) i.lzBase i.lzLen)).trans
    (finalStatus_ingresses ..)
  rw [retryItem, State.refusal, logRec_intake, State.intake, hcores, hhelm, hqueues, State.intake]

theorem staleItem_intake (h : Fin 2) (pd : Fin 4) (q : Ingress) (s : State) (i : ReqItem) :
    (staleItem h pd q s i).intake = s.intake := by
  rw [staleItem, logRec_intake, retryItem_intake]

/-- The checked requests that did not come through a queue. -/
def checkedElse (s : State) (h : Fin 2) (pd : Fin 4) : List (ReqItem × Nat) :=
  s.helm.checked.filter (fun e => !decide (e.1.pd = pd ∧ e.2 = h.val))

/-- The device with the checked requests of a queue taken back. -/
def takenBack (s : State) (h : Fin 2) (pd : Fin 4) : State :=
  ((s.helm.checked.filter (fun e => decide (e.1.pd = pd ∧ e.2 = h.val))).map (·.1)).foldl (retryItem h)
    { s with helm := { s.helm with checked := checkedElse s h pd } }

/-- Ingress queue `h` of a port die becomes `q`. -/
def setIngress (s : State) (h : Fin 2) (pd : Fin 4) (q : Ingress) : State :=
  s.setPd pd { s.pd pd with ingress := (s.pd pd).ingress.set h.val q h.isLt }

theorem setIngress_get (s : State) (h : Fin 2) (pd : Fin 4) (q : Ingress) : ((setIngress s h pd q).ingresses pd).get h = q := by
  rw [State.ingresses, setIngress, pd_setPd_self]
  exact Vector.getElem_set_self _

theorem keep_credits {q : Ingress} {i : ReqItem} {rest : List ReqItem} (h : q.items = i :: rest) :
    (q.keep rest).credits = q.credits + 3 := by
  change q.credits + 3 * (q.items.length - rest.length) = q.credits + 3
  rw [h, List.length_cons, Nat.add_sub_cancel_left]

theorem resetIngress_eq (s : State) (h : Fin 2) (pd : Fin 4) : resetIngress s h pd =
    ((s.pd pd).ingress.get h).items.foldl (staleItem h pd ((s.pd pd).ingress.get h))
      (setIngress (takenBack s h pd) h pd ((s.pd pd).ingress.get h).newEpoch) := rfl

theorem resetIngress_spec (s : State) (h : Fin 2) (pd : Fin 4) : (resetIngress s h pd).cores = s.cores
    ∧ (resetIngress s h pd).helm.checked = checkedElse s h pd
    ∧ ((resetIngress s h pd).ingresses pd).get h = ((s.pd pd).ingress.get h).newEpoch := by
  have htaken : (takenBack s h pd).intake = ({ s with helm := { s.helm with checked := checkedElse s h pd } } : State).intake :=
    foldl_field State.intake _ (retryItem_intake h) _ _
  have hreset := foldl_field State.intake _ (staleItem_intake h pd ((s.pd pd).ingress.get h)) ((s.pd pd).ingress.get h).items
    (setIngress (takenBack s h pd) h pd ((s.pd pd).ingress.get h).newEpoch)
  rw [← resetIngress_eq] at hreset
  have hcores : (resetIngress s h pd).cores = (takenBack s h pd).cores := congrArg (·.1) hreset
  have hhelm : (resetIngress s h pd).helm = (takenBack s h pd).helm := congrArg (·.2.1) hreset
  have hqueues : (resetIngress s h pd).ingresses
      = (setIngress (takenBack s h pd) h pd ((s.pd pd).ingress.get h).newEpoch).ingresses := congrArg (·.2.2) hreset
  refine ⟨hcores.trans (congrArg (·.1) htaken :), ?_, ?_⟩
  · rw [hhelm]
    exact (congrArg (fun x => x.2.1.checked) htaken :)
  · rw [hqueues, setIngress_get]

section
variable {s : State} {h : Fin 2} {pd : Fin 4}

theorem execReqItem_reset {ok : Bool} (hbad : ok = false ∨ ((s.pd pd).ingress.get h).ptr ≠ ((s.pd pd).ingress.get h).ptr2) :
    exec (.reqItem h pd ok) s = .next (resetIngress s h pd) := by
  have hexec : exec (.reqItem h pd ok) s = execReqItem h pd ok s := rfl
  have hbad' : ok = false ∨ ((s.pd pd).ingress.get h).ptrOk = false := hbad.imp_right fun hne => decide_eq_false hne
  rw [hexec, execReqItem]
  exact congrArg Host.Outcome.next (if_pos hbad')

section
variable (hptr : ((s.pd pd).ingress.get h).ptr = ((s.pd pd).ingress.get h).ptr2)
include hptr

theorem execReqItem_sound : exec (.reqItem h pd true) s = .next (
    match s.helm.admission, ((s.pd pd).ingress.get h).items with
    | true, i :: rest =>
      match reqCheck (setIngress s h pd (((s.pd pd).ingress.get h).keep rest)) i with
      | some c => refuseReq (setIngress s h pd (((s.pd pd).ingress.get h).keep rest)) h.val i c
      | none => { setIngress s h pd (((s.pd pd).ingress.get h).keep rest) with
          helm := { s.helm with checked := s.helm.checked ++ [(i, h.val)] } }
    | _, _ => s) := by
  have hexec : exec (.reqItem h pd true) s = execReqItem h pd true s := rfl
  have hsound : ¬(true = false ∨ ((s.pd pd).ingress.get h).ptrOk = false) := by simp [Ingress.ptrOk, hptr]
  rw [hexec, execReqItem]
  exact congrArg Host.Outcome.next (if_neg hsound)

/-- The oldest item of a sound queue leaves it, and is checked. -/
theorem execReqItem_oldest {i : ReqItem} {rest : List ReqItem} (hopen : s.helm.admission = true)
    (hitems : ((s.pd pd).ingress.get h).items = i :: rest) : exec (.reqItem h pd true) s = .next (
      match reqCheck (setIngress s h pd (((s.pd pd).ingress.get h).keep rest)) i with
      | some c => refuseReq (setIngress s h pd (((s.pd pd).ingress.get h).keep rest)) h.val i c
      | none => { setIngress s h pd (((s.pd pd).ingress.get h).keep rest) with
          helm := { s.helm with checked := s.helm.checked ++ [(i, h.val)] } }) := by
  rw [execReqItem_sound hptr, hopen, hitems]

theorem execReqItem_idle (hidle : s.helm.admission = false ∨ ((s.pd pd).ingress.get h).items = []) :
    exec (.reqItem h pd true) s = .next s := by
  rw [execReqItem_sound hptr]
  split
  next i rest hopen hitems =>
    rw [hopen, hitems] at hidle
    simp at hidle
  · rfl

end

theorem refuseReq_spec (s : State) (h : Nat) (i : ReqItem) (c : Code) :
    (refuseReq s h i c).helm = s.helm ∧ (refuseReq s h i c).cores = s.cores :=
  ⟨(lzRelease_helm ..).trans (inside_helm (finalStatus_inside ..)), closed_cores ..⟩

end

/-! #### What admission leaves alone (R290) -/

/-- The cores, the requests that wait for admission, and the next ASEQ and SID. -/
def State.admitting (s : State) : List (Nat × Core) × List (ReqItem × Nat) × BitVec 32 × BitVec 32 :=
  (s.cores, s.helm.checked, s.helm.nextAseq, s.helm.nextSid)

theorem admitting_congr {s t : State} (hcores : t.cores = s.cores) (hhelm : t.helm = s.helm) : t.admitting = s.admitting := by
  rw [State.admitting, hcores, hhelm, State.admitting]

theorem setStream_admitting (s : State) (slot : Nat) (x : Option Stream) : (s.setStream slot x).admitting = s.admitting := rfl

theorem takeFrames_admitting (s : State) (f n : Nat) (taken : Bool) : (s.takeFrames f n taken).admitting = s.admitting := rfl

theorem activation_admitting (s : State) (o n slot : Nat) : ((s.bump o n).emit (.activation slot)).admitting = s.admitting := rfl

theorem reportEnd_admitting (s : State) (x : Stream) (code : Option Code) : (reportEnd s x code).admitting = s.admitting :=
  admitting_congr (inside_cores (reportEnd_inside ..)) (inside_helm (reportEnd_inside ..))

theorem endStream_admitting (s : State) (slot : Nat) (code : Option Code) : (endStream s slot code).admitting = s.admitting := by
  rw [endStream]
  split
  · rfl
  split
  · rfl
  split
  · rfl
  · rw [reportEnd_admitting]
    rfl

theorem dropParked_admitting (s : State) (x : Stream) (code : Option Code) : (dropParked s x code).admitting = s.admitting := by
  rw [dropParked]
  split
  · rw [endStream_admitting]
    rfl
  · rw [admitting_congr (lzRelease_cores ..) (lzRelease_helm ..), reportEnd_admitting]

theorem setParked_admitting (s : State) (head : Nat) (l : List Stream) : (s.setParked head l).admitting = s.admitting := by
  obtain ⟨t, ⟨-, hhelm, hcores, -, -⟩, ht⟩ := setParked_parkOnly s head l
  rw [ht, State.admitting, State.admitting, ← hcores, ← hhelm]

theorem rowWritten_unstored (s : State) (a : Nat) (m : Memory) : (openRow { s with mem := m } a).unstored = s.unstored := by
  rw [openRow_unstored, setMem_unstored]

theorem parkWrite_unstored (s : State) (i : Nat) (x : Stream) : (parkWrite s i x).unstored = s.unstored :=
  (rowWritten_unstored ..).trans (rowWritten_unstored ..)

/-- The state with the parked list and the place of its head in its records. -/
def withParked (s : State) (head : Nat) (l : List Stream) : State := { s with helm := { s.helm with parked := l, parkHead := head } }

theorem withParked_unstored {s t : State} (h : t.unstored = s.unstored) (head : Nat) (l : List Stream) :
    (withParked t head l).unstored = (withParked s head l).unstored := (congrArg (withParked · head l) h :)

theorem setParked_unstored (s : State) (head : Nat) (l : List Stream) :
    (s.setParked head l).unstored = (withParked s (head % parkRecords) l).unstored := by
  unfold State.setParked
  refine withParked_unstored ?_ (head % parkRecords) l
  refine foldl_field State.unstored _ (fun s' i => ?_) _ s
  split
  · rfl
  split
  · rfl
  · exact parkWrite_unstored ..

theorem moveKey_spec (s : State) (x : Stream) (k : Fin 4) (q : Nat) : (moveKey s x k q).helm = s.helm
    ∧ (moveKey s x k q).cores = s.cores ∧ (moveKey s x k q).out = s.out := by
  rw [moveKey]
  split <;> exact ⟨rfl, rfl, rfl⟩

/-- The device with a stream's reservation made and its activation counted and told. -/
def activating (s : State) (x : Stream) (p : Pattern) (slot : Nat) : State :=
  (({ s with helm := { s.helm with kvReserved := s.helm.kvReserved + kvNeed p x.limit } } : State).bump
    (helmCtr (slot / halfSlots) 0x110) 1).emit (.activation slot)

/-- A stream that was not parked by an entry to L3 gets a key slot and frames for its page table. -/
theorem activate_fresh {s : State} {x : Stream} (p : Pattern) (slot : Nat)
    (h : s.helm.resume.find? (fun r => decide (r.sid = x.sid)) = none) : ∃ kd ks f, activate s x p slot =
      ((moveKey (activating s x p slot) x kd ks).takeFrames f (ptFrames p x) true).setStream slot
        (some { x with st := .ready, kdie := kd, rkh := ks, ptVault := f / 16384, ptFrame := f % 16384 }.seal) := by
  simp only [activate, h]
  exact ⟨_, _, _, rfl⟩

theorem reserved_admitting (s : State) (n : Nat) :
    ({ s with helm := { s.helm with kvReserved := n } } : State).admitting = s.admitting := rfl

theorem activating_admitting (s : State) (x : Stream) (p : Pattern) (slot : Nat) :
    (activating s x p slot).admitting = s.admitting := by
  rw [activating, activation_admitting, reserved_admitting]

theorem moveKey_admitting (s : State) (x : Stream) (k : Fin 4) (q : Nat) : (moveKey s x k q).admitting = s.admitting := by
  obtain ⟨hhelm, hcores, -⟩ := moveKey_spec s x k q
  exact admitting_congr hcores hhelm

theorem activate_admitting (s : State) (x : Stream) (p : Pattern) (slot : Nat) : (activate s x p slot).admitting = s.admitting := by
  cases h : s.helm.resume.find? (fun r => decide (r.sid = x.sid)) with
  | some r =>
    simp only [activate, h]
    rw [setStream_admitting, activation_admitting]
    rfl
  | none =>
    obtain ⟨kd, ks, f, hact⟩ := activate_fresh p slot h
    rw [hact, setStream_admitting, takeFrames_admitting, moveKey_admitting, activating_admitting]

theorem activateAll_admitting (n : Nat) (s : State) : (activateAll n s).admitting = s.admitting := by
  induction n generalizing s with
  | zero => rfl
  | succ n ih =>
    simp only [activateAll]
    split
    · rw [ih, activate_admitting, setParked_admitting]
    · rw [ih]
      refine (dropParked_admitting ..).trans ?_
      exact setParked_admitting ..
    · rfl

theorem parkItem_waits (s : State) (e : ReqItem × Nat) :
    (parkItem s e).cores = s.cores ∧ (parkItem s e).helm.checked = s.helm.checked := by
  have hrefuse (h : Nat) (c : Code) :
      (refuseReq s h e.1 c).cores = s.cores ∧ (refuseReq s h e.1 c).helm.checked = s.helm.checked := by
    obtain ⟨hhelm, hcores⟩ := refuseReq_spec s h e.1 c
    exact ⟨hcores, congrArg HelmSt.checked hhelm⟩
  have hparked (x : Stream) : (s.setParked s.helm.parkHead (s.helm.parked ++ [x])).cores = s.cores
      ∧ (s.setParked s.helm.parkHead (s.helm.parked ++ [x])).helm.checked = s.helm.checked := by
    have h := setParked_admitting s s.helm.parkHead (s.helm.parked ++ [x])
    exact ⟨congrArg (·.1) h, congrArg (·.2.1) h⟩
  by_cases hfull : 1048576 ≤ s.helm.parked.length
  · rw [parkItem, if_pos hfull]
    exact hrefuse ..
  rw [parkItem, if_neg hfull]
  cases matchPat s e.1.inner.pattern with
  | none => exact hrefuse ..
  | some m =>
    refine (?_ : _ ∧ _)
    simp only
    split <;> exact hparked _

/-! #### ADMISSION_CYCLE -/

/-- The device once a cycle's items stand on the parked list. -/
def itemsParked (s : State) : State :=
  (checkedOrder s.helm.checked).foldl parkItem { s with helm := { s.helm with checked := [] } }

/-- The device once the head has been tried again. -/
def headTried (s : State) : State := activateAll (itemsParked s).helm.parked.length (itemsParked s)

/-- The state with other registers. -/
def withReg (s : State) (r : RegSt) : State := { s with reg := r }

/-- The counts of a cycle: how many of its `n` items, from ASEQ `a` on, still wait, and a head without KV room. -/
def headCounted (a : BitVec 32) (n : Nat) (s : State) : State :=
  let s4 := s.bump (helmCtr 0 0x118) (s.helm.parked.filter (fun x => decide ((x.aseq - a).toNat < n))).length
  match headOf s4 with
  | .noRoom => s4.bump (helmCtr 0 0x128) 1
  | _ => s4

theorem headCounted_reg (a : BitVec 32) (n : Nat) (s : State) : ∃ r, headCounted a n s = withReg s r := by
  simp only [headCounted]
  split <;> exact ⟨_, rfl⟩

/-- A cycle from the state in which the head of the parked list has been tried once. -/
def cycleFrom (a : BitVec 32) (s : State) : State := headCounted a (checkedOrder s.helm.checked).length (headTried s)

theorem execAdmissionCycle_eq (s : State) : execAdmissionCycle s = .next (
    if s.helm.admission = false ∨ s.pwr.entering = true ∨ s.pwr.state ≠ 0 then s
    else cycleFrom s.helm.nextAseq (activateAll s.helm.parked.length s)) := by
  rw [execAdmissionCycle]
  generalize activateAll s.helm.parked.length s = s1
  rw [cycleFrom, headTried, itemsParked]
  rfl

section
variable {s : State}

theorem execAdmissionCycle_closed (h : s.helm.admission = false ∨ s.pwr.entering = true ∨ s.pwr.state ≠ 0) :
    exec .admissionCycle s = .next s := by
  have hexec : exec .admissionCycle s = execAdmissionCycle s := rfl
  rw [hexec, execAdmissionCycle_eq, if_pos h]

/-- A cycle leaves the state in which the head has been tried again, with at most two counters raised. -/
theorem execAdmissionCycle_open (hopen : s.helm.admission = true) (hentry : s.pwr.entering = false) (hactive : s.pwr.state = 0) :
    ∃ r, exec .admissionCycle s = .next (withReg (headTried (activateAll s.helm.parked.length s)) r) := by
  have hexec : exec .admissionCycle s = execAdmissionCycle s := rfl
  have hgo : ¬(s.helm.admission = false ∨ s.pwr.entering = true ∨ s.pwr.state ≠ 0) := by simp [hopen, hentry, hactive]
  obtain ⟨r, hr⟩ := headCounted_reg s.helm.nextAseq (checkedOrder (activateAll s.helm.parked.length s).helm.checked).length
    (headTried (activateAll s.helm.parked.length s))
  refine ⟨r, ?_⟩
  rw [hexec, execAdmissionCycle_eq, if_neg hgo, cycleFrom, hr]

end

theorem itemsParked_waits (s : State) : (itemsParked s).cores = s.cores ∧ (itemsParked s).helm.checked = [] := by
  have hitems (l : List (ReqItem × Nat)) (t : State) :
      (l.foldl parkItem t).cores = t.cores ∧ (l.foldl parkItem t).helm.checked = t.helm.checked :=
    ⟨foldl_field State.cores _ (fun s e => (parkItem_waits s e).1) l t,
      foldl_field (fun s => s.helm.checked) _ (fun s e => (parkItem_waits s e).2) l t⟩
  exact hitems (checkedOrder s.helm.checked) { s with helm := { s.helm with checked := [] } }

theorem headTried_waits (s : State) : (headTried s).cores = s.cores ∧ (headTried s).helm.checked = [] := by
  have h : (headTried s).admitting = (itemsParked s).admitting := activateAll_admitting ..
  obtain ⟨hcores, hchecked⟩ := itemsParked_waits s
  exact ⟨(congrArg (·.1) h).trans hcores, (congrArg (·.2.1) h).trans hchecked⟩

/-! #### A single request (R288, R290, R298) -/

/-- `t` has the KV pool of `s`: the same frames are in use, and the same streams and Patterns hold them. -/
theorem kvPool_congr {s t : State} (hareas : SameAreas s t) (hlost : t.helm.diesLost = s.helm.diesLost)
    (hframes : t.helm.frames = s.helm.frames) (hstreams : t.helm.streams = s.helm.streams) (hzeroing : t.helm.zeroing = s.helm.zeroing)
    (hpats : t.helm.pats = s.helm.pats) : t.kvPool = s.kvPool := by
  have hreserve := hareas.reserveOf
  obtain ⟨hdies, -, hchart, hout⟩ := hareas
  have harea (v : Nat) : t.areaIn v = s.areaIn v := by simp only [State.areaIn, hreserve, hdies]
  have husable : t.usableIn = s.usableIn := by
    funext v
    simp only [State.usableIn, hout, hlost, hchart, harea]
  have htaken : t.kvTaken = s.kvTaken := by simp only [State.kvTaken, hstreams, hzeroing, State.pat, hpats]
  rw [State.kvPool, State.kvPool, husable, hframes, htaken]

/-- The state in which one stream is on the parked list. -/
def oneParked (s : State) (x : Stream) : State :=
  { s.setParked s.helm.parkHead [x] with
    helm := { (s.setParked s.helm.parkHead [x]).helm with nextAseq := s.helm.nextAseq + 1, nextSid := s.helm.nextSid + 1 } }

theorem oneParked_helm (s : State) (x : Stream) : (oneParked s x).helm = { s.helm with
    parked := [x], parkHead := s.helm.parkHead % parkRecords, nextAseq := s.helm.nextAseq + 1, nextSid := s.helm.nextSid + 1 } := by
  have h := congrArg State.helm (setParked_unstored s s.helm.parkHead [x])
  exact congrArg (fun m : HelmSt => { m with nextAseq := s.helm.nextAseq + 1, nextSid := s.helm.nextSid + 1 }) h

theorem oneParked_areas (s : State) (x : Stream) : SameAreas s (oneParked s x) := by
  obtain ⟨t, ⟨hareas, -⟩, ht⟩ := setParked_parkOnly s s.helm.parkHead [x]
  rw [oneParked, ht]
  exact hareas

theorem oneParked_pds (s : State) (x : Stream) : (oneParked s x).pds = s.pds :=
  (congrArg State.pds (setParked_unstored s s.helm.parkHead [x]) :)

/-- A single request stands on the parked list, and its connection names its SID. -/
theorem parkItem_single {s : State} {e : ReqItem × Nat} {pi : Nat} {p : Pattern} (hempty : s.helm.parked = [])
    (hpat : matchPat s e.1.inner.pattern = some (pi, p)) : ∃ u, parkItem s e = { oneParked s (parkedRec s e.1 pi) with pds := u }
      ∧ ((∀ y, s.conn (pdOf e.1.port) e.1.crec = some y → y.stagingOk = true) → stagingOk (parkItem s e) (parkedRec s e.1 pi) = true) := by
  have hroom : ¬1048576 ≤ s.helm.parked.length := by simp [hempty]
  have hport : (parkedRec s e.1 pi).port = e.1.port := rfl
  have hcrec : (parkedRec s e.1 pi).crec = e.1.crec := rfl
  have hlist : s.helm.parked ++ [parkedRec s e.1 pi] = [parkedRec s e.1 pi] := by rw [hempty, List.nil_append]
  have hconn (k : Fin 4) (n : Nat) : (oneParked s (parkedRec s e.1 pi)).conn k n = s.conn k n := conn_congr (oneParked_pds ..) k n
  have hpark : parkItem s e = match (oneParked s (parkedRec s e.1 pi)).conn (pdOf e.1.port) e.1.crec with
      | none => oneParked s (parkedRec s e.1 pi)
      | some y => (oneParked s (parkedRec s e.1 pi)).setConn (pdOf e.1.port) e.1.crec
          (some { y with sid := some (parkedRec s e.1 pi).sid }) := by
    rw [parkItem, if_neg hroom]
    simp only [hpat, hlist] <;> rfl
  rw [hpark, hconn]
  cases hy : s.conn (pdOf e.1.port) e.1.crec with
  | none =>
    refine ⟨_, rfl, fun _ => ?_⟩
    simp only [stagingOk, hport, hcrec, hconn, hy]
  | some y =>
    refine ⟨_, rfl, fun hok => ?_⟩
    simp only [stagingOk, hport, hcrec, conn_setConn_self]
    exact hok y rfl

theorem headOf_ready {s : State} {x : Stream} {p : Pattern} {q : Nat} (hparked : s.helm.parked = [x]) (hpat : s.pat x.pat = some p)
    (hslot : s.slotFor x = some q) (hresume : s.helm.resume = []) (hstaging : stagingOk s x = true)
    (hroom : s.helm.kvReserved + kvNeed p x.limit ≤ s.kvPool) : headOf s = .ready x p q := by
  have hfull : ¬s.kvPool < s.helm.kvReserved + kvNeed p x.limit := Nat.not_lt.2 hroom
  simp only [headOf, hparked, hpat, hslot, hresume, hstaging, hfull, List.any_nil, Bool.false_eq_true, Bool.true_eq_false, if_false]

theorem setStream_out (s : State) (slot : Nat) (x : Option Stream) : (s.setStream slot x).out = s.out := rfl

theorem takeFrames_out (s : State) (f n : Nat) (taken : Bool) : (s.takeFrames f n taken).out = s.out := rfl

theorem activate_stream {s : State} (x : Stream) (p : Pattern) (q : Nat) (hresume : s.helm.resume = []) :
    ∃ y, (activate s x p q).stream q = some y ∧ y.sid = x.sid ∧ y.aseq = x.aseq ∧ y.st = .ready ∧ y.pat = x.pat
      ∧ .activation q ∈ (activate s x p q).out := by
  have hnone : s.helm.resume.find? (fun r => decide (r.sid = x.sid)) = none := by rw [hresume, List.find?_nil]
  obtain ⟨kd, ks, f, hact⟩ := activate_fresh p q hnone
  obtain ⟨-, -, hout⟩ := moveKey_spec (activating s x p q) x kd ks
  rw [hact]
  refine ⟨_, stream_setStream_self .., rfl, rfl, rfl, rfl, ?_⟩
  rw [setStream_out, takeFrames_out, hout]
  exact List.mem_append_right _ (List.mem_singleton.2 rfl)

section
variable {s : State} {e : ReqItem × Nat} {pi : Nat} {p : Pattern} (hempty : s.helm.parked = []) (hresume : s.helm.resume = [])
  (hmatch : matchPat s e.1.inner.pattern = some (pi, p)) (hpat : s.pat pi = some p)
include hempty hmatch

theorem parkItem_helm : (parkItem s e).helm = { s.helm with
    parked := [parkedRec s e.1 pi], parkHead := s.helm.parkHead % parkRecords, nextAseq := s.helm.nextAseq + 1,
    nextSid := s.helm.nextSid + 1 } := by
  obtain ⟨u, hpark, -⟩ := parkItem_single hempty hmatch
  rw [hpark]
  exact oneParked_helm ..

include hresume hpat

/-- With KV room, a free slot and a sound staging key the request is at once the READY stream of the slot. -/
theorem parkItem_activates {q : Nat} (hstaging : ∀ y, s.conn (pdOf e.1.port) e.1.crec = some y → y.stagingOk = true)
    (hroom : s.helm.kvReserved + kvNeed p e.1.inner.limit ≤ s.kvPool)
    (hslot : s.lowSlot (if s.freeSlots 0 < s.freeSlots 1 then 1 else 0) = some q) :
    ∃ x, (activateAll 1 (parkItem s e)).stream q = some x ∧ x.sid = s.helm.nextSid ∧ x.aseq = s.helm.nextAseq ∧ x.st = .ready
      ∧ x.pat = pi ∧ .activation q ∈ (activateAll 1 (parkItem s e)).out := by
  have hhelm := parkItem_helm hempty hmatch
  obtain ⟨u, hpark, hsound⟩ := parkItem_single hempty hmatch
  have hareas : SameAreas s (parkItem s e) := by
    rw [hpark]
    exact oneParked_areas ..
  have hpool : (parkItem s e).kvPool = s.kvPool := by
    refine kvPool_congr hareas ?_ ?_ ?_ ?_ ?_ <;> rw [hhelm]
  have hpat' : (parkItem s e).pat pi = some p := by
    rw [State.pat, hhelm]
    exact hpat
  have hslot' : (parkItem s e).slotFor (parkedRec s e.1 pi) = some q := by
    refine Eq.trans ?_ hslot
    have hstreams : (parkItem s e).helm.streams = s.helm.streams := by rw [hhelm]
    simp only [State.slotFor, State.lowSlot, State.freeSlots, State.stream, hstreams]
    rfl
  have hhead : headOf (parkItem s e) = .ready (parkedRec s e.1 pi) p q := by
    refine headOf_ready ?_ hpat' hslot' ?_ (hsound hstaging) ?_
    · rw [hhelm]
    · rw [hhelm]
      exact hresume
    · rw [hhelm, hpool]
      exact hroom
  have hresume' : ((parkItem s e).setParked ((parkItem s e).helm.parkHead + 1) ((parkItem s e).helm.parked.drop 1)).helm.resume = [] := by
    have h := congrArg (fun t : State => t.helm.resume)
      (setParked_unstored (parkItem s e) ((parkItem s e).helm.parkHead + 1) ((parkItem s e).helm.parked.drop 1))
    refine Eq.trans (h :) ?_
    change (parkItem s e).helm.resume = []
    rw [hhelm]
    exact hresume
  have hone : activateAll 1 (parkItem s e) = activate
      ((parkItem s e).setParked ((parkItem s e).helm.parkHead + 1) ((parkItem s e).helm.parked.drop 1)) (parkedRec s e.1 pi) p q := by
    simp only [activateAll, hhead]
  rw [hone]
  exact activate_stream (parkedRec s e.1 pi) p q hresume'

end

theorem activateAll_empty {s : State} (h : s.helm.parked = []) : activateAll s.helm.parked.length s = s := by
  rw [h]
  rfl

/-- A single item is taken in its place. -/
theorem checkedOrder_single (e : ReqItem × Nat) : checkedOrder [e] = [e] := by
  by_cases h : e.2 = 0
  · have hpd : ∀ k : Fin 4, (fins 4).flatMap (fun j => if k = j then [e] else []) = [e] := by
      intro k
      fin_cases k <;> rfl
    simp only [checkedOrder, List.filter_cons, List.filter_nil, h, true_and, decide_eq_true_eq, ne_eq, not_true_eq_false, if_false,
      List.append_nil, hpd]
  · simp [checkedOrder, h]

section
variable {s : State} {e : ReqItem × Nat} (hchecked : s.helm.checked = [e])
include hchecked

theorem itemsParked_single : itemsParked s = parkItem { s with helm := { s.helm with checked := [] } } e := by
  rw [itemsParked, hchecked, checkedOrder_single]
  rfl

/-- The request has the next ASEQ and SID, and the head is tried once. -/
theorem headTried_single {pi : Nat} {p : Pattern} (hempty : s.helm.parked = [])
    (hmatch : matchPat s e.1.inner.pattern = some (pi, p)) :
    headTried s = activateAll 1 (parkItem { s with helm := { s.helm with checked := [] } } e)
      ∧ (headTried s).helm.nextAseq = s.helm.nextAseq + 1 ∧ (headTried s).helm.nextSid = s.helm.nextSid + 1 := by
  have hhelm := parkItem_helm (s := { s with helm := { s.helm with checked := [] } }) (e := e) hempty hmatch
  have hadmit : (headTried s).admitting = (itemsParked s).admitting := activateAll_admitting ..
  have hitems := itemsParked_single hchecked
  have haseq : (headTried s).helm.nextAseq = (itemsParked s).helm.nextAseq := congrArg (·.2.2.1) hadmit
  have hsid : (headTried s).helm.nextSid = (itemsParked s).helm.nextSid := congrArg (·.2.2.2) hadmit
  refine ⟨?_, ?_, ?_⟩
  · rw [headTried, hitems, hhelm]
    rfl
  · rw [haseq, hitems, hhelm]
  · rw [hsid, hitems, hhelm]

end

/-! #### Release and zeroing (R230, R306) -/

section
variable {s : State} {slot : Nat} {x : Stream} {p : Pattern} (hx : s.stream slot = some x)
include hx

theorem releaseSlot_busy (h : x.st ≠ .ending ∨ s.inStep slot = true) : releaseSlot s slot = s := by
  rw [releaseSlot, hx]
  exact if_pos h

/-- The ranges that a stream's pages and page table take. -/
def heldRanges (p : Pattern) (x : Stream) : List (Nat × Nat) :=
  x.pages.map (fun e => (e.2.2, p.manifest.params.kvpitch / 256)) ++ [(x.ptVault * 16384 + x.ptFrame, ptFrames p x)]

/-- What is to be zeroed of a stream. -/
def zeroingOf (p : Pattern) (x : Stream) : Zeroing :=
  { sid := x.sid, ranges := heldRanges p x, lzBase := x.lzBase, lzLen := x.lzLen, kv := kvNeed p x.limit }

theorem releaseSlot_spec (hp : s.pat x.pat = some p) (hend : x.st = .ending) (hstep : s.inStep slot = false) :
    (releaseSlot s slot).stream slot = none ∧ (releaseSlot s slot).out = s.out ++ [.zeroing x.sid (heldRanges p x)]
      ∧ (releaseSlot s slot).mem = s.mem ∧ (releaseSlot s slot).cores = s.cores
      ∧ (releaseSlot s slot).helm.zeroing = s.helm.zeroing ++ [zeroingOf p x] := by
  have hgo : ¬(x.st ≠ .ending ∨ s.inStep slot = true) := by simp [hend, hstep]
  simp only [releaseSlot, hx, if_neg hgo, hp]
  split
  · exact ⟨stream_setStream_self s slot none, rfl, rfl, rfl, rfl⟩
  · exact ⟨stream_setStream_self s slot none, rfl, rfl, rfl, rfl⟩

end

/-- The ranges of an ended stream are zeroed and return to the pool. -/
def rangeZeroed (s : State) (r : Nat × Nat) : State := (clearFrames s r.1 r.2).takeFrames r.1 r.2 false

/-- What zeroing leaves alone. -/
def State.zeroKeeps (s : State) : List (Nat × Core) × List Zeroing × Nat := (s.cores, s.helm.zeroing, s.helm.kvReserved)

theorem rangeZeroed_keeps (s : State) (r : Nat × Nat) : (rangeZeroed s r).zeroKeeps = s.zeroKeeps := by
  have htake (t : State) : (t.takeFrames r.1 r.2 false).zeroKeeps = t.zeroKeeps := rfl
  have hun := clearFrames_unstored s r.1 r.2
  rw [rangeZeroed, htake, State.zeroKeeps, unstored_cores hun, unstored_helm hun, State.zeroKeeps]

theorem rangeZeroed_mem (s : State) (r : Nat × Nat) : (rangeZeroed s r).mem = zeroRange s.mem (frameAddr r.1) (r.2 * 65536) := by
  have htake (t : State) : (t.takeFrames r.1 r.2 false).mem = t.mem := rfl
  rw [rangeZeroed, htake, (clearFrames_spec s r.1 r.2).1]

/-- A byte of a range that is zeroed among others reads zero. -/
theorem rangesZeroed_mem (l : List (Nat × Nat)) (s : State) (x : Nat)
    (h : rdByte s.mem x = 0 ∨ ∃ r ∈ l, frameAddr r.1 ≤ x ∧ x < frameAddr r.1 + r.2 * 65536) :
    rdByte (l.foldl rangeZeroed s).mem x = 0 := by
  induction l generalizing s with
  | nil =>
    refine h.resolve_right ?_
    rintro ⟨r, hr, -⟩
    exact absurd hr List.not_mem_nil
  | cons r l ih =>
    refine ih _ ?_
    rw [rangeZeroed_mem, rdByte_zeroRange]
    by_cases hin : frameAddr r.1 ≤ x ∧ x < frameAddr r.1 + r.2 * 65536
    · exact .inl (if_pos hin)
    rw [if_neg hin]
    refine h.imp_right ?_
    rintro ⟨r', hr', hx⟩
    refine ⟨r', (List.mem_cons.1 hr').resolve_left ?_, hx⟩
    rintro rfl
    exact hin hx

theorem zeroingComplete_spec {s : State} {sid : BitVec 32} {z : Zeroing} (h : s.helm.zeroing.find? (fun z => decide (z.sid = sid)) = some z) :
    ∃ t, exec (.zeroingComplete sid) s = .next t ∧ t.helm.zeroing = s.helm.zeroing.erase z
      ∧ t.helm.kvReserved = s.helm.kvReserved - z.kv ∧ t.cores = s.cores
      ∧ (z.lzLen = 0 → ∀ r ∈ z.ranges, ∀ x, frameAddr r.1 ≤ x → x < frameAddr r.1 + r.2 * 65536 → rdByte t.mem x = 0) := by
  have hexec : exec (.zeroingComplete sid) s = execZeroingComplete sid s := rfl
  have hkeeps := foldl_field State.zeroKeeps rangeZeroed rangeZeroed_keeps z.ranges s
  have hcores : (z.ranges.foldl rangeZeroed s).cores = s.cores := congrArg (·.1) hkeeps
  have hzero : (z.ranges.foldl rangeZeroed s).helm.zeroing = s.helm.zeroing := congrArg (·.2.1) hkeeps
  have hkv : (z.ranges.foldl rangeZeroed s).helm.kvReserved = s.helm.kvReserved := congrArg (·.2.2) hkeeps
  simp only [hexec, execZeroingComplete, h]
  refine ⟨_, rfl, ?_, ?_, ?_, fun hlen r hr x hlo hhi => ?_⟩
  · rw [lzRelease_helm]
    exact congrArg (List.erase · z) hzero
  · rw [lzRelease_helm]
    exact congrArg (· - z.kv) hkv
  · exact (lzRelease_cores ..).trans hcores
  · rw [hlen]
    exact rangesZeroed_mem z.ranges s x (.inr ⟨r, hr, hlo, hhi⟩)

/-- Settles O40: the queues, the cycle, and the release one by one; a single request walks the whole of a cycle. -/
theorem streamsAreAdmittedAndReleased : Obligations.StreamsAreAdmittedAndReleased := by
  unfold Obligations.StreamsAreAdmittedAndReleased
  intro s
  refine ⟨fun h pd ok => ⟨fun hbad => ?_, execReqItem_idle, fun i rest hptr hopen hitems => ?_⟩, execAdmissionCycle_closed,
    fun hopen hentry hactive => ?_, fun i h pi p q hopen hentry hactive hempty hresume hchecked hmatch hpat => ?_,
    fun slot x p hx hp _ => ⟨fun hbusy => congrArg Host.Outcome.next (releaseSlot_busy hx hbusy),
      fun hend hstep => ⟨_, rfl, releaseSlot_spec hx hp hend hstep⟩⟩,
    fun sid z h => zeroingComplete_spec h⟩
  · obtain ⟨hcores, hchecked, hqueue⟩ := resetIngress_spec s h pd
    exact ⟨_, execReqItem_reset hbad, hcores, hchecked, congrArg Ingress.items hqueue, congrArg Ingress.epoch hqueue,
      (congrArg Ingress.credits hqueue).trans rfl⟩
  · have hget := setIngress_get s h pd (((s.pd pd).ingress.get h).keep rest)
    have hexec := execReqItem_oldest hptr hopen hitems
    refine ⟨congrArg Ingress.items hget, (congrArg Ingress.credits hget).trans ?_, fun hcheck => ?_, fun code hcheck => ⟨?_, ?_⟩⟩
    · exact keep_credits hitems
    · have hnone : reqCheck (setIngress s h pd (((s.pd pd).ingress.get h).keep rest)) i = none := hcheck
      rw [hnone] at hexec
      exact hexec
    · have hsome : reqCheck (setIngress s h pd (((s.pd pd).ingress.get h).keep rest)) i = some code := hcheck
      rw [hsome] at hexec
      exact hexec
    · obtain ⟨hhelm, hcores⟩ := refuseReq_spec (setIngress s h pd (((s.pd pd).ingress.get h).keep rest)) h.val i code
      exact ⟨congrArg HelmSt.checked hhelm, hcores⟩
  · obtain ⟨r, hexec⟩ := execAdmissionCycle_open hopen hentry hactive
    obtain ⟨hcores, hchecked⟩ := headTried_waits (activateAll s.helm.parked.length s)
    exact ⟨_, hexec, hchecked, hcores.trans (congrArg (·.1) (activateAll_admitting ..))⟩
  · obtain ⟨r, hexec⟩ := execAdmissionCycle_open hopen hentry hactive
    rw [activateAll_empty hempty] at hexec
    obtain ⟨hcores, hwaits⟩ := headTried_waits s
    obtain ⟨hone, haseq, hsid⟩ := headTried_single hchecked hempty hmatch
    refine ⟨_, hexec, hwaits, haseq, hsid, hcores, fun hstaging hroom hslot => ?_⟩
    obtain ⟨x, hx, hrest⟩ := parkItem_activates (s := { s with helm := { s.helm with checked := [] } }) (e := (i, h)) hempty hresume hmatch hpat
      hstaging hroom hslot
    rw [← hone] at hx hrest
    exact ⟨x, hx, hrest⟩

end Sys2Proof.Machine
